-- ==== Sys2Proof/Word.lean ====
section
/-! DEFINITION. The words and index types of the OC-2416 (spec/00_scope.md, Conventions; chapter 12). -/

namespace Sys2Proof

/-- A byte of a frame. -/
abbrev Byte := BitVec 8

/-- Two bytes: a frame check or a window's running check (R182). -/
abbrev Word := BitVec 16

/-- An audio sample: 16 bits, two's complement (00_scope, Samples). -/
abbrev Sample := BitVec 16

/-- Ports 0 to 23. -/
abbrev Port := Fin 24

/-- Stations 0 to 23. -/
abbrev Station := Fin 24

/-- Nets 0 to 15. -/
abbrev Net := Fin 16

/-- Talk keys 0 to 3. -/
abbrev Key := Fin 4

/-- Lamps 0 to 3. -/
abbrev Lamp := Fin 4

/-- Cue indices 0 to 255. -/
abbrev CueIx := Fin 256

/-- One block of audio: 24 samples (R37). -/
abbrev Block := Vector Sample 24

end Sys2Proof
end

