-- ==== Sys2Proof/Syntax.lean ====
section
/-! DEFINITION. The commands of the OC-2416: one constructor per row of spec/opcode_table.json. The table gives the rows
no operands and no bits; the operands here are the model's (notes/assumptions/17.md). A request's operands travel in
the request itself (R183), which stands in the request queue: the commands that serve requests carry none
(notes/assumptions/4.md). -/

namespace Sys2Proof

/-- The steps of the part, each whole and indivisible (spec/95_what_each_step_holds.md). -/
inductive Instr where
  /-- R37: application of the supply. -/
  | powerOn
  /-- R126: assertion of the reset line. -/
  | resetLineAssert
  /-- R37: release of the reset line. -/
  | resetLineRelease
  /-- R38: expiry of the block timer. -/
  | blockCompletion
  /-- R159: one station's full-scale mark of the last completion is counted. -/
  | overloadCount (st : Station)
  /-- R129: arrival of an uplink frame, its bytes as received, the check included. -/
  | uplinkFrame (p : Port) (bytes : List Byte)
  /-- R130: arrival of the valid frame that brings a port UP. -/
  | linkUp (p : Port) (bytes : List Byte)
  /-- R131: the 20th silent completion takes a port DOWN. -/
  | linkDown (p : Port)
  /-- R14: a net's call hold timer reaches 0. -/
  | callHoldExpiry (n : Net)
  /-- R83: a cue's acknowledge deadline expires. -/
  | ackDeadlineExpiry (c : CueIx)
  /-- R88: a GOING entry's go hold expires. -/
  | goHoldExpiry (c : CueIx)
  /-- R93, R94: a follow countdown expires. -/
  | followCountdownExpiry (c : CueIx)
  /-- R147: a station's switchover timer expires. -/
  | switchoverTimeout (st : Station)
  /-- R123: the desk supervision window expires. -/
  | supervisionWindowExpiry
  /-- R104: a station's lamp test timer expires. -/
  | lampTestExpiry (st : Station)
  /-- R180: the meter's blank count reaches 20. -/
  | meterBlankEnd
  /-- R180: the meter's window count reaches 50. -/
  | meterResult
  /-- R33: the pending Take is applied or abandoned at its completion. -/
  | takeApply
  /-- R152: an accepted restore is applied, or lapses, at its completion. -/
  | restoreApply (st : Station)
  /-- R181: the soft reset takes effect. -/
  | softResetEffect
  /-- R171: a response that waited for room is placed. -/
  | responsePlacedAfterWait
  /-- R177: a streamed read places its next response. -/
  | readEntriesContinue
  /-- R174. -/
  | windowOpen
  /-- R175. -/
  | writeEntries
  /-- R177. -/
  | readEntries
  /-- R176. -/
  | windowClose
  /-- R31. -/
  | take
  /-- R36. -/
  | revert
  /-- R178. -/
  | settingsWrite
  /-- R167. -/
  | setMode
  /-- R166. -/
  | clearFaults
  /-- R115. -/
  | claim
  /-- R117. -/
  | release
  /-- R122. -/
  | heartbeat
  /-- R77. -/
  | standby
  /-- R84. -/
  | go
  /-- R89. -/
  | cancel
  /-- R90. -/
  | cancelAll
  /-- R64. -/
  | setRegion
  /-- R69. -/
  | setPointer
  /-- R151. -/
  | restoreStation
  /-- R103. -/
  | lampTest
  /-- R180. -/
  | meterStart
  /-- R180. -/
  | meterStop
  /-- R179. -/
  | getStatus
  /-- R181. -/
  | softReset
  deriving DecidableEq, Repr

end Sys2Proof
end

