-- ==== Sys2Proof/Config.lean ====
section
/-! DEFINITION. The free values, and the numbers the manual fixes for every OC-2416. -/

namespace Sys2Proof.Config

/-- FREE VALUE (notes/assumptions 2 and 6): the order in which the part takes events, or the parts of one event,
whose order the manual leaves open (R35, R95, R149). Nothing in Lean can evaluate it. -/
opaque pick : Nat → Nat

/-- Switchover time, ms (R145). -/
abbrev switchoverMs : Nat := 50

/-- Lamp test time, ms (R103). -/
abbrev lampTestMs : Nat := 3000

/-- Consecutive silent completions that take a port DOWN (R131). -/
abbrev lossLimit : Nat := 20

/-- Valid frames that bring a port UP (R130). -/
abbrev acquireLimit : Nat := 8

/-- Full-scale completions that begin the OVERLOAD condition, clean ones that end it (R159). -/
abbrev overloadRun : Nat := 16

/-- Entries of a wait queue (R3). -/
abbrev waitLimit : Nat := 8

/-- Entries of the active cue list (R72). -/
abbrev activeLimit : Nat := 16

/-- Requests in the request queue (R169). -/
abbrev requestLimit : Nat := 16

/-- Messages in an outbound queue (R171). -/
abbrev outboundLimit : Nat := 32

/-- Bytes of a message area (R141). -/
abbrev areaBytes : Nat := 64

/-- Blank completions of a meter measurement (R180). -/
abbrev meterBlank : Nat := 20

/-- Window completions of a meter measurement (R180). -/
abbrev meterWindow : Nat := 50

end Sys2Proof.Config
end

