-- ==== Sys2Proof/Machine/Types.lean ====
section
/-! DEFINITION. The records, codes and entries of the manual, as data types. -/

namespace Sys2Proof.Machine

/-- Station kinds (R24). -/
inductive Kind where
  | desk | panel | beltpack | cueStation | source
  deriving DecidableEq, Repr

/-- A station record (R23). -/
structure StationRecord where
  enabled : Bool
  kind : Kind
  primary : Port
  spare : Option Port
  cls : Nat
  talkGain : Nat
  progLevel : Nat
  duckDepth : Nat
  master : Nat
  lampCount : Nat
  mgmt : Bool
  annAllowed : Bool
  recvAnn : Bool
  threshold : Nat
  deriving DecidableEq, Repr

/-- A net record (R26). -/
structure NetRecord where
  enabled : Bool
  slots : Nat
  callHold : Nat
  progDuck : Bool
  deriving DecidableEq, Repr

/-- A cell of the assignment matrix (R27). -/
structure Cell where
  level : Nat
  key : Option Key
  deriving DecidableEq, Repr

/-- A bank: station table, net table and assignment matrix (R22). -/
structure Bank where
  stations : Vector StationRecord 24
  nets : Vector NetRecord 16
  cells : Vector (Vector Cell 16) 24
  deriving DecidableEq, Repr

/-- Acknowledge policies (R58, R81). -/
inductive AckPolicy where
  | all | any | none
  deriving DecidableEq, Repr

/-- Go policies (R58). -/
inductive GoPolicy where
  | strict | permissive
  deriving DecidableEq, Repr

/-- A cue record (R58). -/
structure CueRecord where
  enabled : Bool
  showWhole : Nat
  showPoint : Nat
  department : Nat
  targets : List (Station × Lamp)
  ackPolicy : AckPolicy
  goPolicy : GoPolicy
  ackDeadline : Nat
  goHold : Nat
  follow : Option (CueIx × Nat)
  takeOnGo : Bool
  callNet : Option Net
  deriving DecidableEq, Repr

/-- An entry of a holder list or a wait queue (R2, R3). -/
structure Hold where
  st : Station
  key : Key
  deriving DecidableEq, Repr

/-- The call state of a net (R1). In HOLDING, `none` as caller is the marker "cue". A remaining of 0 stands only
between the fall of the timer to 0 and the taking of its expiry. -/
inductive CallState where
  | idle
  | calling (st : Station) (key : Key)
  | holding (caller : Option Station) (remaining : Nat)
  deriving DecidableEq, Repr

/-- Talk standings (R4). -/
inductive Standing where
  | off | live | wait | refused | muted | dropped
  deriving DecidableEq, Repr

/-- Announce standings (R1). -/
inductive AnnStanding where
  | none | inChannel | refused | dropped
  deriving DecidableEq, Repr

/-- The states of an active entry (R73). -/
inductive EntryState where
  | countdown | standby | ready | going
  deriving DecidableEq, Repr

/-- Target states (R73). -/
inductive TargetState where
  | waiting | acked | late | ackedLate | lost
  deriving DecidableEq, Repr

/-- The acknowledge deadline's standing, with its remaining time while RUNNING (R73). -/
inductive Deadline where
  | none
  | running (remaining : Nat)
  | expired
  | stopped
  deriving DecidableEq, Repr

/-- A follow countdown on an entry (R73): its remaining time; whether it has expired and the expiry is not yet taken
(notes/assumptions/1.md); and the cue whose GO started it, which the follow reports carry (R76). -/
structure Countdown where
  remaining : Nat
  due : Bool
  starter : CueIx
  deriving DecidableEq, Repr

/-- An entry of the active cue list (R73). -/
structure CueEntry where
  cue : CueIx
  state : EntryState
  targets : List TargetState
  deadline : Deadline
  follow : Option Countdown
  goHold : Nat
  byFollow : Bool
  unready : Bool
  forced : Bool
  deriving DecidableEq, Repr

/-- The ranks a cue claim may take (R100). TEST is held apart, one per lamp. -/
inductive Rank where
  | ready | standby | late | go
  deriving DecidableEq, Repr

/-- A cue claim: its source (cue index and target position), its lamp and its rank (R100, R101). -/
structure Claim where
  cue : CueIx
  pos : Nat
  st : Station
  lamp : Lamp
  rank : Rank
  deriving DecidableEq, Repr

/-- The states a lamp shows (R102). -/
inductive LampShow where
  | off | ready | standby | late | go | test
  deriving DecidableEq, Repr

/-- Homing states (R142). -/
inductive HomingState where
  | onPrimary | switching | onSpare | isolated
  deriving DecidableEq, Repr

/-- Reasons of an isolation (R149, R187). -/
inductive IsoReason where
  | noSpare | spareFailed | switchoverTimeout
  deriving DecidableEq, Repr

/-- Concealment steps (R125). -/
inductive Conceal where
  | fresh | halved | silent
  deriving DecidableEq, Repr

/-- The levels of a frame's keys and buttons (R125). -/
structure Levels where
  talk : Vector Bool 4
  call : Option Key
  announce : Bool
  acks : Vector Bool 4
  deriving DecidableEq, Repr

/-- The five fault classes (R156). -/
inductive FaultClass where
  | link | overload | desk | cue | clip
  deriving DecidableEq, Repr

/-- Class modes (R156). -/
inductive Mode where
  | latched | auto | rekey | warn | off
  deriving DecidableEq, Repr

/-- The mute of a station (R155). -/
inductive Mute where
  | none | latched | rekey
  deriving DecidableEq, Repr

/-- Reasons of a loss of authority (R120, R187). -/
inductive LossReason where
  | forced | portDown | isolated | take | deskFault
  deriving DecidableEq, Repr

/-- Causes of a mute's end (R165, R187). -/
inductive MuteEnd where
  | rekeyPress | clearFaults | setMode
  deriving DecidableEq, Repr

/-- Kinds of a desk fault (R165, R187). -/
inductive DeskKind where
  | early | late
  deriving DecidableEq, Repr

/-- Reasons of a lost follow (R91, R92, R187). -/
inductive FollowLoss where
  | disabled | listFull | going
  deriving DecidableEq, Repr

/-- The holding station: a station, or COMMISSIONING (R113). -/
inductive Holding where
  | station (st : Station)
  | commissioning
  deriving DecidableEq, Repr

/-- Cause of a withdrawal from talk (R11). -/
inductive WithdrawCause where
  | mute | isolated | take
  deriving DecidableEq, Repr

/-- Result codes (R183). -/
inductive Result where
  | ok | badValue | busy | unverified | noAuthority | active | listFull | notActive | alreadyGone | notReady
  | noPermission | badForm | full | noWindow | checkFail | windowEnd | held | barred | notAvailable | early
  deriving DecidableEq, Repr

/-- The cue named by a Standby or GO request: an index or NEXT (R66). -/
inductive CueRef where
  | index (c : CueIx)
  | next
  deriving DecidableEq, Repr

/-- What a Set Pointer request names (R69, R183). -/
inductive PointerRef where
  | index (c : CueIx)
  | next
  | toEnd
  deriving DecidableEq, Repr

/-- A settings record (R178), less the class modes, which the fault supervisor holds. -/
structure Settings where
  progSource : Option Station
  high : Nat
  low : Nat
  duckStep : Nat
  supEnable : Bool
  supMin : Nat
  supMax : Nat
  deriving DecidableEq, Repr

/-- A request, as its message body spells it (R183). Codes and numbers that the serving judges (R174, R175, R178,
R167, R103, R151, R180, R179) are kept as sent. -/
inductive Request where
  | windowOpen (table flags first0 first1 last0 last1 : Byte)
  | writeEntries (etype : Byte) (count : Nat) (bytes : List Byte)
  | readEntries
  | windowClose (expected : Option Word)
  | take
  | revert
  | settingsWrite (prog high low : Byte) (step : Nat) (enable : Byte) (smin smax : Nat)
  | setMode (cls mode : Byte)
  | clearFaults
  | claim (force : Bool)
  | release
  | heartbeat
  | standby (ref : CueRef)
  | go (ref : CueRef) (force : Bool)
  | cancel (c : CueIx)
  | cancelAll
  | setRegion (fixed seqSize : Nat)
  | setPointer (ref : PointerRef)
  | restoreStation (st : Byte)
  | lampTest (st : Byte)
  | meterStart (point index mode : Byte)
  | meterStop
  | getStatus (item number : Byte)
  | softReset
  deriving DecidableEq, Repr

/-- A request in the request queue, with its port and tag (R169). -/
structure QueuedRequest where
  port : Port
  tag : Byte
  req : Request
  deriving DecidableEq, Repr

/-- A message of an outbound queue: header fields and body (R183). -/
structure Message where
  kind : Byte
  tag : Byte
  code : Byte
  body : List Byte
  deriving DecidableEq, Repr

/-- The tables a window may open (R174). -/
inductive Table where
  | stations | nets | matrix | cues
  deriving DecidableEq, Repr

/-- The window context (R173). `first` and `last` are positions in the window's order (for MATRIX a cell's place in
BY_STATION or BY_NET order), `advanced` is how far the next index has advanced from the first (R184). -/
structure Window where
  owner : Port
  table : Table
  byNet : Bool
  first : Nat
  last : Nat
  checkRequired : Bool
  advanced : Nat
  check : Word
  deriving DecidableEq, Repr

/-- A meter point (R180). -/
inductive MeterPoint where
  | inputSlot (p : Port)
  | netSum (n : Net)
  | listen (st : Station)
  | programme
  deriving DecidableEq, Repr

/-- A running measurement (R180). `measuring` is the phase: clear in BLANK, set in WINDOW. -/
structure Meter where
  port : Port
  tag : Byte
  point : MeterPoint
  repeats : Bool
  measuring : Bool
  count : Nat
  peak : Nat
  blocks : Nat
  noSignal : Bool
  deriving DecidableEq, Repr

/-- What holds the head of the request queue (R170, R171, R177, R181): nothing; a response that waits for room, with
whether it is the OK of a Soft Reset; a streamed read at a position; a Soft Reset whose OK stands in the queue of
a port; or a Soft Reset whose OK has been sent. -/
inductive Service where
  | idle
  | waiting (p : Port) (m : Message) (thenReset : Bool)
  | streaming (p : Port) (tag : Byte) (pos : Nat)
  | resetOk (p : Port)
  | resetDue
  deriving DecidableEq, Repr

/-- Who set the pending Take (R31, R32). -/
inductive TakeOrigin where
  | requester (p : Port) (tag : Byte)
  | cue (c : CueIx)
  deriving DecidableEq, Repr

/-- A response of a Take that waits for room; `ripe` from the completion after the one that applied it (R171). -/
structure TakeWait where
  port : Port
  msg : Message
  ripe : Bool
  deriving DecidableEq, Repr

end Sys2Proof.Machine
end

