-- ==== Sys2Proof/Machine/Operands.lean ====
section
/-! DEFINITION. The operand forms: bytes, the CRC, the uplink frame, the message area, requests, and the entries of
windows (chapter 12, R182 to R187). None of this reads or writes the machine's state. -/

namespace Sys2Proof.Machine

/-! Bytes. -/

/-- A number as a byte. -/
def byteOf (n : Nat) : Byte := BitVec.ofNat 8 n

/-- A two-byte field, low byte first (chapter 12). -/
def le16 (n : Nat) : List Byte := [byteOf n, byteOf (n / 256)]

/-- The number in two bytes, low byte first. -/
def fromLe (lo hi : Byte) : Nat := lo.toNat + 256 * hi.toNat

/-- A byte with one bit set or clear. -/
def bit (i : Nat) (b : Bool) : Nat := if b then 2 ^ i else 0

/-- The index in `Fin n` that a number names, if it is in range. -/
def finOf? (n v : Nat) : Option (Fin n) := if h : v < n then some ⟨v, h⟩ else none

/-- A sample as its two bytes, low byte first. -/
def sampleBytes (x : Sample) : List Byte := [x.setWidth 8, (x >>> 8).setWidth 8]

/-- A sample from its two bytes. -/
def sampleOf (lo hi : Byte) : Sample := lo.setWidth 16 ||| (hi.setWidth 16 <<< 8)

/-- Silence: 24 samples of 0. -/
def silence : Block := Vector.replicate 24 0

/-! The CRC-16 of R182: polynomial 1021h, most significant bit first, no final inversion. -/

/-- One bit of the CRC's division. -/
def crcBit (c : Word) : Word := if c.msb then (c <<< 1) ^^^ 0x1021#16 else c <<< 1

/-- One byte into the CRC. -/
def crcByte (c : Word) (b : Byte) : Word :=
  crcBit (crcBit (crcBit (crcBit (crcBit (crcBit (crcBit (crcBit (c ^^^ (b.setWidth 16 <<< 8)))))))))

/-- The CRC carried on over bytes. -/
def crc (c : Word) (bs : List Byte) : Word := bs.foldl crcByte c

/-- The value from which every CRC of the part begins (R182). -/
def crcStart : Word := 0xFFFF#16

/-- The check of a frame as sent: high byte first (R182). -/
def crcBytes (c : Word) : List Byte := [(c >>> 8).setWidth 8, c.setWidth 8]

/-! The uplink frame (R127, R182). -/

/-- The contents of an undamaged uplink frame. -/
structure UplinkFrame where
  seq : Byte
  levels : Levels
  audio : Option Block
  area : List Byte
  deriving DecidableEq, Repr

/-- The samples of a list of bytes, two bytes each. -/
def samplesOf : List Byte → List Sample
  | lo :: hi :: rest => sampleOf lo hi :: samplesOf rest
  | _ => []

/-- The first 24 samples of a list, with silence beyond its end. -/
def blockOf (l : List Sample) : Block := Vector.ofFn fun k => l.getD k.val 0

/-- The levels in bytes 1 and 2 of an uplink frame (R182). Reserved bits are ignored. -/
def levelsOf (b1 b2 : Byte) : Levels where
  talk := Vector.ofFn fun k => b1.getLsbD k.val
  announce := b1.getLsbD 4
  acks := Vector.ofFn fun k => b2.getLsbD k.val
  call := if b2.getLsbD 6 then finOf? 4 ((b2.toNat / 16) % 4) else none

/-- The length an uplink frame's header declares (R182). -/
def declaredLength (count mlen : Nat) : Nat := 7 + 2 * count + mlen

/-- R127: a received frame, or `none` if it is damaged. -/
def parseUplink (bytes : List Byte) : Option UplinkFrame :=
  match bytes with
  | seq :: b1 :: b2 :: cnt :: mlen :: rest =>
    let count := cnt.toNat
    let m := mlen.toNat
    if (count = 0 ∨ count = 24) ∧ m ≤ Config.areaBytes ∧ bytes.length = declaredLength count m
        ∧ crcBytes (crc crcStart (bytes.take (bytes.length - 2))) = bytes.drop (bytes.length - 2) then
      some { seq := seq
             levels := levelsOf b1 b2
             audio := if count = 24 then some (blockOf (samplesOf (rest.take 48))) else none
             area := (rest.drop (2 * count)).take m }
    else none
  | _ => none

/-! Requests (R169, R183). -/

/-- Bytes of one entry, by entry type (R185): station 1, net 2, cell 3, cue 4. -/
def entryLength (etype : Nat) : Option Nat :=
  match etype with
  | 1 => some 15
  | 2 => some 4
  | 3 => some 3
  | 4 => some 32
  | _ => none

/-- Whether a Write Entries body's length suits (R183). -/
def writeSuits (etype count len : Nat) : Bool :=
  match entryLength etype with
  | some l => len = count * l
  | none => false

/-- The cue reference of a Standby or GO body (R183). -/
def cueRefOf (c flags : Byte) : CueRef := if flags.getLsbD 0 then .next else .index c.toFin

/-- The pointer reference of a Set Pointer body: END whatever its NEXT bit, else NEXT (R183). -/
def pointerRefOf (c flags : Byte) : PointerRef :=
  if flags.getLsbD 0 then .toEnd else if flags.getLsbD 1 then .next else .index c.toFin

/-- The request that a kind and a body spell; `none` where the kind names no request or the body length does not
suit the kind (R169 step 2, R183). -/
def decodeRequest (kind : Byte) (body : List Byte) : Option Request :=
  match kind.toNat, body with
  | 0x01, [t, fl, f0, f1, l0, l1] => some (.windowOpen t fl f0 f1 l0 l1)
  | 0x02, et :: cnt :: es => if writeSuits et.toNat cnt.toNat es.length then some (.writeEntries et cnt.toNat es) else none
  | 0x03, [] => some .readEntries
  | 0x04, [fl, lo, hi] => some (.windowClose (if fl.getLsbD 0 then some (BitVec.ofNat 16 (fromLe lo hi)) else none))
  | 0x05, [] => some .take
  | 0x06, [] => some .revert
  | 0x07, [ps, hi, lo, st0, st1, en, mn0, mn1, mx0, mx1] =>
    some (.settingsWrite ps hi lo (fromLe st0 st1) en (fromLe mn0 mn1) (fromLe mx0 mx1))
  | 0x08, [c, m] => some (.setMode c m)
  | 0x09, [] => some .clearFaults
  | 0x0A, [fl] => some (.claim (fl.getLsbD 0))
  | 0x0B, [] => some .release
  | 0x0C, [] => some .heartbeat
  | 0x0D, [c, fl] => some (.standby (cueRefOf c fl))
  | 0x0E, [c, fl] => some (.go (cueRefOf c fl) (fl.getLsbD 1))
  | 0x0F, [c] => some (.cancel c.toFin)
  | 0x10, [] => some .cancelAll
  | 0x11, [f, l0, l1] => some (.setRegion f.toNat (fromLe l0 l1))
  | 0x12, [c, fl] => some (.setPointer (pointerRefOf c fl))
  | 0x13, [st] => some (.restoreStation st)
  | 0x14, [st] => some (.lampTest st)
  | 0x15, [pt, ix, md] => some (.meterStart pt ix md)
  | 0x16, [] => some .meterStop
  | 0x17, [it, num] => some (.getStatus it num)
  | 0x18, [] => some .softReset
  | _, _ => none

/-- Whether a kind names a request (R183). -/
def namesRequest (kind : Byte) : Bool := 0x01 ≤ kind.toNat ∧ kind.toNat ≤ 0x18

/-- The kind of a request (R183). -/
def Request.kind : Request → Nat
  | .windowOpen .. => 0x01
  | .writeEntries .. => 0x02
  | .readEntries => 0x03
  | .windowClose .. => 0x04
  | .take => 0x05
  | .revert => 0x06
  | .settingsWrite .. => 0x07
  | .setMode .. => 0x08
  | .clearFaults => 0x09
  | .claim .. => 0x0A
  | .release => 0x0B
  | .heartbeat => 0x0C
  | .standby .. => 0x0D
  | .go .. => 0x0E
  | .cancel .. => 0x0F
  | .cancelAll => 0x10
  | .setRegion .. => 0x11
  | .setPointer .. => 0x12
  | .restoreStation .. => 0x13
  | .lampTest .. => 0x14
  | .meterStart .. => 0x15
  | .meterStop => 0x16
  | .getStatus .. => 0x17
  | .softReset => 0x18

/-- The messages of an area, each its kind, its tag and its body, as far as parsing goes (R169 step 1, R183): a header
cut short, or a declared length below 4, above 60 or past the end, ends it. The fuel is the area's length. -/
def parseArea : Nat → List Byte → List (Byte × Byte × List Byte)
  | fuel + 1, k :: t :: n :: x :: rest =>
    if 4 ≤ n.toNat ∧ n.toNat ≤ 60 ∧ n.toNat ≤ (k :: t :: n :: x :: rest).length then
      (k, t, rest.take (n.toNat - 4)) :: parseArea fuel (rest.drop (n.toNat - 4))
    else []
  | _, _ => []

/-! Codes (R183, R187). -/

/-- Result codes (R183). -/
def Result.code : Result → Nat
  | .ok => 0x00
  | .badValue => 0x01
  | .busy => 0x02
  | .unverified => 0x03
  | .noAuthority => 0x04
  | .active => 0x05
  | .listFull => 0x06
  | .notActive => 0x07
  | .alreadyGone => 0x08
  | .notReady => 0x09
  | .noPermission => 0x0A
  | .badForm => 0x0B
  | .full => 0x0C
  | .noWindow => 0x0D
  | .checkFail => 0x0E
  | .windowEnd => 0x0F
  | .held => 0x10
  | .barred => 0x11
  | .notAvailable => 0x12
  | .early => 0x13

/-- Kind codes (R185). -/
def Kind.code : Kind → Nat
  | .desk => 1
  | .panel => 2
  | .beltpack => 3
  | .cueStation => 4
  | .source => 5

/-- The kind a code names (R185). -/
def kindOf? (n : Nat) : Option Kind :=
  match n with
  | 1 => some .desk
  | 2 => some .panel
  | 3 => some .beltpack
  | 4 => some .cueStation
  | 5 => some .source
  | _ => none

/-- Ack policy codes (R185). -/
def AckPolicy.code : AckPolicy → Nat
  | .all => 1
  | .any => 2
  | .none => 3

/-- The ack policy a code names (R185). -/
def ackPolicyOf? (n : Nat) : Option AckPolicy :=
  match n with
  | 1 => some .all
  | 2 => some .any
  | 3 => some .none
  | _ => none

/-- Go policy codes (R185). -/
def GoPolicy.code : GoPolicy → Nat
  | .strict => 1
  | .permissive => 2

/-- The go policy a code names (R185). -/
def goPolicyOf? (n : Nat) : Option GoPolicy :=
  match n with
  | 1 => some .strict
  | 2 => some .permissive
  | _ => none

/-- Fault class codes (R183, Set Mode). -/
def FaultClass.code : FaultClass → Nat
  | .link => 1
  | .overload => 2
  | .desk => 3
  | .cue => 4
  | .clip => 5

/-- The fault class a code names. -/
def faultClassOf? (n : Nat) : Option FaultClass :=
  match n with
  | 1 => some .link
  | 2 => some .overload
  | 3 => some .desk
  | 4 => some .cue
  | 5 => some .clip
  | _ => none

/-- Mode codes (R183, Set Mode). -/
def Mode.code : Mode → Nat
  | .latched => 1
  | .auto => 2
  | .rekey => 3
  | .warn => 4
  | .off => 5

/-- The mode a code names. -/
def modeOf? (n : Nat) : Option Mode :=
  match n with
  | 1 => some .latched
  | 2 => some .auto
  | 3 => some .rekey
  | 4 => some .warn
  | 5 => some .off
  | _ => none

/-- The modes a class permits (R156). -/
def permits : FaultClass → Mode → Bool
  | .link, .latched => true
  | .link, .auto => true
  | .link, .warn => true
  | .link, .off => true
  | .overload, .latched => true
  | .overload, .rekey => true
  | .overload, .warn => true
  | .overload, .off => true
  | .desk, .latched => true
  | .desk, .warn => true
  | .desk, .off => true
  | .cue, .warn => true
  | .cue, .off => true
  | .clip, .warn => true
  | .clip, .off => true
  | _, _ => false

/-- Entry state codes (R187). -/
def EntryState.code : EntryState → Nat
  | .countdown => 1
  | .standby => 2
  | .ready => 3
  | .going => 4

/-- Target state codes (R187). -/
def TargetState.code : TargetState → Nat
  | .waiting => 1
  | .acked => 2
  | .late => 3
  | .ackedLate => 4
  | .lost => 5

/-- Homing state codes (R182, byte 7). -/
def HomingState.code : HomingState → Nat
  | .onPrimary => 1
  | .switching => 2
  | .onSpare => 3
  | .isolated => 4

/-- Concealment step codes (R184). -/
def Conceal.code : Conceal → Nat
  | .fresh => 1
  | .halved => 2
  | .silent => 3

/-- Mute codes (R184). -/
def Mute.code : Mute → Nat
  | .none => 0
  | .latched => 1
  | .rekey => 2

/-- Talk standing codes (R184). -/
def Standing.code : Standing → Nat
  | .off => 0
  | .live => 1
  | .wait => 2
  | .refused => 3
  | .muted => 4
  | .dropped => 5

/-- Announce standing codes (R184). -/
def AnnStanding.code : AnnStanding → Nat
  | .none => 0
  | .inChannel => 1
  | .refused => 2
  | .dropped => 3

/-- Talk indications (R4, R182): DROPPED shows TALK_OFF. -/
def Standing.indication : Standing → Nat
  | .off => 0
  | .live => 1
  | .wait => 2
  | .refused => 3
  | .muted => 4
  | .dropped => 0

/-- Announce indications (R17, R182). -/
def AnnStanding.indication : AnnStanding → Nat
  | .none => 0
  | .inChannel => 1
  | .refused => 2
  | .dropped => 0

/-- Lamp state codes (R182). -/
def LampShow.code : LampShow → Nat
  | .off => 0
  | .ready => 1
  | .standby => 2
  | .late => 3
  | .go => 4
  | .test => 5

/-- Isolation reason codes (R187). -/
def IsoReason.code : IsoReason → Nat
  | .noSpare => 1
  | .spareFailed => 2
  | .switchoverTimeout => 3

/-- Codes of the reasons of a loss of authority (R187). -/
def LossReason.code : LossReason → Nat
  | .forced => 1
  | .portDown => 2
  | .isolated => 3
  | .take => 4
  | .deskFault => 5

/-- Codes of a mute's end (R187). -/
def MuteEnd.code : MuteEnd → Nat
  | .rekeyPress => 1
  | .clearFaults => 2
  | .setMode => 3

/-- Desk fault kind codes (R187). -/
def DeskKind.code : DeskKind → Nat
  | .early => 1
  | .late => 2

/-- Codes of a lost follow's reason (R187). -/
def FollowLoss.code : FollowLoss → Nat
  | .disabled => 1
  | .listFull => 2
  | .going => 3

/-- Table codes (R183, Window Open). -/
def Table.code : Table → Nat
  | .stations => 1
  | .nets => 2
  | .matrix => 3
  | .cues => 4

/-- The table a code names. -/
def tableOf? (n : Nat) : Option Table :=
  match n with
  | 1 => some .stations
  | 2 => some .nets
  | 3 => some .matrix
  | 4 => some .cues
  | _ => none

/-- Entries of a whole table (R174, R176). -/
def Table.size : Table → Nat
  | .stations => 24
  | .nets => 16
  | .matrix => 384
  | .cues => 256

/-- Most entries of one Write Entries (R175). -/
def Table.maxEntries : Table → Nat
  | .matrix => 8
  | _ => 1

/-! Entries (R185): each is decoded field by field and judged against its ranges; `none` is BAD_VALUE. The value bytes of
an optional field whose presence bit is clear, target pairs beyond the count, and reserved bits are ignored. -/

/-- Whether a number is a gain or level (00_scope, Gains and levels). -/
def isGain (n : Nat) : Bool := n ≤ 256

/-- Whether a number is a link threshold: 16 to 248, a multiple of 8 (R23). -/
def isThreshold (n : Nat) : Bool := 16 ≤ n ∧ n ≤ 248 ∧ n % 8 = 0

/-- A station entry, its ranges judged (R25, R185); the port checks of R25 need the EDIT bank and stand with it. -/
def decodeStation (bs : List Byte) : Option StationRecord :=
  match bs with
  | [fl, kd, pp, sp, cl, tg0, tg1, pl0, pl1, dd0, dd1, ml0, ml1, lc, th] =>
    match kindOf? kd.toNat, finOf? 24 pp.toNat with
    | some kind, some primary =>
      let spare := if fl.getLsbD 4 then finOf? 24 sp.toNat else none
      if (fl.getLsbD 4 → spare.isSome) ∧ spare ≠ some primary ∧ cl.toNat ≤ 3 ∧ isGain (fromLe tg0 tg1)
          ∧ isGain (fromLe pl0 pl1) ∧ isGain (fromLe dd0 dd1) ∧ isGain (fromLe ml0 ml1) ∧ lc.toNat ≤ 4
          ∧ isThreshold th.toNat then
        some { enabled := fl.getLsbD 0, kind := kind, primary := primary, spare := spare, cls := cl.toNat,
               talkGain := fromLe tg0 tg1, progLevel := fromLe pl0 pl1, duckDepth := fromLe dd0 dd1,
               master := fromLe ml0 ml1, lampCount := lc.toNat, mgmt := fl.getLsbD 1,
               annAllowed := fl.getLsbD 2, recvAnn := fl.getLsbD 3, threshold := th.toNat }
      else none
    | _, _ => none
  | _ => none

/-- A net entry, its ranges judged (R26, R185). -/
def decodeNet (bs : List Byte) : Option NetRecord :=
  match bs with
  | [fl, sl, h0, h1] =>
    let hold := fromLe h0 h1
    if 1 ≤ sl.toNat ∧ sl.toNat ≤ 8 ∧ hold ≤ 10000 ∧ hold % 100 = 0 then
      some { enabled := fl.getLsbD 0, slots := sl.toNat, callHold := hold, progDuck := fl.getLsbD 1 }
    else none
  | _ => none

/-- A cell entry, its ranges judged (R28, R185): a talk key byte is 0 to 3 or FFh. -/
def decodeCell (bs : List Byte) : Option Cell :=
  match bs with
  | [l0, l1, k] =>
    let level := fromLe l0 l1
    if level ≤ 256 ∧ (k.toNat ≤ 3 ∨ k.toNat = 255) then some { level := level, key := finOf? 4 k.toNat } else none
  | _ => none

/-- The target pairs of a cue entry; `none` if one is out of range (R58, R185). -/
def decodeTargets : Nat → List Byte → Option (List (Station × Lamp))
  | 0, _ => some []
  | n + 1, st :: lp :: rest =>
    match finOf? 24 st.toNat, finOf? 4 lp.toNat, decodeTargets n rest with
    | some s, some l, some ts => some ((s, l) :: ts)
    | _, _, _ => none
  | _ + 1, _ => none

/-- The follow of a cue entry, `none` if it is out of range (R58, R60). -/
def decodeFollow (present : Bool) (own : CueIx) (cue : Byte) (delay : Nat) : Option (Option (CueIx × Nat)) :=
  if present then
    if cue.toFin ≠ own ∧ delay ≤ 60000 then some (some (cue.toFin, delay)) else none
  else some none

/-- The call net of a cue entry, `none` if it is out of range (R58). -/
def decodeCallNet (present : Bool) (n : Byte) : Option (Option Net) :=
  if present then (finOf? 16 n.toNat).map some else some none

/-- A cue entry for the record of index `own`, judged by R60. -/
def decodeCue (own : CueIx) (bs : List Byte) : Option CueRecord :=
  match bs with
  | fl :: w0 :: w1 :: pt :: dp :: ap :: gp :: ad0 :: ad1 :: gh0 :: gh1 :: fc :: fd0 :: fd1 :: cn :: tc :: pairs =>
    match ackPolicyOf? ap.toNat, goPolicyOf? gp.toNat, decodeFollow (fl.getLsbD 2) own fc (fromLe fd0 fd1),
        decodeCallNet (fl.getLsbD 3) cn, decodeTargets tc.toNat pairs with
    | some ack, some gop, some fol, some net, some tg =>
      if fromLe w0 w1 ≤ 9999 ∧ pt.toNat ≤ 9 ∧ dp.toNat ≤ 7 ∧ fromLe ad0 ad1 ≤ 30000 ∧ 100 ≤ fromLe gh0 gh1
          ∧ fromLe gh0 gh1 ≤ 5000 ∧ 1 ≤ tc.toNat ∧ tc.toNat ≤ 8 ∧ tg.Nodup then
        some { enabled := fl.getLsbD 0, showWhole := fromLe w0 w1, showPoint := pt.toNat, department := dp.toNat,
               targets := tg, ackPolicy := ack, goPolicy := gop, ackDeadline := fromLe ad0 ad1,
               goHold := fromLe gh0 gh1, follow := fol, takeOnGo := fl.getLsbD 1, callNet := net }
      else none
    | _, _, _, _, _ => none
  | _ => none

/-- A station record as an entry (R185). -/
def encodeStation (r : StationRecord) : List Byte :=
  [byteOf (bit 0 r.enabled + bit 1 r.mgmt + bit 2 r.annAllowed + bit 3 r.recvAnn + bit 4 r.spare.isSome),
    byteOf r.kind.code, byteOf r.primary.val, byteOf (r.spare.elim 0 (·.val)), byteOf r.cls]
  ++ le16 r.talkGain ++ le16 r.progLevel ++ le16 r.duckDepth ++ le16 r.master
  ++ [byteOf r.lampCount, byteOf r.threshold]

/-- A net record as an entry (R185). -/
def encodeNet (r : NetRecord) : List Byte :=
  [byteOf (bit 0 r.enabled + bit 1 r.progDuck), byteOf r.slots] ++ le16 r.callHold

/-- A cell as an entry (R185). -/
def encodeCell (c : Cell) : List Byte := le16 c.level ++ [byteOf (c.key.elim 255 (·.val))]

/-- The eight target pairs of a cue entry, unused pairs 00h (R185). -/
def encodeTargets : Nat → List (Station × Lamp) → List Byte
  | 0, _ => []
  | n + 1, [] => byteOf 0 :: byteOf 0 :: encodeTargets n []
  | n + 1, (s, l) :: rest => byteOf s.val :: byteOf l.val :: encodeTargets n rest

/-- A cue record as an entry (R185). -/
def encodeCue (r : CueRecord) : List Byte :=
  [byteOf (bit 0 r.enabled + bit 1 r.takeOnGo + bit 2 r.follow.isSome + bit 3 r.callNet.isSome)]
  ++ le16 r.showWhole ++ [byteOf r.showPoint, byteOf r.department, byteOf r.ackPolicy.code, byteOf r.goPolicy.code]
  ++ le16 r.ackDeadline ++ le16 r.goHold ++ [byteOf (r.follow.elim 0 (·.1.val))] ++ le16 (r.follow.elim 0 (·.2))
  ++ [byteOf (r.callNet.elim 0 (·.val)), byteOf r.targets.length] ++ encodeTargets 8 r.targets

/-! Messages (R183). -/

/-- The whole length of a message. -/
def Message.length (m : Message) : Nat := 4 + m.body.length

/-- A message as bytes: kind, tag, length, code, body. -/
def Message.bytes (m : Message) : List Byte := [m.kind, m.tag, byteOf m.length, m.code] ++ m.body

/-- Whether a message is a report: report kinds begin at C0h, response kinds end at 98h (R183, R187). -/
def Message.isReport (m : Message) : Bool := 0xC0 ≤ m.kind.toNat

/-- A response to a request of kind `k` (R183). -/
def responseTo (k : Nat) (tag : Byte) (r : Result) (body : List Byte) : Message :=
  { kind := byteOf (k + 0x80), tag := tag, code := byteOf r.code, body := body }

/-- A report: tag 0 and code 0 (R183). -/
def reportOf (k : Nat) (body : List Byte) : Message := { kind := byteOf k, tag := 0, code := 0, body := body }

/-- A port as a byte, FFh for none. -/
def portByte (p : Option Port) : Byte := byteOf (p.elim 255 (·.val))

end Sys2Proof.Machine
end

