-- ==== Sys2Proof/Machine/State.lean ====
section
/-! DEFINITION. The state of the part, as plain data, and its value after power-on (INVENTORY.md, State). -/

namespace Sys2Proof.Machine

/-- No command of the part stops the machine: the spec calls no behaviour undefined, unpredictable or
implementation-defined (INVENTORY.md, Faults). So there is no fault. -/
inductive Fault where
  deriving DecidableEq, Repr

/-- Refusals. -/
inductive Refusal where
  /-- Raised by exec's arm for a command that has no meaning yet; safe: nothing can be proved of what it does. -/
  | notModelled (mnemonic : String)
  deriving DecidableEq, Repr

/-- A port unit (R125). `loss` is 20 only between the completion that raises it there and the taking of LINK_DOWN;
`validSeen` is whether a valid frame has arrived since the previous completion (R130 to R132). -/
structure PortUnit where
  up : Bool
  acquire : Nat
  loss : Nat
  bucket : Nat
  lastSeq : Option Byte
  cond : Bool
  held : Levels
  latest : Block
  fresh : Bool
  conceal : Conceal
  slot : Block
  awaiting : Bool
  downSeq : Byte
  validSeen : Bool
  deriving DecidableEq, Repr

/-- An outbound queue, head first, with its port's REPORT_LOST flag (R171, R172). -/
structure Outbound where
  queue : List Message
  lost : Bool
  deriving DecidableEq, Repr

/-- The talk arbiter (R1). -/
structure Arbiter where
  holders : Vector (List Hold) 16
  waits : Vector (List Hold) 16
  calls : Vector CallState 16
  announce : Option Station
  talk : Vector (Vector Standing 4) 24
  ann : Vector AnnStanding 24
  deriving DecidableEq, Repr

/-- The mix engine's own state (R48, R51). -/
structure MixState where
  duck : Vector Nat 24
  clip : Vector Bool 24
  deriving DecidableEq, Repr

/-- The cue table (R57). -/
structure CueTable where
  records : Vector CueRecord 256
  fixedSize : Nat
  seqSize : Nat
  pointer : CueIx
  ended : Bool
  unverified : Bool
  deriving DecidableEq, Repr

/-- The lamp resolver (R100): cue claims, TEST claims and lamp test timers. -/
structure LampState where
  claims : List Claim
  test : Vector (Vector Bool 4) 24
  timer : Vector (Option Nat) 24
  deriving DecidableEq, Repr

/-- A RUNNING supervision window: its elapsed time, and whether it has expired and the expiry is not yet taken (R113). -/
structure SupWindow where
  elapsed : Nat
  due : Bool
  deriving DecidableEq, Repr

/-- The authority unit (R113). No window is the standing STOPPED. -/
structure Authority where
  holder : Option Port
  holding : Option Holding
  window : Option SupWindow
  deskCond : Bool
  deriving DecidableEq, Repr

/-- One station's homing (R142). `restoreDue` marks the completion that applies an accepted restore (R152). -/
structure Homing where
  state : HomingState
  active : Option Port
  primFailed : Bool
  spareFailed : Bool
  switchRem : Option Nat
  restorePending : Bool
  restoreDue : Bool
  deriving DecidableEq, Repr

/-- The class modes (R156). -/
structure Modes where
  link : Mode
  overload : Mode
  desk : Mode
  cue : Mode
  clip : Mode
  deriving DecidableEq, Repr

/-- One port's part of the fault supervisor (R155). -/
structure PortFaults where
  linkCond : Bool
  linkWarn : Bool
  deskLatched : Bool
  deskWarn : Bool
  deriving DecidableEq, Repr

/-- One station's part of the fault supervisor (R155). `mark` is the full-scale mark handed at the last completion and
not yet counted (R137, R159). -/
structure StationFaults where
  mark : Option Bool
  setRun : Nat
  clearRun : Nat
  overCond : Bool
  mute : Mute
  overWarn : Bool
  clipWarn : Bool
  deriving DecidableEq, Repr

/-- The fault supervisor (R155). -/
structure Faults where
  modes : Modes
  ports : Vector PortFaults 24
  stations : Vector StationFaults 24
  cueWarn : Bool
  resetFlag : Bool
  deriving DecidableEq, Repr

/-- The management processor (R170, R173, R178, R180). -/
structure Management where
  queue : List QueuedRequest
  hold : Bool
  service : Service
  window : Option Window
  settings : Settings
  meter : Option Meter
  deriving DecidableEq, Repr

/-- The state of the part, by blocks (00_scope, Block diagram), with the commands waiting. -/
structure State where
  pending : List Instr
  resetLine : Bool
  opened : Bool
  freeCount : Nat
  live : Bank
  edit : Bank
  unverified : Bool
  takePending : Option TakeOrigin
  takeDue : Bool
  takeWaiting : List TakeWait
  arb : Arbiter
  mix : MixState
  table : CueTable
  cues : List CueEntry
  lamps : LampState
  auth : Authority
  ports : Vector PortUnit 24
  out : Vector Outbound 24
  homing : Vector Homing 24
  faults : Faults
  mgmt : Management
  sent : Vector (List Byte) 24
  deriving DecidableEq, Repr

/-! Power-on values. -/

/-- R23, power-on. -/
def StationRecord.powerOn : StationRecord where
  enabled := false
  kind := .desk
  primary := 0
  spare := none
  cls := 0
  talkGain := 0
  progLevel := 0
  duckDepth := 0
  master := 0
  lampCount := 0
  mgmt := false
  annAllowed := false
  recvAnn := false
  threshold := 64

/-- R26, power-on. -/
def NetRecord.powerOn : NetRecord where
  enabled := false
  slots := 4
  callHold := 2000
  progDuck := true

/-- R27, power-on. -/
def Cell.powerOn : Cell where
  level := 0
  key := none

/-- R22, power-on. -/
def Bank.powerOn : Bank where
  stations := Vector.replicate 24 StationRecord.powerOn
  nets := Vector.replicate 16 NetRecord.powerOn
  cells := Vector.replicate 24 (Vector.replicate 16 Cell.powerOn)

/-- R58, power-on. -/
def CueRecord.powerOn : CueRecord where
  enabled := false
  showWhole := 0
  showPoint := 0
  department := 0
  targets := [(0, 0)]
  ackPolicy := .all
  goPolicy := .strict
  ackDeadline := 0
  goHold := 1000
  follow := none
  takeOnGo := false
  callNet := none

/-- R125: every key and button released, call key none. -/
def Levels.released : Levels where
  talk := Vector.replicate 4 false
  call := none
  announce := false
  acks := Vector.replicate 4 false

/-- R125, power-on and reset line. -/
def PortUnit.init : PortUnit where
  up := false
  acquire := 0
  loss := 0
  bucket := 0
  lastSeq := none
  cond := true
  held := Levels.released
  latest := silence
  fresh := false
  conceal := .silent
  slot := silence
  awaiting := false
  downSeq := 0
  validSeen := false

/-- R172: every reset. -/
def Outbound.init : Outbound where
  queue := []
  lost := false

/-- R1: every reset. -/
def Arbiter.init : Arbiter where
  holders := Vector.replicate 16 []
  waits := Vector.replicate 16 []
  calls := Vector.replicate 16 .idle
  announce := none
  talk := Vector.replicate 24 (Vector.replicate 4 .off)
  ann := Vector.replicate 24 .none

/-- R48, R51: every reset. -/
def MixState.init : MixState where
  duck := Vector.replicate 24 256
  clip := Vector.replicate 24 false

/-- R57, power-on. -/
def CueTable.powerOn : CueTable where
  records := Vector.replicate 256 CueRecord.powerOn
  fixedSize := 0
  seqSize := 256
  pointer := 0
  ended := false
  unverified := false

/-- R100: every reset. -/
def LampState.init : LampState where
  claims := []
  test := Vector.replicate 24 (Vector.replicate 4 false)
  timer := Vector.replicate 24 none

/-- R113: every reset. -/
def Authority.init : Authority where
  holder := none
  holding := none
  window := none
  deskCond := false

/-- R142, power-on. -/
def Homing.init : Homing where
  state := .onPrimary
  active := none
  primFailed := false
  spareFailed := false
  switchRem := none
  restorePending := false
  restoreDue := false

/-- R156: the default modes. -/
def Modes.default : Modes where
  link := .auto
  overload := .rekey
  desk := .warn
  cue := .warn
  clip := .warn

/-- R155: every reset. -/
def PortFaults.init : PortFaults where
  linkCond := true
  linkWarn := false
  deskLatched := false
  deskWarn := false

/-- R155: every reset. -/
def StationFaults.init : StationFaults where
  mark := none
  setRun := 0
  clearRun := 0
  overCond := false
  mute := .none
  overWarn := false
  clipWarn := false

/-- R155, power-on and reset line. -/
def Faults.init : Faults where
  modes := Modes.default
  ports := Vector.replicate 24 PortFaults.init
  stations := Vector.replicate 24 StationFaults.init
  cueWarn := false
  resetFlag := true

/-- R178, power-on and reset line. -/
def Settings.init : Settings where
  progSource := none
  high := 12
  low := 4
  duckStep := 32
  supEnable := false
  supMin := 200
  supMax := 2000

/-- R170, R173, R180: after power-on and the reset line. -/
def Management.init : Management where
  queue := []
  hold := false
  service := .idle
  window := none
  settings := Settings.init
  meter := none

/-- The machine right after power-on, with no command waiting (notes/assumptions/7.md). -/
def State.reset : State where
  pending := []
  resetLine := false
  opened := false
  freeCount := 0
  live := Bank.powerOn
  edit := Bank.powerOn
  unverified := false
  takePending := none
  takeDue := false
  takeWaiting := []
  arb := Arbiter.init
  mix := MixState.init
  table := CueTable.powerOn
  cues := []
  lamps := LampState.init
  auth := Authority.init
  ports := Vector.replicate 24 PortUnit.init
  out := Vector.replicate 24 Outbound.init
  homing := Vector.replicate 24 Homing.init
  faults := Faults.init
  mgmt := Management.init
  sent := Vector.replicate 24 []

end Sys2Proof.Machine
end

