-- ==== Sys2Proof/Machine/Ops.lean ====
section
/-! DEFINITION. The named operations every block uses: access to the vectors of State, what the LIVE bank and the homing
say of a port or a station, the free order, reports and responses in the outbound queues, and the end of a service. -/

namespace Sys2Proof.Machine

/-! Vectors. -/

/-- Every station, net, port, key and lamp, ascending. -/
def allStations : List Station := List.finRange 24

/-- Every port, ascending. -/
def allPorts : List Port := List.finRange 24

/-- Every net, ascending. -/
def allNets : List Net := List.finRange 16

/-- Every talk key, ascending. -/
def allKeys : List Key := List.finRange 4

/-- Every lamp, ascending. -/
def allLamps : List Lamp := List.finRange 4

/-- A vector with one component changed. -/
def upd {α : Type} {n : Nat} (v : Vector α n) (i : Fin n) (f : α → α) : Vector α n := v.set i (f v[i])

/-! Updates of one part of the state. -/

/-- Changes one port unit. -/
def State.modPort (s : State) (p : Port) (f : PortUnit → PortUnit) : State := { s with ports := upd s.ports p f }

/-- Changes one outbound queue. -/
def State.modOut (s : State) (p : Port) (f : Outbound → Outbound) : State := { s with out := upd s.out p f }

/-- Changes one station's homing. -/
def State.modHoming (s : State) (st : Station) (f : Homing → Homing) : State :=
  { s with homing := upd s.homing st f }

/-- Changes one port's fault flags. -/
def State.modPortFaults (s : State) (p : Port) (f : PortFaults → PortFaults) : State :=
  { s with faults := { s.faults with ports := upd s.faults.ports p f } }

/-- Changes one station's fault state. -/
def State.modStFaults (s : State) (st : Station) (f : StationFaults → StationFaults) : State :=
  { s with faults := { s.faults with stations := upd s.faults.stations st f } }

/-- Changes the talk arbiter. -/
def State.modArb (s : State) (f : Arbiter → Arbiter) : State := { s with arb := f s.arb }

/-- Changes the authority unit. -/
def State.modAuth (s : State) (f : Authority → Authority) : State := { s with auth := f s.auth }

/-- Changes the management processor. -/
def State.modMgmt (s : State) (f : Management → Management) : State := { s with mgmt := f s.mgmt }

/-- Changes the cue table. -/
def State.modTable (s : State) (f : CueTable → CueTable) : State := { s with table := f s.table }

/-- Changes the lamp resolver. -/
def State.modLamps (s : State) (f : LampState → LampState) : State := { s with lamps := f s.lamps }

/-! What the LIVE bank and the homing say. -/

/-- A station's LIVE record. -/
def State.station (s : State) (st : Station) : StationRecord := s.live.stations[st]

/-- A net's LIVE record. -/
def State.net (s : State) (n : Net) : NetRecord := s.live.nets[n]

/-- A bank's cell at row `st`, column `n`. -/
def Bank.cell (b : Bank) (st : Station) (n : Net) : Cell := b.cells[st][n]

/-- R24: whether a kind's talk, call and announce keys are taken (and a listen block sent). -/
def Kind.talks : Kind → Bool
  | .desk => true
  | .panel => true
  | .beltpack => true
  | .cueStation => false
  | .source => false

/-- R24, R74: a station's lamps; a SOURCE counts as having none. -/
def StationRecord.lamps (r : StationRecord) : Nat := if r.kind = .source then 0 else r.lampCount

/-- R106: whether a record is enabled and names the port as primary or spare. -/
def StationRecord.names (r : StationRecord) (p : Port) : Bool := r.enabled && (r.primary = p || r.spare = some p)

/-- R106: the station a port serves in a bank. -/
def Bank.serves (b : Bank) (p : Port) : Option Station := allStations.find? fun st => b.stations[st].names p

/-- The station whose active port is `p`, among enabled LIVE stations. -/
def State.activeOf (s : State) (p : Port) : Option Station :=
  allStations.find? fun st => (s.station st).enabled && s.homing[st].active = some p

/-- Whether a station is ISOLATED. -/
def State.isolated (s : State) (st : Station) : Bool := s.homing[st].state = .isolated

/-- Whether a port's link is UP. A port at its 20th silent completion is no longer UP, its LINK_DOWN not yet taken
(R116, R131; notes/assumptions/20.md). -/
def State.linkUp (s : State) (p : Port) : Bool := s.ports[p].up && s.ports[p].loss < Config.lossLimit

/-- R143: whether the homing controller holds the port marked failed for station `st`. -/
def State.markedFor (s : State) (p : Port) (st : Station) : Bool :=
  ((s.station st).primary = p && s.homing[st].primFailed)
    || ((s.station st).spare = some p && s.homing[st].spareFailed)

/-- R129, R143: whether the homing controller holds a port marked failed. -/
def State.marked (s : State) (p : Port) : Bool :=
  match s.live.serves p with
  | some st => s.markedFor p st
  | none => false

/-- R125: a port's link condition; a port that serves no station has none (R133). -/
def State.linkCond (s : State) (p : Port) : Bool := (s.live.serves p).isSome && s.ports[p].cond

/-- R143: whether a port is clean for station `st`. -/
def State.clean (s : State) (st : Station) (p : Port) : Bool :=
  s.linkUp p && s.ports[p].bucket < (s.station st).threshold && !s.linkCond p && !s.markedFor p st

/-- R169: whether an enabled LIVE station has management permitted. -/
def Bank.anyMgmt (b : Bank) : Bool := allStations.any fun st => b.stations[st].enabled && b.stations[st].mgmt

/-- R169: whether a port is a management port. -/
def State.isMgmt (s : State) (p : Port) : Bool :=
  (allStations.any fun st => (s.station st).enabled && (s.station st).mgmt && s.homing[st].active = some p)
    || (p.val = 0 && !s.live.anyMgmt)

/-! The free order (notes/assumptions/2.md, notes/assumptions/6.md). -/

/-- A choice among `n` things: no choice where there is one, else free. -/
def chooseIx (c n : Nat) : Nat := if n ≤ 1 then 0 else Config.pick c % n

/-- Counts one free choice, where one was made. -/
def State.spend (s : State) (n : Nat) : State := if n ≤ 1 then s else { s with freeCount := s.freeCount + 1 }

/-- Takes every item of a list, each once, in a free order. The fuel is the list's length. -/
def inAnyOrder {α : Type} (f : α → State → State) : Nat → List α → State → State
  | fuel + 1, a :: rest, s =>
    let i := chooseIx s.freeCount (rest.length + 1)
    inAnyOrder f fuel ((a :: rest).eraseIdx i) (f ((a :: rest).getD i a) (s.spend (rest.length + 1)))
  | _, _, s => s

/-! Outbound queues (R171, R172). -/

/-- The queue without its oldest report. -/
def dropOldestReport : List Message → List Message
  | [] => []
  | m :: ms => if m.isReport then ms else m :: dropOldestReport ms

/-- R172: a report arriving at an outbound queue. -/
def Outbound.putReport (o : Outbound) (m : Message) : Outbound :=
  if o.queue.length < Config.outboundLimit then { o with queue := o.queue ++ [m] }
  else if o.queue.any Message.isReport then { queue := dropOldestReport o.queue ++ [m], lost := true }
  else { o with lost := true }

/-- R171: a response arriving at an outbound queue; `none` where it must wait. -/
def Outbound.putResponse (o : Outbound) (m : Message) : Option Outbound :=
  if o.queue.length < Config.outboundLimit then some { o with queue := o.queue ++ [m] }
  else if o.queue.any Message.isReport then some { queue := dropOldestReport o.queue ++ [m], lost := true }
  else none

/-- R171: an answer given at arrival: where a response would wait it is discarded, and REPORT_LOST set. -/
def Outbound.putAnswer (o : Outbound) (m : Message) : Outbound := (o.putResponse m).getD { o with lost := true }

/-- Places a report in one port's queue. -/
def placeReport (p : Port) (m : Message) (s : State) : State := s.modOut p (·.putReport m)

/-- R120, R154, R165: a report to every management port whose link is UP, in ascending port number. -/
def broadcast (m : Message) (s : State) : State :=
  { s with out := Vector.ofFn fun p => if s.isMgmt p && s.linkUp p then s.out[p].putReport m else s.out[p] }

/-- R76: a cue report, to the port that holds authority, if any. -/
def cueReport (m : Message) (s : State) : State :=
  match s.auth.holder with
  | some p => placeReport p m s
  | none => s

/-- Places a response, if its queue does not make it wait. -/
def placeResponse (p : Port) (m : Message) (s : State) : Option State :=
  (s.out[p].putResponse m).map fun o => { s with out := s.out.set p o }

/-! The request queue and the service of its head (R170, R171). -/

/-- R170: HOLD judged for a depth against watermarks; in between it keeps its value. -/
def judgeHold (high low depth : Nat) (hold : Bool) : Bool :=
  if high ≤ depth then true else if depth ≤ low then false else hold

/-- The request queue replaced, HOLD judged for its depth (R170). -/
def Management.setQueue (m : Management) (q : List QueuedRequest) : Management :=
  { m with queue := q, hold := judgeHold m.settings.high m.settings.low q.length m.hold }

/-- The service of the head ends: it leaves the queue (R170). -/
def finishService (s : State) : State :=
  s.modMgmt fun m => { m.setQueue m.queue.tail with service := .idle }

/-- R171: the response to the request in service; its service ends when it is placed, and waits while it has to. -/
def respond (q : QueuedRequest) (r : Result) (body : List Byte) (s : State) : State :=
  let m := responseTo q.req.kind q.tag r body
  match placeResponse q.port m s with
  | some s' => finishService s'
  | none => s.modMgmt fun g => { g with service := .waiting q.port m false }

/-- R171: the response of a Take, placed at the completion that applies or abandons it, or waiting for the next. -/
def takeRespond (p : Port) (tag : Byte) (r : Result) (s : State) : State :=
  let m := responseTo 0x05 tag r []
  match placeResponse p m s with
  | some s' => s'
  | none => { s with takeWaiting := s.takeWaiting ++ [⟨p, m, false⟩] }

end Sys2Proof.Machine
end

