-- ==== Sys2Proof/Machine/Authority.lean ====
section
/-! DEFINITION. The authority unit (chapter 7, R113 to R124). -/

namespace Sys2Proof.Machine

/-! Reports (R120, R165, R187). -/

/-- The holding station as a byte: FFh for COMMISSIONING. -/
def Holding.byte : Holding → Byte
  | .station st => byteOf st.val
  | .commissioning => 0xFF

/-- AUTHORITY_GRANTED. -/
def grantedReport (p : Port) (h : Holding) (forced : Bool) : Message :=
  reportOf 0xD0 [byteOf p.val, h.byte, byteOf (bit 0 forced)]

/-- AUTHORITY_RELEASED. -/
def releasedReport (p : Port) : Message := reportOf 0xD1 [byteOf p.val]

/-- AUTHORITY_LOST. -/
def lostReport (p : Port) (r : LossReason) : Message := reportOf 0xD2 [byteOf p.val, byteOf r.code]

/-- AUTHORITY_MOVED. -/
def movedReport (old new : Port) (st : Station) : Message :=
  reportOf 0xD3 [byteOf old.val, byteOf new.val, byteOf st.val]

/-- DESK_FAULT. -/
def deskFaultReport (p : Port) (k : DeskKind) (m : Mode) : Message :=
  reportOf 0xE3 [byteOf p.val, byteOf k.code, byteOf m.code]

/-! Supervision (R121). -/

/-- Whether supervision would run for a holder (R121). -/
def State.supervises (s : State) : Bool :=
  s.mgmt.settings.supEnable && (s.faults.modes.desk = .latched || s.faults.modes.desk = .warn)

/-- A window started RUNNING with elapsed time 0. -/
def SupWindow.start : SupWindow where
  elapsed := 0
  due := false

/-- R121: a settings write may start supervision, or stop it; it leaves a running window as it is. -/
def judgeSupervision (s : State) : State :=
  if s.auth.holder.isSome && s.supervises then
    s.modAuth fun a => { a with window := some (a.window.getD SupWindow.start) }
  else s.modAuth fun a => { a with window := none, deskCond := false }

/-- R121: a Set Mode on the DESK class starts, restarts or stops the window, and makes the DESK condition absent. -/
def restartSupervision (s : State) : State :=
  s.modAuth fun a =>
    { a with window := if a.holder.isSome && s.supervises then some SupWindow.start else none, deskCond := false }

/-! Grants and losses. -/

/-- R115: the holding station of a grant to port `p`. -/
def State.holdingFor (s : State) (p : Port) : Holding :=
  match s.activeOf p with
  | some st => if (s.station st).mgmt then .station st else .commissioning
  | none => .commissioning

/-- R115, R116: authority granted to port `p`. -/
def grant (p : Port) (forced : Bool) (s : State) : State :=
  broadcast (grantedReport p (s.holdingFor p) forced)
    { s with auth := { holder := some p, holding := some (s.holdingFor p),
                       window := if s.supervises then some SupWindow.start else none, deskCond := false } }

/-- R117, R118, R124: the holder loses authority. -/
def loseAuthority (r : LossReason) (s : State) : State :=
  match s.auth.holder with
  | some p => broadcast (lostReport p r) { s with auth := Authority.init }
  | none => s

/-- R117: the holder releases authority. -/
def releaseAuthority (s : State) : State :=
  match s.auth.holder with
  | some p => broadcast (releasedReport p) { s with auth := Authority.init }
  | none => s

/-- R116: a forced claim that is granted. -/
def forceAuthority (p : Port) (s : State) : State := grant p true (loseAuthority .forced s)

/-- Whether `st` is the holding station. -/
def State.holds (s : State) (st : Station) : Bool := s.auth.holding = some (.station st)

/-- R119: the active port of station `st` has changed to `p`. -/
def authMoved (st : Station) (p : Port) (s : State) : State :=
  if s.holds st then
    match s.auth.holder with
    | some q => broadcast (movedReport q p st) (s.modAuth fun a => { a with holder := some p })
    | none => s
  else s

/-- R117: station `st` has entered ISOLATED. -/
def authIsolated (st : Station) (s : State) : State := if s.holds st then loseAuthority .isolated s else s

/-- R117: port `p` has gone DOWN. -/
def authPortDown (p : Port) (s : State) : State :=
  if s.auth.holder = some p then loseAuthority .portDown s else s

/-! Desk faults (R122 to R124, R163). -/

/-- R124, R163: an early or late desk fault of the holder. -/
def deskFault (k : DeskKind) (s : State) : State :=
  match s.auth.holder with
  | none => s
  | some p =>
    let s1 := s.modAuth fun a => { a with deskCond := true }
    match s.faults.modes.desk with
    | .warn =>
      (broadcast (deskFaultReport p k .warn) (s1.modPortFaults p fun f => { f with deskWarn := true })).modAuth
        fun a => { a with window := some SupWindow.start }
    | .latched =>
      loseAuthority .deskFault
        (broadcast (deskFaultReport p k .latched) (s1.modPortFaults p fun f => { f with deskLatched := true }))
    | .auto => s1
    | .rekey => s1
    | .off => s1

/-- R123: the supervision window expires. -/
def expireSupervision (s : State) : State :=
  deskFault .late (s.modAuth fun a => { a with window := a.window.map fun w => { w with due := false } })

/-- The DESK condition of a port: it belongs to the holder port alone (R163). -/
def State.deskCondOf (s : State) (p : Port) : Bool := s.auth.deskCond && s.auth.holder = some p

/-! Take (R118). -/

/-- R118: whether a Take changes a record's ports. -/
def portsDiffer (o n : StationRecord) : Bool := o.primary ≠ n.primary || o.spare ≠ n.spare

/-- R118: whether the commissioning holder becomes station `st`'s: `active` is its active port when the Take was
applied. -/
def takesOver (o n : StationRecord) (active : Option Port) : Bool :=
  n.enabled && n.mgmt && n.primary = 0 && (!o.enabled || portsDiffer o n || active = some 0)

/-- R118: the holding after a Take; `none` where authority is lost. -/
def holdingAfterTake (old new : Bank) (homing : Vector Homing 24) : Holding → Option Holding
  | .station st =>
    let o := old.stations[st]
    let n := new.stations[st]
    if !n.enabled || !n.mgmt || portsDiffer o n then none else some (.station st)
  | .commissioning =>
    if new.anyMgmt then
      (allStations.find? fun st => takesOver old.stations[st] new.stations[st] homing[st].active).map .station
    else some .commissioning

/-- R118: the authority unit's part of a Take. -/
def authTake (old new : Bank) (homing : Vector Homing 24) (s : State) : State :=
  match s.auth.holding with
  | none => s
  | some h =>
    match holdingAfterTake old new homing h with
    | some h' => s.modAuth fun a => { a with holding := some h' }
    | none => loseAuthority .take s

end Sys2Proof.Machine
end

