-- ==== Sys2Proof/Machine/CueTable.lean ====
section
/-! DEFINITION. The cue table: the sequence pointer and the regions (chapter 4, R57 to R71). -/

namespace Sys2Proof.Machine

/-- The record of a cue. -/
def State.cueRec (s : State) (c : CueIx) : CueRecord := s.table.records[c]

/-- R63: whether an index lies in the sequence region. -/
def CueTable.inSequence (t : CueTable) (c : CueIx) : Bool := t.fixedSize ≤ c.val && c.val < t.fixedSize + t.seqSize

/-- The lowest enabled index of the sequence region that is `lo` or above (R64, R68). -/
def CueTable.nextEnabled (t : CueTable) (lo : Nat) : Option CueIx :=
  (List.finRange 256).find? fun c => lo ≤ c.val && t.inSequence c && t.records[c].enabled

/-- R68: the pointer's advance when cue `c` goes. -/
def CueTable.advance (t : CueTable) (c : CueIx) : CueTable :=
  if !t.ended && t.pointer = c then
    match t.nextEnabled (c.val + 1) with
    | some p => { t with pointer := p }
    | none => { t with ended := true }
  else t

/-- R64: whether a split is legal. -/
def legalSplit (fixed seq : Nat) : Bool := 1 ≤ seq && fixed + seq ≤ 256

/-- R64 step 4: a new split, the pointer at the first enabled index of the new sequence region, or at F with END. -/
def CueTable.setRegion (t : CueTable) (fixed seq : Nat) : CueTable :=
  let t1 := { t with fixedSize := fixed, seqSize := seq }
  match t1.nextEnabled fixed with
  | some p => { t1 with pointer := p, ended := false }
  | none => { t1 with pointer := Fin.ofNat 256 fixed, ended := true }

/-- R66: the cue a Standby or GO request names; `none` for NEXT while END is set. -/
def CueTable.resolve (t : CueTable) : CueRef → Option CueIx
  | .index c => some c
  | .next => if t.ended then none else some t.pointer

/-- R69 steps 2 to 5: the table after a Set Pointer; `none` where it is refused with BAD_VALUE. -/
def CueTable.setPointer (t : CueTable) (ref : PointerRef) : Option CueTable :=
  let place (c : CueIx) : Option CueTable :=
    if t.inSequence c && t.records[c].enabled then some { t with pointer := c, ended := false } else none
  match ref with
  | .toEnd => some { t with ended := true }
  | .next => if t.ended then none else place t.pointer
  | .index c => place c

/-- The pointer and END, as the responses to Set Region and Set Pointer carry them (R183). -/
def CueTable.pointerBytes (t : CueTable) : List Byte := [byteOf t.pointer.val, byteOf (bit 0 t.ended)]

end Sys2Proof.Machine
end

