-- ==== Sys2Proof/Machine/Lamps.lean ====
section
/-! DEFINITION. The lamp resolver (chapter 6, R100 to R105). -/

namespace Sys2Proof.Machine

/-- Whether a claim is the one of a source: a cue index and a target position (R100). -/
def Claim.isOf (x : Claim) (c : CueIx) (pos : Nat) : Bool := x.cue = c && x.pos = pos

/-- R101, Place and Change: the source's claim takes a rank; it is added if there is none. -/
def LampState.place (l : LampState) (c : CueIx) (pos : Nat) (st : Station) (lamp : Lamp) (r : Rank) : LampState :=
  if l.claims.any (·.isOf c pos) then
    { l with claims := l.claims.map fun x => if x.isOf c pos then { x with rank := r } else x }
  else { l with claims := l.claims ++ [⟨c, pos, st, lamp, r⟩] }

/-- R101, Withdraw: the source's claim is removed. -/
def LampState.withdraw (l : LampState) (c : CueIx) (pos : Nat) : LampState :=
  { l with claims := l.claims.filter fun x => !x.isOf c pos }

/-- R75: every claim of an entry is withdrawn. -/
def LampState.withdrawCue (l : LampState) (c : CueIx) : LampState :=
  { l with claims := l.claims.filter fun x => x.cue ≠ c }

/-- Whether a lamp has a claim of a rank. -/
def LampState.has (l : LampState) (st : Station) (lamp : Lamp) (r : Rank) : Bool :=
  l.claims.any fun x => x.st = st && x.lamp = lamp && x.rank = r

/-- R102: a lamp shows its highest-ranked claim. -/
def LampState.shown (l : LampState) (st : Station) (lamp : Lamp) : LampShow :=
  if l.test[st][lamp] then .test
  else if l.has st lamp .go then .go
  else if l.has st lamp .late then .late
  else if l.has st lamp .standby then .standby
  else if l.has st lamp .ready then .ready
  else .off

/-- R103 step 3: TEST on every lamp below the count, and the timer at 3,000 ms. -/
def LampState.startTest (l : LampState) (st : Station) (count : Nat) : LampState :=
  { l with test := upd l.test st fun row => Vector.ofFn fun j => row[j] || decide (j.val < count),
           timer := l.timer.set st (some Config.lampTestMs) }

/-- R104: the test's end, its TEST claims removed and the timer stopped. -/
def LampState.endTest (l : LampState) (st : Station) : LampState :=
  { l with test := l.test.set st (Vector.replicate 4 false), timer := l.timer.set st none }

/-- R105: one station's TEST claims and timer, for its new lamp count (0 for a disabled station or a SOURCE). -/
def LampState.trimTest (l : LampState) (st : Station) (count : Nat) : LampState :=
  if count = 0 then l.endTest st
  else { l with test := upd l.test st fun row => Vector.ofFn fun j => row[j] && decide (j.val < count) }

/-- R105: the lamp resolver's part of a Take, for one station. A Take that does not reduce the station's lamps (or
disable it, or make it a SOURCE) leaves its test as it was. -/
def LampState.takeStation (old new : Bank) (l : LampState) (st : Station) : LampState :=
  let o := old.stations[st]
  let n := new.stations[st]
  if !n.enabled || n.kind = .source then l.endTest st
  else if n.lamps < o.lamps then l.trimTest st n.lamps
  else l

/-- R105: the lamp resolver's part of a Take. -/
def LampState.applyTake (old new : Bank) (l : LampState) : LampState :=
  allStations.foldl (LampState.takeStation old new) l

end Sys2Proof.Machine
end

