-- ==== Sys2Proof/Machine/Talk.lean ====
section
/-! DEFINITION. The talk arbiter (chapter 1, R1 to R21). Everything but the end of a REKEY mute is a function of the
LIVE bank and the arbiter's own state. -/

namespace Sys2Proof.Machine

/-! Standings. -/

/-- Sets one talk standing (R4). -/
def Arbiter.setTalk (a : Arbiter) (st : Station) (k : Key) (v : Standing) : Arbiter :=
  { a with talk := upd a.talk st fun row => row.set k v }

/-- Sets one announce standing. -/
def Arbiter.setAnn (a : Arbiter) (st : Station) (v : AnnStanding) : Arbiter := { a with ann := a.ann.set st v }

/-- Sets the standing of the key each entry of a list stands with. -/
def Arbiter.setTalkAll (a : Arbiter) (hs : List Hold) (v : Standing) : Arbiter :=
  hs.foldl (fun a h => a.setTalk h.st h.key v) a

/-- Whether every talk standing of a station is OFF (R161). -/
def Arbiter.allOff (a : Arbiter) (st : Station) : Bool := allKeys.all fun k => a.talk[st][k] = .off

/-! Lists. -/

/-- Replaces a net's holder list. -/
def Arbiter.setHolders (a : Arbiter) (n : Net) (l : List Hold) : Arbiter := { a with holders := a.holders.set n l }

/-- Replaces a net's wait queue. -/
def Arbiter.setWaits (a : Arbiter) (n : Net) (l : List Hold) : Arbiter := { a with waits := a.waits.set n l }

/-- Replaces a net's call state. -/
def Arbiter.setCall (a : Arbiter) (n : Net) (c : CallState) : Arbiter := { a with calls := a.calls.set n c }

/-- The class of an entry's station in a bank (R3). -/
def Bank.clsOf (b : Bank) (h : Hold) : Nat := b.stations[h.st].cls

/-- R3: at the back of its class group. -/
def insertBack (b : Bank) (h : Hold) (q : List Hold) : List Hold :=
  q.takeWhile (fun x => b.clsOf h ≤ b.clsOf x) ++ h :: q.dropWhile (fun x => b.clsOf h ≤ b.clsOf x)

/-- R3: at the front of its class group. -/
def insertFront (b : Bank) (h : Hold) (q : List Hold) : List Hold :=
  q.takeWhile (fun x => b.clsOf h < b.clsOf x) ++ h :: q.dropWhile (fun x => b.clsOf h < b.clsOf x)

/-- R7: the holder of the lowest class that was most recently granted (the lists stand earliest granted first). -/
def victimOf (b : Bank) : List Hold → Option Hold
  | [] => none
  | h :: rest =>
    match victimOf b rest with
    | none => some h
    | some v => if b.clsOf h < b.clsOf v then some h else some v

/-- R9: a net refilled from the head of its wait queue. The fuel is the queue's length. -/
def Arbiter.refillFuel (b : Bank) (n : Net) : Nat → Arbiter → Arbiter
  | fuel + 1, a =>
    match a.waits[n] with
    | w :: rest =>
      if a.holders[n].length < b.nets[n].slots then
        Arbiter.refillFuel b n fuel
          (((a.setWaits n rest).setHolders n (a.holders[n] ++ [w])).setTalk w.st w.key .live)
      else a
    | [] => a
  | 0, a => a

/-- R9: a net refilled. -/
def Arbiter.refill (b : Bank) (n : Net) (a : Arbiter) : Arbiter := Arbiter.refillFuel b n a.waits[n].length a

/-! Talk keys (R5 to R10). -/

/-- The net of the one cell of a row that carries a key (R5). -/
def Bank.netOfKey (b : Bank) (st : Station) (k : Key) : Option Net :=
  allNets.find? fun n => (b.cell st n).key = some k

/-- R5, R13: the net a key of a talking station is mapped to, enabled in LIVE; `none` where the press is ignored. -/
def State.pressNet (s : State) (st : Station) (k : Key) : Option Net :=
  if (s.station st).enabled && (s.station st).kind.talks && !s.isolated st then
    match s.live.netOfKey st k with
    | some n => if (s.net n).enabled then some n else none
    | none => none
  else none

/-- The last waiter of a full queue leaves it with standing REFUSED (R7 step 2, R8). -/
def Arbiter.dropLastWaiter (n : Net) (a : Arbiter) : Arbiter :=
  match a.waits[n].getLast? with
  | some w => (a.setWaits n a.waits[n].dropLast).setTalk w.st w.key .refused
  | none => a

/-- R7: a higher-class press takes the victim's slot. -/
def Arbiter.preempt (b : Bank) (n : Net) (v h : Hold) (a : Arbiter) : Arbiter :=
  let a1 := a.setHolders n (a.holders[n].erase v)
  let a2 := if Config.waitLimit ≤ a1.waits[n].length then a1.dropLastWaiter n else a1
  let a3 := (a2.setWaits n (insertFront b v a2.waits[n])).setTalk v.st v.key .wait
  (a3.setHolders n (a3.holders[n] ++ [h])).setTalk h.st h.key .live

/-- R8: a press that takes no slot. -/
def Arbiter.joinQueue (b : Bank) (n : Net) (h : Hold) (a : Arbiter) : Arbiter :=
  if a.waits[n].length < Config.waitLimit then
    (a.setWaits n (insertBack b h a.waits[n])).setTalk h.st h.key .wait
  else
    match a.waits[n].getLast? with
    | some w =>
      if b.clsOf w < b.clsOf h then
        let a1 := a.dropLastWaiter n
        (a1.setWaits n (insertBack b h a1.waits[n])).setTalk h.st h.key .wait
      else a.setTalk h.st h.key .refused
    | none => a.setTalk h.st h.key .refused

/-- R6, R7, R8: a press placed on its net, by the first rule whose condition holds. -/
def Arbiter.placePress (b : Bank) (n : Net) (h : Hold) (a : Arbiter) : Arbiter :=
  if a.holders[n].length < b.nets[n].slots then
    (a.setHolders n (a.holders[n] ++ [h])).setTalk h.st h.key .live
  else
    match victimOf b a.holders[n] with
    | some v => if b.clsOf v < b.clsOf h then a.preempt b n v h else a.joinQueue b n h
    | none => a.joinQueue b n h

/-- MUTE_ENDED (R165, R187). -/
def muteEndedReport (st : Station) (cause : MuteEnd) : Message := reportOf 0xE2 [byteOf st.val, byteOf cause.code]

/-- The mute of a station. -/
def State.mute (s : State) (st : Station) : Mute := s.faults.stations[st].mute

/-- R161: whether a press that passed its first checks ends a REKEY mute. -/
def State.rekeys (s : State) (st : Station) : Bool :=
  s.mute st = .rekey && s.arb.allOff st && s.arb.ann[st] = .none

/-- R161: the mute becomes NONE, and a MUTE_ENDED report names the station. -/
def endMute (st : Station) (cause : MuteEnd) (s : State) : State :=
  broadcast (muteEndedReport st cause) (s.modStFaults st fun f => { f with mute := .none })

/-- R4: whether a key stands in a list: it holds a slot or waits. -/
def Arbiter.stands (a : Arbiter) (st : Station) (k : Key) : Bool := a.talk[st][k] = .live || a.talk[st][k] = .wait

/-- R5: a press of talk key `k` by station `st`. A key that holds a slot or waits is not placed a second time (R2;
notes/assumptions/39.md). -/
def talkPress (st : Station) (k : Key) (s : State) : State :=
  match s.pressNet st k with
  | none => s
  | some n =>
    if s.arb.stands st k then s
    else if s.rekeys st then (endMute st .rekeyPress s).modArb (Arbiter.placePress s.live n ⟨st, k⟩)
    else if s.mute st = .none then s.modArb (Arbiter.placePress s.live n ⟨st, k⟩)
    else s.modArb (·.setTalk st k .muted)

/-- Removes an entry from every holder list. -/
def Arbiter.eraseHolder (h : Hold) (a : Arbiter) : Arbiter :=
  { a with holders := a.holders.map fun l => l.erase h }

/-- Removes an entry from every wait queue. -/
def Arbiter.eraseWaiter (h : Hold) (a : Arbiter) : Arbiter := { a with waits := a.waits.map fun l => l.erase h }

/-- The nets whose holder lists have an entry that satisfies `p`. -/
def Arbiter.netsHeld (a : Arbiter) (p : Hold → Bool) : List Net := allNets.filter fun n => a.holders[n].any p

/-- Refills the nets of a list (R9). -/
def Arbiter.refillAll (b : Bank) (ns : List Net) (a : Arbiter) : Arbiter := ns.foldl (fun a n => a.refill b n) a

/-- R10: a release of talk key `k` by station `st`, by the key's standing. -/
def Arbiter.talkRelease (b : Bank) (st : Station) (k : Key) (a : Arbiter) : Arbiter :=
  let a1 : Arbiter :=
    match a.talk[st][k] with
    | .live => (a.eraseHolder ⟨st, k⟩).refillAll b (a.netsHeld (· == ⟨st, k⟩))
    | .wait => a.eraseWaiter ⟨st, k⟩
    | .off => a
    | .refused => a
    | .muted => a
    | .dropped => a
  a1.setTalk st k .off

/-! Calls (R13 to R15). -/

/-- HOLDING with a caller for the net's LIVE call hold, or IDLE where that is 0 (R14, R15). -/
def holdOrIdle (b : Bank) (n : Net) (caller : Option Station) : CallState :=
  if b.nets[n].callHold = 0 then .idle else .holding caller b.nets[n].callHold

/-- R14: every net CALLING with caller `st` whose call key satisfies `p` ends its call. -/
def Arbiter.endCalls (b : Bank) (st : Station) (p : Key → Bool) (a : Arbiter) : Arbiter :=
  { a with calls := Vector.ofFn fun n =>
      match a.calls[n] with
      | .calling t k => if t = st && p k then holdOrIdle b n (some st) else a.calls[n]
      | c => c }

/-- R13: a call press of key `k` by station `st`. -/
def callPress (st : Station) (k : Key) (s : State) : State :=
  match s.pressNet st k with
  | none => s
  | some n => if s.mute st = .none then s.modArb (·.setCall n (.calling st k)) else s

/-- R14: a call release of key `k` by station `st`. -/
def Arbiter.callRelease (b : Bank) (st : Station) (k : Key) (a : Arbiter) : Arbiter := a.endCalls b st (· == k)

/-- R15: a cue call on net `n`. -/
def Arbiter.cueCall (b : Bank) (n : Net) (a : Arbiter) : Arbiter :=
  if b.nets[n].enabled then
    match a.calls[n] with
    | .calling _ _ => a
    | .idle => a.setCall n (holdOrIdle b n none)
    | .holding _ _ => a.setCall n (holdOrIdle b n none)
  else a

/-! The announce channel (R16, R17). -/

/-- R16: the channel taken or refused, for a press that passed its checks. A press by the station that holds the channel
compares its class with itself (notes/assumptions/39.md). -/
def Arbiter.announceTake (b : Bank) (st : Station) (a : Arbiter) : Arbiter :=
  match a.announce with
  | none => { a.setAnn st .inChannel with announce := some st }
  | some t =>
    if b.stations[t].cls < b.stations[st].cls then
      { (a.setAnn t .refused).setAnn st .inChannel with announce := some st }
    else a.setAnn st .refused

/-- R16: whether an announce press is looked at. -/
def State.announceChecked (s : State) (st : Station) : Bool :=
  (s.station st).enabled && (s.station st).kind.talks && !s.isolated st && (s.station st).annAllowed

/-- R16: a press of the announce key by station `st`. -/
def announcePress (st : Station) (s : State) : State :=
  if s.announceChecked st then
    if s.rekeys st then (endMute st .rekeyPress s).modArb (Arbiter.announceTake s.live st)
    else if s.mute st = .none then s.modArb (Arbiter.announceTake s.live st)
    else s.modArb (·.setAnn st .refused)
  else s

/-- The channel freed if `st` holds it. -/
def Arbiter.freeAnnounce (st : Station) (a : Arbiter) : Arbiter :=
  if a.announce = some st then { a with announce := none } else a

/-- R17: a release of the announce key by station `st`. -/
def Arbiter.announceRelease (st : Station) (a : Arbiter) : Arbiter := (a.freeAnnounce st).setAnn st .none

/-! Withdrawal (R11). -/

/-- R11: what standings other than OFF become. -/
def WithdrawCause.standing : WithdrawCause → Standing
  | .mute => .muted
  | .isolated => .dropped
  | .take => .dropped

/-- R11: what an announce standing other than NONE becomes. -/
def WithdrawCause.ann : WithdrawCause → AnnStanding
  | .mute => .refused
  | .isolated => .dropped
  | .take => .dropped

/-- R11: the lists lose every entry of a station. -/
def Arbiter.purge (st : Station) (a : Arbiter) : Arbiter :=
  { a with holders := a.holders.map (fun l => l.filter fun h => h.st ≠ st),
           waits := a.waits.map fun l => l.filter fun h => h.st ≠ st }

/-- R11: the standings of a withdrawn station. -/
def Arbiter.withdrawStandings (st : Station) (cause : WithdrawCause) (a : Arbiter) : Arbiter :=
  { a with talk := upd a.talk st (fun row => row.map fun v => if v = .off then .off else cause.standing),
           ann := upd a.ann st fun v => if v = .none then .none else cause.ann }

/-- R11: station `st` is withdrawn from talk. -/
def Arbiter.withdraw (b : Bank) (st : Station) (cause : WithdrawCause) (a : Arbiter) : Arbiter :=
  let a1 := (a.purge st).refillAll b (a.netsHeld fun h => h.st == st)
  let a2 := (a1.freeAnnounce st).withdrawStandings st cause
  match cause with
  | .mute => a2
  | .isolated => a2.endCalls b st fun _ => true
  | .take => a2.endCalls b st fun _ => true

/-! Applying a Take (R18 to R21). -/

/-- R19: whether a station's new record withdraws it. -/
def takeWithdraws (o n : StationRecord) : Bool :=
  (o.enabled && !n.enabled) || (o.kind.talks && !n.kind.talks) || o.primary ≠ n.primary || o.spare ≠ n.spare

/-- R18 stage 1, R19: one station. A record that had announce allowed clear before does not clear it now. -/
def Arbiter.takeStation (old new : Bank) (a : Arbiter) (st : Station) : Arbiter :=
  if takeWithdraws old.stations[st] new.stations[st] then a.withdraw new st .take
  else if old.stations[st].annAllowed && !new.stations[st].annAllowed then
    let a1 := a.freeAnnounce st
    if a.announce = some st || a.ann[st] = .refused then a1.setAnn st .dropped else a1
  else a

/-- R18 stage 2, R20: one net, cleared if it is disabled in the new bank. -/
def Arbiter.takeNet (new : Bank) (a : Arbiter) (n : Net) : Arbiter :=
  if new.nets[n].enabled then a
  else
    let a1 := (a.setTalkAll a.holders[n] .dropped).setTalkAll a.waits[n] .dropped
    ((a1.setHolders n []).setWaits n []).setCall n .idle

/-- Whether an entry's cell still carries its key (R20). -/
def Bank.mapped (b : Bank) (n : Net) (h : Hold) : Bool := (b.cell h.st n).key = some h.key

/-- R18 stage 3, R20: one net's entries and call whose cells no longer carry their keys. -/
def Arbiter.takeMapping (new : Bank) (a : Arbiter) (n : Net) : Arbiter :=
  let gone := (a.holders[n] ++ a.waits[n]).filter fun h => !new.mapped n h
  let a1 := (a.setTalkAll gone .dropped).setHolders n (a.holders[n].filter (new.mapped n))
  let a2 := a1.setWaits n (a.waits[n].filter (new.mapped n))
  match a.calls[n] with
  | .calling st k => if new.mapped n ⟨st, k⟩ then a2 else a2.setCall n (holdOrIdle new n (some st))
  | .idle => a2
  | .holding _ _ => a2

/-- A stable sort by class, highest first (R21): each entry goes behind those of its class or higher. -/
def sortByClass (b : Bank) : List Hold → List Hold
  | [] => []
  | h :: rest => insertFront b h (sortByClass b rest)

/-- R18 stage 4, R21: one wait queue, reordered if it holds a station whose class has changed. -/
def Arbiter.takeClasses (old new : Bank) (a : Arbiter) (n : Net) : Arbiter :=
  if a.waits[n].any fun h => old.clsOf h ≠ new.clsOf h then a.setWaits n (sortByClass new a.waits[n]) else a

/-- R21: the waiters beyond 8 leave, the last one first, with standing REFUSED. -/
def Arbiter.trimWaits (n : Net) (a : Arbiter) : Arbiter :=
  (a.setTalkAll (a.waits[n].drop Config.waitLimit) .refused).setWaits n (a.waits[n].take Config.waitLimit)

/-- R18 stage 5, R21: one net whose new slot count is below its holder count. -/
def Arbiter.takeSlots (new : Bank) (a : Arbiter) (n : Net) : Arbiter :=
  let keep := a.holders[n].take new.nets[n].slots
  let moved := a.holders[n].drop new.nets[n].slots
  if moved.isEmpty then a
  else
    let a1 := (a.setHolders n keep).setWaits n (moved.foldr (insertFront new) a.waits[n])
    (a1.setTalkAll moved .wait).trimWaits n

/-- R18: the talk arbiter's part of a Take, in its six stages. -/
def Arbiter.applyTake (old new : Bank) (a : Arbiter) : Arbiter :=
  let a1 := allStations.foldl (Arbiter.takeStation old new) a
  let a2 := allNets.foldl (Arbiter.takeNet new) a1
  let a3 := allNets.foldl (Arbiter.takeMapping new) a2
  let a4 := allNets.foldl (Arbiter.takeClasses old new) a3
  let a5 := allNets.foldl (Arbiter.takeSlots new) a4
  a5.refillAll new allNets

end Sys2Proof.Machine
end

