-- ==== Sys2Proof/Machine/Cues.lean ====
section
/-! DEFINITION. The cue controller (chapter 5, R72 to R99). -/

namespace Sys2Proof.Machine

/-! Access. -/

/-- The entry of a cue in the active list. -/
def State.entry (s : State) (c : CueIx) : Option CueEntry := s.cues.find? fun e => e.cue = c

/-- Whether a cue index stands in the active list. -/
def State.isActive (s : State) (c : CueIx) : Bool := s.cues.any fun e => e.cue = c

/-- Changes the entry of a cue. -/
def State.modEntry (s : State) (c : CueIx) (f : CueEntry → CueEntry) : State :=
  { s with cues := s.cues.map fun e => if e.cue = c then f e else e }

/-- R74: whether a target is in service. -/
def State.inService (s : State) (st : Station) (lamp : Lamp) : Bool :=
  (s.station st).enabled && !s.isolated st && lamp.val < (s.station st).lamps

/-- R99: the CUE condition: an entry holds a LATE or LOST target. -/
def State.cueCond (s : State) : Bool :=
  s.cues.any fun e => e.targets.any fun t => t = .late || t = .lost

/-- The targets of an active cue: position, station, lamp and state, in the record's order. -/
def State.targetsOf (s : State) (c : CueIx) : List (Nat × Station × Lamp × TargetState) :=
  match s.entry c with
  | some e =>
    ((s.cueRec c).targets.zip e.targets).zipIdx.map fun x => (x.2, x.1.1.1, x.1.1.2, x.1.2)
  | none => []

/-! Reports (R76, R187). -/

/-- A cue report about cue `c`, with its data bytes. -/
def cueMsg (k : Nat) (c : CueIx) (d1 d2 d3 : Nat) (s : State) : Message :=
  let r := s.cueRec c
  reportOf k ([byteOf c.val] ++ le16 r.showWhole ++ [byteOf r.showPoint, byteOf r.department, byteOf d1, byteOf d2, byteOf d3])

/-- Makes a cue report. -/
def reportCue (k : Nat) (c : CueIx) (d1 d2 d3 : Nat) (s : State) : State := cueReport (cueMsg k c d1 d2 d3 s) s

/-- STRAY_ACK carries cue index FFh and show fields of 00h (R187). -/
def strayAckReport (st : Station) (lamp : Lamp) : Message :=
  reportOf 0xC6 [0xFF#8, 0, 0, 0, 0, byteOf st.val, byteOf lamp.val, 0]

/-- R99, R164: a target became LATE or LOST; under WARN the CUE warn flag is set. -/
def cueEvent (s : State) : State :=
  if s.faults.modes.cue = .warn then { s with faults := { s.faults with cueWarn := true } } else s

/-! Claims and targets (R75). -/

/-- Places or changes the claim of a target (R101). -/
def placeClaim (c : CueIx) (pos : Nat) (st : Station) (lamp : Lamp) (r : Rank) (s : State) : State :=
  s.modLamps (·.place c pos st lamp r)

/-- Sets a target's state. -/
def setTarget (c : CueIx) (pos : Nat) (t : TargetState) (s : State) : State :=
  s.modEntry c fun e => { e with targets := e.targets.set pos t }

/-- R75: the rank of the claim of a target, by the entry's state and the target's. -/
def claimRank (es : EntryState) (t : TargetState) : Option Rank :=
  match t with
  | .lost => none
  | .waiting => if es = .going then some .go else some .standby
  | .late => if es = .going then some .go else some .late
  | .acked => if es = .going then some .go else some .ready
  | .ackedLate => if es = .going then some .go else some .ready

/-! Readiness (R81, R82). -/

/-- Whether a target is acknowledged. -/
def TargetState.isAcked (t : TargetState) : Bool := t = .acked || t = .ackedLate

/-- R81: whether an ack policy is satisfied by target states. -/
def AckPolicy.satisfied (p : AckPolicy) (ts : List TargetState) : Bool :=
  match p with
  | .all => ts.all TargetState.isAcked
  | .any => ts.any TargetState.isAcked
  | .none => true

/-- R81: readiness computed for one entry. -/
def recompute (c : CueIx) (s : State) : State :=
  match s.entry c with
  | some e =>
    let sat := (s.cueRec c).ackPolicy.satisfied e.targets
    if e.state = .standby && sat then
      reportCue 0xC0 c 0 0 0 (s.modEntry c fun e => { e with state := .ready })
    else if e.state = .ready && !sat then
      reportCue 0xC1 c 0 0 0 (s.modEntry c fun e => { e with state := .standby })
    else s
  | none => s

/-! Entering the list (R78, R91). -/

/-- R78 step 1, for one target: a STANDBY claim, or a TARGET_LOST report. -/
def enterTarget (c : CueIx) (s : State) (x : Nat × Station × Lamp × TargetState) : State :=
  match x with
  | (pos, st, lamp, t) =>
    if t = .lost then cueEvent (reportCue 0xC4 c st.val lamp.val 0 s) else placeClaim c pos st lamp .standby s

/-- The deadline of an entering cue (R78 step 2). -/
def startDeadline (d : Nat) : Deadline := if d = 0 then .none else .running d

/-- A new entry for cue `c`, its targets judged in service (R73, R78, R91). -/
def newEntry (c : CueIx) (es : EntryState) (follow : Option Countdown) (byFollow : Bool) (s : State) : CueEntry where
  cue := c
  state := es
  targets := (s.cueRec c).targets.map fun x => if s.inService x.1 x.2 then .waiting else .lost
  deadline := startDeadline (s.cueRec c).ackDeadline
  follow := follow
  goHold := 0
  byFollow := byFollow
  unready := false
  forced := false

/-- R15: the cue call of a record with a call net. -/
def placeCueCall (c : CueIx) (s : State) : State :=
  match (s.cueRec c).callNet with
  | some n => s.modArb (Arbiter.cueCall s.live n)
  | none => s

/-- The entry appended, its targets' claims and reports made, and its cue call placed (R78 steps 1 to 3, R91). -/
def enterList (c : CueIx) (es : EntryState) (follow : Option Countdown) (byFollow : Bool) (s : State) : State :=
  let s1 := { s with cues := s.cues ++ [newEntry c es follow byFollow s] }
  placeCueCall c ((s1.targetsOf c).foldl (enterTarget c) s1)

/-- R78: cue `c` is placed in standby. -/
def placeInStandby (c : CueIx) (s : State) : State := recompute c (enterList c .standby none false s)

/-! Acknowledgement (R79, R80). -/

/-- The position of an entry's first target on a lamp that still takes an acknowledge (R79). -/
def ackPosition (st : Station) (lamp : Lamp) (xs : List (Nat × Station × Lamp × TargetState)) :
    Option (Nat × TargetState) :=
  (xs.find? fun x => x.2.1 = st && x.2.2.1 = lamp && (x.2.2.2 = .waiting || x.2.2.2 = .late)).map
    fun x => (x.1, x.2.2.2)

/-- R79: the entry and target an ack edge is assigned to: the earliest entry not GOING with a matching target. -/
def State.ackTarget (s : State) (st : Station) (lamp : Lamp) : Option (CueIx × Nat × TargetState) :=
  s.cues.findSome? fun e =>
    if e.state = .going then none
    else (ackPosition st lamp (s.targetsOf e.cue)).map fun x => (e.cue, x.1, x.2)

/-- R80: the chosen target is acknowledged. -/
def acknowledge (c : CueIx) (pos : Nat) (st : Station) (lamp : Lamp) (t : TargetState) (s : State) : State :=
  let t' : TargetState := if t = .late then .ackedLate else .acked
  let s1 := placeClaim c pos st lamp .ready (setTarget c pos t' s)
  recompute c (reportCue 0xC2 c st.val lamp.val t'.code s1)

/-- R79: an ack edge on (station, lamp). -/
def ackEdge (st : Station) (lamp : Lamp) (s : State) : State :=
  if !(s.station st).enabled || (s.station st).kind = .source || s.isolated st then s
  else
    match s.ackTarget st lamp with
    | some (c, pos, t) => acknowledge c pos st lamp t s
    | none => cueReport (strayAckReport st lamp) s

/-! The acknowledge deadline (R83). -/

/-- R83: one WAITING target becomes LATE. -/
def lateTarget (c : CueIx) (s : State) (x : Nat × Station × Lamp × TargetState) : State :=
  match x with
  | (pos, st, lamp, t) =>
    if t = .waiting then
      cueEvent (reportCue 0xC3 c st.val lamp.val 0 (placeClaim c pos st lamp .late (setTarget c pos .late s)))
    else s

/-- R83: the deadline of cue `c` expires. -/
def expireDeadline (c : CueIx) (s : State) : State :=
  let s1 := s.modEntry c fun e => { e with deadline := .expired }
  (s1.targetsOf c).foldl (lateTarget c) s1

/-! Going (R85 to R87) and follows (R91, R92). -/

/-- R32: a take from GO; whether it was refused, and the state after it. -/
def takeFromGo (c : CueIx) (s : State) : Bool × State :=
  if s.unverified then (true, s)
  else
    match s.takePending with
    | some _ => (false, s)
    | none => (false, { s with takePending := some (.cue c) })

/-- A follow countdown placed on the entry of cue `b` (R92). -/
def placeCountdown (b : CueIx) (cd : Countdown) (s : State) : State :=
  s.modEntry b fun e => { e with follow := some cd }

/-- R91, R92: the follow (b, d) of cue `a` is started. A cue `b` that is disabled while the list is full is lost as
DISABLED (the model's choice, notes/assumptions/42.md). -/
def startFollow (a b : CueIx) (d : Nat) (s : State) : State :=
  let lost (r : FollowLoss) : State := reportCue 0xCD b a.val r.code 0 s
  let started (s1 : State) : State := reportCue 0xCC b a.val 0 0 s1
  match s.entry b with
  | none =>
    if !(s.cueRec b).enabled then lost .disabled
    else if Config.activeLimit ≤ s.cues.length then lost .listFull
    else started (enterList b .countdown (some ⟨d, false, a⟩) true s)
  | some e => if e.state = .going then lost .going else started (placeCountdown b ⟨d, false, a⟩ s)

/-- R86 step 3: one target takes a GO claim, unless it is LOST. -/
def goTarget (c : CueIx) (s : State) (x : Nat × Station × Lamp × TargetState) : State :=
  match x with
  | (pos, st, lamp, t) => if t = .lost then s else placeClaim c pos st lamp .go s

/-- R85: the going report's kind. -/
def goingKind (unready forced : Bool) : Nat := if forced then 0xC9 else if unready then 0xC8 else 0xC7

/-- R86 step 2: a running deadline stops. -/
def Deadline.stop : Deadline → Deadline
  | .running _ => .stopped
  | .none => .none
  | .expired => .expired
  | .stopped => .stopped

/-- R85, R86 steps 1 and 2: the entry of a cue that goes. -/
def CueEntry.gone (e : CueEntry) (r : CueRecord) (force : Bool) : CueEntry :=
  { e with state := .going, goHold := r.goHold, deadline := e.deadline.stop, follow := none,
           unready := !r.ackPolicy.satisfied e.targets, forced := force && e.state = .standby }

/-- R86 step 7: the record's follow, if any. -/
def startRecordFollow (c : CueIx) (s : State) : State :=
  match (s.cueRec c).follow with
  | some (b, d) => startFollow c b d s
  | none => s

/-- R86 step 5: the record's take on GO, if any. -/
def recordTake (c : CueIx) (s : State) : Bool × State :=
  if (s.cueRec c).takeOnGo then takeFromGo c s else (false, s)

/-- R86: the entry of cue `c` goes; `force` is whether a GO request carried FORCE. -/
def entryGoes (c : CueIx) (force : Bool) (s : State) : State :=
  match s.entry c with
  | none => s
  | some e =>
    let g := e.gone (s.cueRec c) force
    let s1 := s.modEntry c fun _ => g
    let s2 := (s1.targetsOf c).foldl (goTarget c) s1
    let s3 := s2.modTable (·.advance c)
    let t := recordTake c s3
    let s4 := reportCue (goingKind g.unready g.forced) c e.state.code (bit 0 t.1) 0 t.2
    startRecordFollow c s4

/-- An entry leaves the list, its claims withdrawn (R75). -/
def removeEntry (c : CueIx) (s : State) : State :=
  { s with cues := s.cues.filter (fun e => e.cue ≠ c), lamps := s.lamps.withdrawCue c }

/-- R88: the go hold of cue `c` expires. -/
def expireGoHold (c : CueIx) (s : State) : State :=
  match s.entry c with
  | some e => reportCue 0xCA c (bit 0 e.unready + bit 1 e.forced) 0 0 (removeEntry c s)
  | none => s

/-- R89 step 4: the entry of cue `c` is cancelled. -/
def cancelEntry (c : CueIx) (s : State) : State :=
  match s.entry c with
  | some e => reportCue 0xCB c e.state.code 0 0 (removeEntry c s)
  | none => s

/-- R93, R94: the follow countdown of cue `c` expires. -/
def expireFollow (c : CueIx) (s : State) : State :=
  match s.entry c with
  | some e =>
    match e.follow with
    | some cd =>
      let s1 := s.modEntry c fun e => { e with follow := none }
      if e.state = .standby && (s.cueRec c).goPolicy = .strict then reportCue 0xCE c cd.starter.val 0 0 s1
      else entryGoes c false s1
    | none => s
  | none => s

/-! Isolation, return and Take (R96 to R98). -/

/-- R96, R81: one target becomes LOST, and its entry's readiness is computed after its report
(notes/assumptions/33.md). -/
def loseTarget (c : CueIx) (s : State) (x : Nat × Station × Lamp × TargetState) : State :=
  match x with
  | (pos, st, lamp, _) =>
    recompute c (cueEvent (reportCue 0xC4 c st.val lamp.val 0
      ((setTarget c pos .lost s).modLamps (·.withdraw c pos))))

/-- One entry's targets on the lamps of `p`, not already LOST, become LOST, in its list order. -/
def loseInEntry (p : Station → Lamp → Bool) (s : State) (c : CueIx) : State :=
  ((s.targetsOf c).filter fun x => p x.2.1 x.2.2.1 && x.2.2.2 ≠ .lost).foldl (loseTarget c) s

/-- R96, R98: every target on the lamps of `p`, entries earliest first. -/
def loseTargets (p : Station → Lamp → Bool) (s : State) : State := (s.cues.map (·.cue)).foldl (loseInEntry p) s

/-- R96: station `st` enters ISOLATED. -/
def cueIsolated (st : Station) (s : State) : State := loseTargets (fun t _ => t = st) s

/-- Whether R96 has anything to do. -/
def State.hasTargets (s : State) (p : Station → Lamp → Bool) : Bool :=
  s.cues.any fun e => (s.targetsOf e.cue).any fun x => p x.2.1 x.2.2.1 && x.2.2.2 ≠ .lost

/-- R97: the state a restored target takes. -/
def restoredState (d : Deadline) : TargetState := if d = .expired then .late else .waiting

/-- R97: one target restored. -/
def restoreTarget (c : CueIx) (e : CueEntry) (s : State) (x : Nat × Station × Lamp × TargetState) : State :=
  match x with
  | (pos, st, lamp, _) =>
    let t := restoredState e.deadline
    let s1 := setTarget c pos t s
    let s2 := match claimRank e.state t with
      | some r => placeClaim c pos st lamp r s1
      | none => s1
    let s3 := reportCue 0xC5 c st.val lamp.val 0 s2
    if t = .late then cueEvent s3 else s3

/-- R97: one entry's LOST targets of `st` that are in service. -/
def restoreInEntry (st : Station) (s : State) (c : CueIx) : State :=
  match s.entry c with
  | some e =>
    ((s.targetsOf c).filter fun x => x.2.1 = st && x.2.2.2 = .lost && s.inService x.2.1 x.2.2.1).foldl
      (restoreTarget c e) s
  | none => s

/-- R97: station `st` returns to service. -/
def cueReturned (st : Station) (s : State) : State := (s.cues.map (·.cue)).foldl (restoreInEntry st) s

/-- R98: whether a Take makes LOST a target on (station, lamp). -/
def takeLoses (old new : Bank) (st : Station) (lamp : Lamp) : Bool :=
  let o := old.stations[st]
  let n := new.stations[st]
  !n.enabled || o.primary ≠ n.primary || o.spare ≠ n.spare || n.lamps ≤ lamp.val

/-- R98: the cue controller's part of a Take. -/
def cueTake (old new : Bank) (s : State) : State := loseTargets (takeLoses old new) s

end Sys2Proof.Machine
end

