-- ==== Sys2Proof/Machine/Homing.lean ====
section
/-! DEFINITION. The homing controller (chapter 9, R142 to R154). -/

namespace Sys2Proof.Machine

/-! Reports (R154, R187). -/

/-- The five homing bytes of a report, as they stand when it is made (R154; notes/assumptions/37.md). -/
def State.homingBytes (s : State) (st : Station) : List Byte :=
  [byteOf st.val, byteOf s.homing[st].state.code, byteOf (s.station st).primary.val, portByte (s.station st).spare,
    byteOf (bit 0 s.homing[st].primFailed + bit 1 s.homing[st].spareFailed)]

/-- Makes a homing report about station `st`. -/
def reportHoming (k : Nat) (st : Station) (rest : List Byte) (s : State) : State :=
  broadcast (reportOf k (s.homingBytes st ++ rest)) s

/-! Small updates. -/

/-- Sets or clears a port's awaiting reconciliation (R139). -/
def setAwaiting (p : Port) (b : Bool) (s : State) : State := s.modPort p fun u => { u with awaiting := b }

/-- Clears the awaiting reconciliation of the ports a record names. -/
def clearAwaiting (r : StationRecord) (s : State) : State :=
  match r.spare with
  | some p => setAwaiting p false (setAwaiting r.primary false s)
  | none => setAwaiting r.primary false s

/-- R145 step 3: a port unit's input restarted. -/
def restartInput (p : Port) (s : State) : State :=
  s.modPort p fun u => { u with latest := silence, fresh := false, conceal := .silent }

/-- Whether the LINK class mode hands LINK faults: LATCHED or AUTO (R144). -/
def State.linkActs (s : State) : Bool := s.faults.modes.link = .latched || s.faults.modes.link = .auto

/-! Return (R150). -/

/-- R150: station `st` returns on port `p`. -/
def returnOn (st : Station) (p : Port) (hs : HomingState) (s : State) : State :=
  let s1 := s.modHoming st fun h => { h with state := hs, active := some p }
  reportHoming 0xDB st [byteOf p.val] (cueReturned st (setAwaiting p true s1))

/-- R150: an ISOLATED station returns if one of its ports is clean. -/
def tryReturn (st : Station) (s : State) : State :=
  if s.isolated st then
    if s.clean st (s.station st).primary then returnOn st (s.station st).primary .onPrimary s
    else
      match (s.station st).spare with
      | some p => if s.clean st p then returnOn st p .onSpare s else s
      | none => s
  else s

/-! Isolation (R149). -/

/-- The parts of an isolation that may stand in any order (R149). -/
inductive IsoPart where
  | cue | authority | report
  deriving DecidableEq, Repr

/-- R149 step 4: the ISOLATED report. It is made before the station's return, if any, so its homing state is ISOLATED
(the model's choice, notes/assumptions/37.md). -/
def isolatedReport (st : Station) (r : IsoReason) (cause : Option Port) (s : State) : State :=
  reportHoming 0xDA st [byteOf r.code, portByte cause] s

/-- One part of an isolation. -/
def IsoPart.take (st : Station) (r : IsoReason) (cause : Option Port) : IsoPart → State → State
  | .cue => cueIsolated st
  | .authority => authIsolated st
  | .report => isolatedReport st r cause

/-- The parts that have something to do. -/
def State.isoParts (s : State) (st : Station) : List IsoPart :=
  (if s.hasTargets (fun t _ => t = st) then [IsoPart.cue] else [])
    ++ (if s.holds st then [IsoPart.authority] else []) ++ [.report]

/-- R149 steps 1 and 2. -/
def isolateState (st : Station) (s : State) : State :=
  clearAwaiting (s.station st) (s.modHoming st fun h =>
    { h with state := .isolated, active := none, switchRem := none, restorePending := false, restoreDue := false })

/-- R149: station `st` enters ISOLATED; R150: it returns at once if a port of it is clean. -/
def enterIsolated (st : Station) (r : IsoReason) (cause : Option Port) (s : State) : State :=
  let s1 := (isolateState st s).modArb (Arbiter.withdraw s.live st .isolated)
  let parts := s1.isoParts st
  tryReturn st (inAnyOrder (IsoPart.take st r cause) parts.length parts s1)

/-! LINK faults (R144 to R148). -/

/-- R145: the switchover of station `st` to its spare port `sp` begins. -/
def startSwitchover (st : Station) (sp : Port) (s : State) : State :=
  let pr := (s.station st).primary
  let s1 := s.modHoming st fun h =>
    { h with primFailed := true, state := .switching, active := some sp, switchRem := some Config.switchoverMs }
  let s2 := restartInput sp (setAwaiting sp true (setAwaiting pr false s1))
  reportHoming 0xD8 st [byteOf pr.val, byteOf sp.val] (authMoved st sp s2)

/-- R145: the primary has failed and no clean spare takes over. -/
def isolatePrimary (st : Station) (s : State) : State :=
  enterIsolated st .noSpare (some (s.station st).primary) (s.modHoming st fun h => { h with primFailed := true })

/-- R147, R148: the spare has failed. -/
def isolateSpare (st : Station) (s : State) : State :=
  enterIsolated st .spareFailed (s.station st).spare (s.modHoming st fun h => { h with spareFailed := true })

/-- R144: a LINK fault taken for station `st`. -/
def linkFault (st : Station) (s : State) : State :=
  match s.homing[st].state with
  | .onPrimary =>
    match (s.station st).spare with
    | some sp => if s.clean st sp then startSwitchover st sp s else isolatePrimary st s
    | none => isolatePrimary st s
  | .switching => isolateSpare st s
  | .onSpare => isolateSpare st s
  | .isolated => s

/-- Whether the link condition of a station's active port is present. -/
def State.activeCond (s : State) (st : Station) : Bool :=
  match s.homing[st].active with
  | some p => s.linkCond p
  | none => false

/-- The port of a station that is not its active port (R144). -/
def State.otherPort (s : State) (st : Station) : Option Port :=
  match s.homing[st].state with
  | .onPrimary => (s.station st).spare
  | .onSpare => some (s.station st).primary
  | .switching => none
  | .isolated => none

/-- R144, second occasion: the other port of `st` may have become clean while the active port's condition stands. -/
def otherPortJudged (st : Station) (s : State) : State :=
  match s.otherPort st with
  | some q => if s.activeCond st && s.linkActs && s.clean st q then linkFault st s else s
  | none => s

/-- R144, R150: a port of `st` may have become clean. -/
def portsJudged (st : Station) (s : State) : State :=
  if s.isolated st then tryReturn st s else otherPortJudged st s

/-! Failed marks (R143). -/

/-- Clears the failed mark of port `p` of station `st`. -/
def clearMark (st : Station) (p : Port) (s : State) : State :=
  s.modHoming st fun h =>
    { h with primFailed := h.primFailed && (s.station st).primary ≠ p,
             spareFailed := h.spareFailed && (s.station st).spare ≠ some p }

/-- R143: the end of the link condition of port `p` of station `st`, in AUTO, clears its mark; R144, R150 follow. An
end on the active port makes no other port clean. -/
def homingCondEnded (st : Station) (p : Port) (s : State) : State :=
  let s1 := if s.faults.modes.link = .auto then clearMark st p s else s
  if s1.homing[st].active = some p then s1 else portsJudged st s1

/-- R166 step 1: the marks of a station on ports whose condition is absent. -/
def Homing.clearAbsent (h : Homing) (primCond spareCond : Bool) : Homing :=
  { h with primFailed := h.primFailed && primCond, spareFailed := h.spareFailed && spareCond }

/-- Whether a station holds a failed mark. -/
def Homing.anyMark (h : Homing) : Bool := h.primFailed || h.spareFailed

/-- The stations whose failed marks stand, ascending (notes/assumptions/29.md). -/
def State.markedStations (s : State) : List Station := allStations.filter fun st => s.homing[st].anyMark

/-- R143, R166 step 1: the homing controller's part of a Clear Faults. -/
def homingClearFaults (s : State) : State :=
  let spareCond (st : Station) : Bool := match (s.station st).spare with
    | some p => s.linkCond p
    | none => false
  let s1 := { s with homing := Vector.ofFn fun st =>
    s.homing[st].clearAbsent (s.linkCond (s.station st).primary) (spareCond st) }
  s.markedStations.foldl (fun t st => portsJudged st t) s1

/-- R143, R167: the homing controller's part of a Set Mode on the LINK class. Its second occasion of R144 comes here,
before the fresh evaluation's reports (the model's choice, notes/assumptions/43.md). -/
def homingSetMode (s : State) : State :=
  let s1 := { s with homing := s.homing.map fun h => { h with primFailed := false, spareFailed := false } }
  s.markedStations.foldl (fun t st => portsJudged st t) s1

/-! The end of a switchover (R146, R147). -/

/-- R146 steps 2 and 3: the switchover of `st` ends in ON_SPARE on port `p`. -/
def failOver (st : Station) (p : Port) (s : State) : State :=
  reportHoming 0xD9 st [byteOf p.val]
    (s.modHoming st fun h => { h with state := .onSpare, switchRem := none })

/-- R147: the switchover timer expires. -/
def expireSwitchover (st : Station) (s : State) : State := enterIsolated st .switchoverTimeout none s

/-! Restore Station (R151, R152). -/

/-- R152: whether the restore of `st` applies. -/
def State.restores (s : State) (st : Station) : Bool :=
  s.homing[st].state = .onSpare && s.clean st (s.station st).primary

/-- R152: station `st` goes back to its primary. -/
def restorePrimary (st : Station) (s : State) : State :=
  let pr := (s.station st).primary
  let s1 := s.modHoming st fun h => { h with state := .onPrimary, active := some pr }
  let s2 := setAwaiting pr true (clearAwaiting (s.station st) s1)
  reportHoming 0xDC st [] (authMoved st pr s2)

/-- R152: the accepted restore of `st` is applied or lapses. -/
def applyRestore (st : Station) (s : State) : State :=
  let s1 := s.modHoming st fun h => { h with restorePending := false, restoreDue := false }
  if s1.restores st then restorePrimary st s1 else reportHoming 0xDD st [] s1

/-! Take (R153). -/

/-- R153: whether a Take resets a station's homing state. -/
def takeResets (o n : StationRecord) : Bool := o.enabled ≠ n.enabled || portsDiffer o n

/-- R153: the homing state a Take gives a station. -/
def Homing.afterTake (n : StationRecord) : Homing :=
  { Homing.init with active := if n.enabled then some n.primary else none }

/-- R153: one station reset by a Take. -/
def takeResetStation (o n : StationRecord) (s : State) (st : Station) : State :=
  clearAwaiting n (clearAwaiting o (s.modHoming st fun _ => Homing.afterTake n))

/-- R144, fourth occasion; R153. -/
def takeLinkFault (s : State) (st : Station) : State :=
  if s.activeCond st && s.linkActs then linkFault st s else s

/-- The stations a Take resets, ascending. -/
def takeResetList (old new : Bank) : List Station :=
  allStations.filter fun st => takeResets old.stations[st] new.stations[st]

/-- R153: the homing controller's part of a Take. -/
def homingTake (old new : Bank) (s : State) : State :=
  let l := takeResetList old new
  l.foldl takeLinkFault (l.foldl (fun t st => takeResetStation old.stations[st] new.stations[st] t st) s)

end Sys2Proof.Machine
end

