-- ==== Sys2Proof/Machine/FaultSup.lean ====
section
/-! DEFINITION. The fault supervisor (chapter 10, R155 to R167). -/

namespace Sys2Proof.Machine

/-! Conditions as the supervisor holds them (R155, R157). -/

/-- R155: the port link condition last handed; none for a port that serves no station. -/
def State.supCond (s : State) (p : Port) : Bool := (s.live.serves p).isSome && s.faults.ports[p].linkCond

/-- R157: a station's LINK condition. -/
def State.stationLink (s : State) (st : Station) : Bool :=
  (s.station st).enabled
    && (s.isolated st || match s.homing[st].active with
      | some p => s.supCond p
      | none => false)

/-! Reports (R165, R187). -/

/-- FAULT_RAISED for class LINK. -/
def linkRaisedReport (p : Port) (st : Station) (m : Mode) (active : Bool) : Message :=
  reportOf 0xE0 [byteOf FaultClass.link.code, byteOf p.val, byteOf st.val, byteOf m.code, byteOf (bit 0 active)]

/-- FAULT_ENDED for class LINK. -/
def linkEndedReport (p : Port) (st : Station) : Message :=
  reportOf 0xE1 [byteOf FaultClass.link.code, byteOf p.val, byteOf st.val]

/-- FAULT_RAISED for class OVERLOAD. Its last byte is 0: R165 and R187 give it a meaning for LINK alone
(the model's choice, notes/assumptions/38.md). -/
def overRaisedReport (st : Station) (m : Mode) : Message :=
  reportOf 0xE0 [byteOf FaultClass.overload.code, 0xFF, byteOf st.val, byteOf m.code, 0]

/-- FAULT_ENDED for class OVERLOAD. -/
def overEndedReport (st : Station) : Message := reportOf 0xE1 [byteOf FaultClass.overload.code, 0xFF, byteOf st.val]

/-- CLIP_WARN. -/
def clipWarnReport (st : Station) : Message := reportOf 0xE4 [byteOf st.val]

/-! LINK (R158). -/

/-- R158: what the LINK mode makes of the condition of port `p`, which serves `st`, as just begun: the report, and the
warn flag under WARN. -/
def linkRaised (p : Port) (st : Station) (s : State) : State :=
  let m := s.faults.modes.link
  let report := broadcast (linkRaisedReport p st m (s.homing[st].active = some p))
  match m with
  | .latched => report s
  | .auto => report s
  | .warn => report (s.modPortFaults p fun f => { f with linkWarn := true })
  | .rekey => s
  | .off => s

/-- R158: the LINK mode applied to a condition just begun; on the active port of `st`, under LATCHED and AUTO, the
homing controller then takes a LINK fault. -/
def linkBegun (p : Port) (st : Station) (s : State) : State :=
  if s.homing[st].active = some p && s.linkActs then linkFault st (linkRaised p st s) else linkRaised p st s

/-- R158: the FAULT_ENDED report, in every mode but OFF. -/
def linkEnded (p : Port) (st : Station) (s : State) : State :=
  if s.faults.modes.link = .off then s else broadcast (linkEndedReport p st) s

/-- R133, R157: port `p`, which serves `st`, hands its new link condition; the homing controller takes an end after the
supervisor (notes/assumptions/23.md). -/
def handCond (p : Port) (st : Station) (c : Bool) (s : State) : State :=
  let s1 := s.modPortFaults p fun f => { f with linkCond := c }
  if c then linkBegun p st s1 else homingCondEnded st p (linkEnded p st s1)

/-- R157, R158: the supervisor's part alone of a new link condition, for a station whose homing a Take is still to reset
(R153; notes/assumptions/41.md). -/
def superviseCond (p : Port) (st : Station) (c : Bool) (s : State) : State :=
  let s1 := s.modPortFaults p fun f => { f with linkCond := c }
  if c then linkRaised p st s1 else linkEnded p st s1

/-! OVERLOAD (R159 to R162). -/

/-- R160: an overload mute begins. -/
def beginMute (st : Station) (m : Mute) (s : State) : State :=
  (s.modStFaults st fun f => { f with mute := m }).modArb (Arbiter.withdraw s.live st .mute)

/-- Sets a station's OVERLOAD warn flag. -/
def overWarn (st : Station) (s : State) : State := s.modStFaults st fun f => { f with overWarn := true }

/-- R160: what the mode does to the station, before the report. -/
def overloadAct (st : Station) (m : Mode) (s : State) : State :=
  match m with
  | .latched => if s.mute st = .none then beginMute st .latched s else s
  | .rekey =>
    if (s.station st).kind = .source then overWarn st s
    else if s.mute st = .none then beginMute st .rekey s
    else s
  | .warn => overWarn st s
  | .auto => s
  | .off => s

/-- R160: the OVERLOAD mode applied to the condition of `st` as just begun. -/
def overloadBegun (st : Station) (s : State) : State :=
  let m := s.faults.modes.overload
  if m = .off then s else broadcast (overRaisedReport st m) (overloadAct st m s)

/-- R160: the FAULT_ENDED report, in every mode but OFF. -/
def overloadEnded (st : Station) (s : State) : State :=
  if s.faults.modes.overload = .off then s else broadcast (overEndedReport st) s

/-- A run's next count, stopping at 16 (R159). -/
def runNext (n : Nat) : Nat := if n < Config.overloadRun then n + 1 else n

/-- R159: the runs and the condition after one counted mark. -/
def StationFaults.count (f : StationFaults) (mark : Bool) : StationFaults :=
  if mark then
    { f with mark := none, clearRun := 0, setRun := runNext f.setRun,
             overCond := f.overCond || decide (Config.overloadRun ≤ runNext f.setRun) }
  else
    { f with mark := none, setRun := 0, clearRun := runNext f.clearRun,
             overCond := f.overCond && decide (runNext f.clearRun < Config.overloadRun) }

/-- R159, R160: a station's mark is counted, and the condition's beginning or end responded to. -/
def countMark (st : Station) (mark : Bool) (s : State) : State :=
  let old := s.faults.stations[st]
  let new := old.count mark
  let s1 := s.modStFaults st fun _ => new
  if new.overCond = old.overCond then s1
  else if new.overCond then overloadBegun st s1
  else overloadEnded st s1

/-- R162: a station's overload state after a Take. -/
def StationFaults.afterTake (o n : StationRecord) (f : StationFaults) : StationFaults :=
  if (o.enabled && !n.enabled) || (o.kind ≠ .cueStation && n.kind = .cueStation) then
    { f with setRun := 0, clearRun := 0, overCond := false, mute := .none, overWarn := false, clipWarn := false }
  else if o.kind ≠ .source && n.kind = .source && f.mute = .rekey then { f with mute := .none }
  else f

/-- R162: the fault supervisor's part of a Take. -/
def Faults.applyTake (old new : Bank) (f : Faults) : Faults :=
  { f with stations := Vector.ofFn fun st => (f.stations[st]).afterTake old.stations[st] new.stations[st] }

/-! CLIP (R164). -/

/-- R164: the CLIP condition of `st` handed as present. -/
def clipPresent (st : Station) (s : State) : State :=
  if s.faults.modes.clip = .warn && !s.faults.stations[st].clipWarn then
    broadcast (clipWarnReport st) (s.modStFaults st fun f => { f with clipWarn := true })
  else s

/-! Clear Faults (R166). -/

/-- Whether a station's LATCHED mute ends at a Clear Faults. -/
def StationFaults.mutesOut (f : StationFaults) : Bool := f.mute = .latched && !f.overCond

/-- R166 step 2, for one station. -/
def clearMute (s : State) (st : Station) : State :=
  if (s.faults.stations[st]).mutesOut then endMute st .clearFaults s else s

/-- R166 steps 3 and 4, for one port: its DESK and LINK conditions as they stand. -/
def PortFaults.cleared (f : PortFaults) (deskCond linkCond : Bool) : PortFaults :=
  { f with deskLatched := f.deskLatched && deskCond, deskWarn := f.deskWarn && deskCond,
           linkWarn := f.linkWarn && linkCond }

/-- R166 step 4, for one station: its clip flag as it stands. -/
def StationFaults.cleared (f : StationFaults) (clip : Bool) : StationFaults :=
  { f with overWarn := f.overWarn && f.overCond, clipWarn := f.clipWarn && clip }

/-- R166 steps 3 to 5. -/
def clearFlags (s : State) : State :=
  { s with faults :=
    { s.faults with
      ports := Vector.ofFn fun p => (s.faults.ports[p]).cleared (s.deskCondOf p) (s.supCond p),
      stations := Vector.ofFn fun st => (s.faults.stations[st]).cleared s.mix.clip[st],
      cueWarn := s.faults.cueWarn && s.cueCond,
      resetFlag := false } }

/-- R166 steps 1 to 5. -/
def clearFaults (s : State) : State := clearFlags (allStations.foldl clearMute (homingClearFaults s))

/-! Set Mode (R167). -/

/-- The modes with one class's mode replaced. -/
def Modes.set (ms : Modes) (c : FaultClass) (m : Mode) : Modes :=
  match c with
  | .link => { ms with link := m }
  | .overload => { ms with overload := m }
  | .desk => { ms with desk := m }
  | .cue => { ms with cue := m }
  | .clip => { ms with clip := m }

/-- The mode of a class. -/
def Modes.get (ms : Modes) : FaultClass → Mode
  | .link => ms.link
  | .overload => ms.overload
  | .desk => ms.desk
  | .cue => ms.cue
  | .clip => ms.clip

/-- Changes every port's fault flags. -/
def State.modAllPortFaults (s : State) (f : PortFaults → PortFaults) : State :=
  { s with faults := { s.faults with ports := s.faults.ports.map f } }

/-- Changes every station's fault state. -/
def State.modAllStFaults (s : State) (f : StationFaults → StationFaults) : State :=
  { s with faults := { s.faults with stations := s.faults.stations.map f } }

/-- R167, LINK: the new mode applied to one port. -/
def relink (s : State) (p : Port) : State :=
  match s.live.serves p with
  | some st => if s.supCond p then linkBegun p st s else s
  | none => s

/-- R167, LINK. -/
def evalLink (s : State) : State :=
  allPorts.foldl relink (homingSetMode (s.modAllPortFaults fun f => { f with linkWarn := false }))

/-- R167, OVERLOAD: the new mode applied to one station. -/
def reoverload (s : State) (st : Station) : State :=
  if s.faults.stations[st].overCond then overloadBegun st s else s

/-- R167, OVERLOAD: the report of a mute that ended and did not begin again. -/
def reportUnmuted (was : Vector StationFaults 24) (s : State) (st : Station) : State :=
  if was[st].mute ≠ .none && s.mute st = .none then broadcast (muteEndedReport st .setMode) s else s

/-- R167, OVERLOAD. -/
def evalOverload (s : State) : State :=
  let s1 := s.modAllStFaults fun f => { f with mute := .none, overWarn := false }
  allStations.foldl (reportUnmuted s.faults.stations) (allStations.foldl reoverload s1)

/-- R167, DESK. -/
def evalDesk (s : State) : State :=
  restartSupervision (s.modAllPortFaults fun f => { f with deskLatched := false, deskWarn := false })

/-- R167, CUE. -/
def evalCue (s : State) : State :=
  { s with faults := { s.faults with cueWarn := s.faults.modes.cue = .warn && s.cueCond } }

/-- R167, CLIP: one station whose clip flag is set. -/
def reclip (s : State) (st : Station) : State := if s.mix.clip[st] then clipPresent st s else s

/-- R167, CLIP. -/
def evalClip (s : State) : State :=
  allStations.foldl reclip (s.modAllStFaults fun f => { f with clipWarn := false })

/-- R167: class `c` takes mode `m`, is cleared, and its condition evaluated afresh. -/
def setMode (c : FaultClass) (m : Mode) (s : State) : State :=
  let s1 := { s with faults := { s.faults with modes := s.faults.modes.set c m } }
  match c with
  | .link => evalLink s1
  | .overload => evalOverload s1
  | .desk => evalDesk s1
  | .cue => evalCue s1
  | .clip => evalClip s1

end Sys2Proof.Machine
end

