-- ==== Sys2Proof/Machine/Links.lean ====
section
/-! DEFINITION. The port units: frames, link states, the bucket, the LINK condition, keys and buttons (chapter 8, R125
to R139), and the arrival of requests (R169). -/

namespace Sys2Proof.Machine

/-! The LINK condition (R133). -/

/-- R133: the link condition judged for a threshold. -/
def judgedCond (u : PortUnit) (threshold : Nat) : Bool :=
  if u.cond then !(u.up && decide (u.bucket ≤ threshold / 2)) else !u.up || decide (threshold ≤ u.bucket)

/-- R133: port `p` judges its link condition, and hands each change by `hand`. -/
def judgeWith (hand : Port → Station → Bool → State → State) (p : Port) (s : State) : State :=
  match s.live.serves p with
  | none => s
  | some st =>
    let c := judgedCond s.ports[p] (s.station st).threshold
    if c = s.ports[p].cond then s else hand p st c (s.modPort p fun u => { u with cond := c })

/-- R133: port `p` judges its link condition, and hands each change. -/
def judgePort (p : Port) (s : State) : State := judgeWith handCond p s

/-! A completion's silence (R130 to R132). -/

/-- R132: the bucket raised by 8, saturating at 255. -/
def raised (b : Nat) : Nat := min 255 (b + 8)

/-- R130 to R132: a port unit at a completion, its condition not yet judged. The 20th silent completion of an UP port
raises its loss count to 20, and LINK_DOWN does the rest. -/
def PortUnit.tick (u : PortUnit) : PortUnit :=
  if u.validSeen then { u with validSeen := false }
  else if u.up then
    if u.loss + 1 < Config.lossLimit then { u with bucket := raised u.bucket, loss := u.loss + 1 }
    else { u with loss := Config.lossLimit }
  else { u with bucket := raised u.bucket, acquire := 0 }

/-- One port unit's tick at a completion. -/
def portTick (p : Port) (s : State) : State := judgePort p (s.modPort p PortUnit.tick)

/-- Whether a port's tick is seen outside the port: its condition begins, or its loss count reaches 20. -/
def State.tickShows (s : State) (p : Port) : Bool :=
  let u := (s.ports[p]).tick
  match s.live.serves p with
  | some st => judgedCond u (s.station st).threshold ≠ u.cond || u.loss = Config.lossLimit
  | none => u.loss = Config.lossLimit

/-- The ticks of a completion: those seen outside their port in a free order (notes/assumptions/6.md). -/
def tickPorts (s : State) : State :=
  let loud := allPorts.filter s.tickShows
  inAnyOrder portTick loud.length loud ((allPorts.filter fun p => !s.tickShows p).foldl (fun t p => portTick p t) s)

/-! Link DOWN (R131). -/

/-- R131 step 1: the releases of the levels held for station `st`. -/
def releaseHeld (b : Bank) (st : Station) (held : Levels) (a : Arbiter) : Arbiter :=
  let a1 := allKeys.foldl (fun a k => if held.talk[k] then a.talkRelease b st k else a) a
  let a2 := if held.announce then a1.announceRelease st else a1
  match held.call with
  | some k => a2.callRelease b st k
  | none => a2

/-- R131 steps 1 to 4: the port unit as it goes DOWN. -/
def PortUnit.down (u : PortUnit) : PortUnit :=
  { u with up := false, held := Levels.released, bucket := 255, loss := 0, acquire := 0, lastSeq := none,
           latest := silence, fresh := false, conceal := .silent, slot := silence }

/-- R131: port `p` goes DOWN. The authority unit takes its part before the condition is judged
(notes/assumptions/13.md). -/
def takeDown (p : Port) (s : State) : State :=
  let s1 :=
    match s.activeOf p with
    | some st => if s.ports[p].awaiting then s else s.modArb (releaseHeld s.live st s.ports[p].held)
    | none => s
  judgePort p (authPortDown p (s1.modPort p PortUnit.down))

/-! Edges (R138) and reconciliation (R12, R139, R146). -/

/-- R138 step 1. -/
def talkEdges (st : Station) (old new : Levels) (s : State) : State :=
  allKeys.foldl (fun s k =>
    if new.talk[k] = old.talk[k] then s
    else if new.talk[k] then talkPress st k s
    else s.modArb (Arbiter.talkRelease s.live st k)) s

/-- R138 step 2. -/
def callEdges (st : Station) (old new : Levels) (s : State) : State :=
  if new.call = old.call then s
  else
    let s1 := match old.call with
      | some k => s.modArb (Arbiter.callRelease s.live st k)
      | none => s
    match new.call with
    | some k => callPress st k s1
    | none => s1

/-- R138 step 3. -/
def announceEdges (st : Station) (old new : Levels) (s : State) : State :=
  if new.announce = old.announce then s
  else if new.announce then announcePress st s
  else s.modArb (·.announceRelease st)

/-- R138 step 4. -/
def ackEdges (st : Station) (old new : Levels) (s : State) : State :=
  allLamps.foldl (fun s j => if new.acks[j] && !old.acks[j] then ackEdge st j s else s) s

/-- R138: the edges of a taken frame for station `st`. -/
def edges (st : Station) (old new : Levels) (s : State) : State :=
  ackEdges st old new (announceEdges st old new (callEdges st old new (talkEdges st old new s)))

/-- R12, R146: the releases a reconciling frame calls for. -/
def reconcileArb (b : Bank) (st : Station) (new : Levels) (a : Arbiter) : Arbiter :=
  let a1 := allKeys.foldl (fun a k => if a.talk[st][k] ≠ .off && !new.talk[k] then a.talkRelease b st k else a) a
  let a2 := a1.endCalls b st fun k => new.call ≠ some k
  if a2.ann[st] ≠ .none && !new.announce then a2.announceRelease st else a2

/-- R139, R146: the levels of a reconciling frame on port `p`. -/
def reconcile (p : Port) (new : Levels) (s : State) : State :=
  match s.activeOf p with
  | some st =>
    let s1 := s.modArb (reconcileArb s.live st new)
    if s.homing[st].state = .switching then failOver st p s1 else s1
  | none => s

/-! Arrival of requests (R169). -/

/-- R171: an answer given by the port unit. -/
def answer (p : Port) (kind tag : Byte) (r : Result) (s : State) : State :=
  s.modOut p fun o => o.putAnswer
    (if namesRequest kind then responseTo kind.toNat tag r [] else { kind := 0x80, tag := tag, code := byteOf r.code, body := [] })

/-- R169: one message judged. -/
def arrive (p : Port) (s : State) (m : Byte × Byte × List Byte) : State :=
  match decodeRequest m.1 m.2.2 with
  | none => answer p m.1 m.2.1 .badForm s
  | some r =>
    if !s.isMgmt p then answer p m.1 m.2.1 .noPermission s
    else if Config.requestLimit ≤ s.mgmt.queue.length then answer p m.1 m.2.1 .full s
    else s.modMgmt fun g => g.setQueue (g.queue ++ [⟨p, m.2.1, r⟩])

/-- R169: the message area of a taken frame. -/
def arriveArea (p : Port) (area : List Byte) (s : State) : State :=
  (parseArea area.length area).foldl (arrive p) s

/-! Frames (R127 to R130, R135). -/

/-- R135 step 2, R130: the levels of a taken frame; the frame that brings a port UP hands no edge. -/
def takeLevels (p : Port) (new : Levels) (bringsUp : Bool) (s : State) : State :=
  let u := s.ports[p]
  let s1 := s.modPort p fun u => { u with held := new, awaiting := false }
  if u.awaiting then reconcile p new s1
  else if bringsUp then s1
  else
    match s.activeOf p with
    | some st => edges st u.held new s1
    | none => s1

/-- R135: the contents of a taken frame. -/
def takeContents (p : Port) (f : UplinkFrame) (bringsUp : Bool) (s : State) : State :=
  let s1 := s.modPort p fun u => { u with latest := f.audio.getD silence, fresh := true }
  arriveArea p f.area (takeLevels p f.levels bringsUp s1)

/-- R129 steps 1 to 3. -/
def PortUnit.valid (u : PortUnit) (seq : Byte) : PortUnit :=
  { u with lastSeq := some seq, bucket := u.bucket - 1, loss := 0, validSeen := true }

/-- R130: whether the next valid frame brings the port UP. -/
def PortUnit.acquires (u : PortUnit) : Bool := !u.up && decide (Config.acquireLimit ≤ u.acquire + 1)

/-- R129 step 4, R130. -/
def PortUnit.acquireStep (u : PortUnit) : PortUnit :=
  if u.up then u
  else if u.acquires then { u with up := true, acquire := 0 }
  else { u with acquire := u.acquire + 1 }

/-- R129: a valid frame. -/
def validFrame (p : Port) (f : UplinkFrame) (s : State) : State :=
  let bringsUp := (s.ports[p]).acquires
  let s1 := judgePort p (s.modPort p fun u => (u.valid f.seq).acquireStep)
  if s1.ports[p].up && !s1.marked p then takeContents p f bringsUp s1 else s1

/-- R127: a damaged frame. -/
def damagedFrame (p : Port) (s : State) : State :=
  s.modPort p fun u => if u.up then u else { u with acquire := 0 }

/-- R127 to R129: a frame received on port `p`. -/
def receive (p : Port) (bytes : List Byte) (s : State) : State :=
  match parseUplink bytes with
  | none => damagedFrame p s
  | some f => if s.ports[p].lastSeq = some f.seq then s else validFrame p f s

/-- R130: whether a frame received now brings port `p` UP. -/
def State.bringsUp (s : State) (p : Port) (bytes : List Byte) : Bool :=
  match parseUplink bytes with
  | none => false
  | some f => s.ports[p].lastSeq ≠ some f.seq && (s.ports[p]).acquires

/-! Take (R134). -/

/-- R134: what port `p` hands at a Take; `b` is the state when it was applied, and `due` says that the homing
controller's part is still to come. Until it has come, a station that it resets takes no LINK fault and no return by a
port's judgement: the reset looks at the condition itself (R153; notes/assumptions/41.md). -/
def portTake (b : State) (due : Bool) (p : Port) (s : State) : State :=
  match b.live.serves p, s.live.serves p with
  | some st, none => if b.linkCond p then linkEnded p st s else s
  | none, none => s
  | _, some st =>
    if due && takeResets b.live.stations[st] s.live.stations[st] then judgeWith superviseCond p s else judgePort p s

/-- R134: the condition of a port that begins to serve a station, or another, is judged as if it were absent. -/
def unjudgedUnit (old new : Bank) (s : State) (p : Port) : PortUnit :=
  if old.serves p = new.serves p then s.ports[p] else { s.ports[p] with cond := false }

/-- R134, R157: the supervisor holds no condition of such a port. -/
def unjudgedFaults (old new : Bank) (s : State) (p : Port) : PortFaults :=
  if old.serves p = new.serves p then s.faults.ports[p] else { s.faults.ports[p] with linkCond := false }

/-- R134: the ports whose station a Take changes hold no condition until they judge it. -/
def unjudgePorts (old new : Bank) (s : State) : State :=
  { s with ports := Vector.ofFn (unjudgedUnit old new s),
           faults := { s.faults with ports := Vector.ofFn (unjudgedFaults old new s) } }

/-- Whether port `p` has anything to hand at a Take, once the new bank stands (R134). -/
def takeShows (b : State) (s : State) (p : Port) : Bool :=
  match b.live.serves p, s.live.serves p with
  | some _, none => b.linkCond p
  | none, none => false
  | _, some st => judgedCond s.ports[p] (s.station st).threshold ≠ s.ports[p].cond

end Sys2Proof.Machine
end

