-- ==== Sys2Proof/Machine/Banks.lean ====
section
/-! DEFINITION. The route banks: entry writes (R25, R26, R28), Take and Revert (R31 to R36), and the windows that write
them (R30, R70, R174). -/

namespace Sys2Proof.Machine

/-! Entry writes (R25, R26, R28, R60, R61). -/

/-- Whether two records name a port in common. -/
def sharesPort (a b : StationRecord) : Bool :=
  a.primary = b.primary || b.spare = some a.primary || a.spare = some b.primary
    || (a.spare.isSome && a.spare = b.spare)

/-- R25: whether an enabled record's ports are named by another enabled record of a bank. -/
def Bank.portsTaken (b : Bank) (st : Station) (r : StationRecord) : Bool :=
  r.enabled && allStations.any fun t => t ≠ st && b.stations[t].enabled && sharesPort r b.stations[t]

/-- R25: a station record written; `none` is BAD_VALUE. -/
def Bank.writeStation (b : Bank) (st : Station) (bs : List Byte) : Option Bank :=
  match decodeStation bs with
  | some r => if b.portsTaken st r then none else some { b with stations := b.stations.set st r }
  | none => none

/-- R26: a net record written. -/
def Bank.writeNet (b : Bank) (n : Net) (bs : List Byte) : Option Bank :=
  (decodeNet bs).map fun r => { b with nets := b.nets.set n r }

/-- R28: the listening cells of a row other than column `n`. -/
def Bank.listening (b : Bank) (st : Station) (n : Net) : Nat :=
  (allNets.filter fun m => m ≠ n && 0 < (b.cell st m).level).length

/-- R28: whether another cell of the row carries a key. -/
def Bank.keyTaken (b : Bank) (st : Station) (n : Net) (k : Key) : Bool :=
  allNets.any fun m => m ≠ n && (b.cell st m).key = some k

/-- R28: whether a cell passes the row checks. -/
def Bank.cellFits (b : Bank) (st : Station) (n : Net) (c : Cell) : Bool :=
  !(0 < c.level && 4 ≤ b.listening st n)
    && match c.key with
      | some k => !b.keyTaken st n k
      | none => true

/-- Replaces a cell. -/
def Bank.setCell (b : Bank) (st : Station) (n : Net) (c : Cell) : Bank :=
  { b with cells := upd b.cells st fun row => row.set n c }

/-- R28: a cell written. -/
def Bank.writeCell (b : Bank) (st : Station) (n : Net) (bs : List Byte) : Option Bank :=
  match decodeCell bs with
  | some c => if b.cellFits st n c then some (b.setCell st n c) else none
  | none => none

/-- R60, R61, R62: a cue record written; BUSY where both rules would refuse it. -/
def writeCue (c : CueIx) (bs : List Byte) (s : State) : Result × State :=
  if s.isActive c then (.busy, s)
  else
    match decodeCue c bs with
    | some r => (.ok, s.modTable fun t => { t with records := t.records.set c r })
    | none => (.badValue, s)

/-- An EDIT write's result. -/
def editResult (b : Option Bank) (s : State) : Result × State :=
  match b with
  | some e => (.ok, { s with edit := e })
  | none => (.badValue, s)

/-- The cell at a place of a MATRIX window's order (R174). -/
def cellAt (byNet : Bool) (i : Nat) : Station × Net :=
  if byNet then (Fin.ofNat 24 (i % 24), Fin.ofNat 16 (i / 24)) else (Fin.ofNat 24 (i / 16), Fin.ofNat 16 (i % 16))

/-- The place of a cell in a MATRIX window's order. -/
def placeOf (byNet : Bool) (st n : Nat) : Nat := if byNet then 24 * n + st else 16 * st + n

/-- R175: one entry written at index `i` of a window's table. -/
def writeEntry (t : Table) (byNet : Bool) (i : Nat) (bs : List Byte) (s : State) : Result × State :=
  match t with
  | .stations => editResult (s.edit.writeStation (Fin.ofNat 24 i) bs) s
  | .nets => editResult (s.edit.writeNet (Fin.ofNat 16 i) bs) s
  | .matrix => editResult (s.edit.writeCell (cellAt byNet i).1 (cellAt byNet i).2 bs) s
  | .cues => writeCue (Fin.ofNat 256 i) bs s

/-- R177, R185: the entry read at index `i` of a window's table. -/
def readEntry (t : Table) (byNet : Bool) (i : Nat) (s : State) : List Byte :=
  match t with
  | .stations => encodeStation s.edit.stations[Fin.ofNat 24 i]
  | .nets => encodeNet s.edit.nets[Fin.ofNat 16 i]
  | .matrix => encodeCell (s.edit.cell (cellAt byNet i).1 (cellAt byNet i).2)
  | .cues => encodeCue (s.cueRec (Fin.ofNat 256 i))

/-! The marks of windows (R30, R70, R173, R174). -/

/-- R30, R70: the mark of a window's table is set. -/
def setUnverified (t : Table) (s : State) : State :=
  match t with
  | .cues => s.modTable fun x => { x with unverified := true }
  | .stations => { s with unverified := true }
  | .nets => { s with unverified := true }
  | .matrix => { s with unverified := true }

/-- R176: the mark of a window's table is cleared. -/
def clearUnverified (t : Table) (s : State) : State :=
  match t with
  | .cues => s.modTable fun x => { x with unverified := false }
  | .stations => { s with unverified := false }
  | .nets => { s with unverified := false }
  | .matrix => { s with unverified := false }

/-- The window closed. -/
def closeWindow (s : State) : State := s.modMgmt fun m => { m with window := none }

/-- R174: an open window ends before its Window Close, setting its mark if it was check-required. -/
def endWindow (s : State) : State :=
  match s.mgmt.window with
  | some w => closeWindow (if w.checkRequired then setUnverified w.table s else s)
  | none => s

/-! Take (R33, R35). -/

/-- R33: TAKE_ABANDONED. -/
def reportAbandoned (c : CueIx) (s : State) : State := reportCue 0xCF c 0 0 0 s

/-- R33: the requester's answer, if the Take has one. -/
def takeAnswer (o : TakeOrigin) (r : Result) (s : State) : State :=
  match o with
  | .requester p tag => takeRespond p tag r s
  | .cue _ => s

/-- R33: a Take abandoned while UNVERIFIED is set. -/
def abandonTake (o : TakeOrigin) (s : State) : State :=
  match o with
  | .requester p tag => takeRespond p tag .unverified s
  | .cue c => reportAbandoned c s

/-- R35: the parts the blocks take of a Take. -/
inductive TakePart where
  | arbiter | homing | cue | lamps | authority | faults
  | port (p : Port)
  deriving DecidableEq, Repr

/-- One block's part of a Take; `b` is the state when it was applied, and `due` says that the homing controller's part is
still to come. -/
def TakePart.take (b : State) (due : Bool) : TakePart → State → State
  | .arbiter => fun s => s.modArb (Arbiter.applyTake b.live s.live)
  | .homing => fun s => homingTake b.live s.live s
  | .cue => fun s => cueTake b.live s.live s
  | .lamps => fun s => s.modLamps (LampState.applyTake b.live s.live)
  | .authority => fun s => authTake b.live s.live b.homing s
  | .faults => fun s => { s with faults := s.faults.applyTake b.live s.live }
  | .port p => portTake b due p

/-- R118: whether the authority unit has anything to do. -/
def authTakeShows (b s : State) : Bool :=
  match s.auth.holding with
  | none => false
  | some h => holdingAfterTake b.live s.live b.homing h ≠ some h

/-- Whether a part has anything to do; a part with nothing to do takes no place in the order. -/
def TakePart.shows (b s : State) : TakePart → Bool
  | .arbiter => Arbiter.applyTake b.live s.live s.arb ≠ s.arb
  | .homing => !(takeResetList b.live s.live).isEmpty
  | .cue => s.hasTargets (takeLoses b.live s.live)
  | .lamps => LampState.applyTake b.live s.live s.lamps ≠ s.lamps
  | .authority => authTakeShows b s
  | .faults => (s.faults.applyTake b.live s.live).stations ≠ s.faults.stations
  | .port p => takeShows b s p

/-- Every part, the ports ascending. -/
def allTakeParts : List TakePart :=
  [.arbiter, .homing, .cue, .lamps, .authority, .faults] ++ allPorts.map .port

/-- Whether a part waits for the authority unit's: the parts that can hand the authority unit a move or an isolation do,
so that it judges the holder by the Take alone (R118; notes/assumptions/40.md). -/
def TakePart.afterAuthority : TakePart → Bool
  | .homing => true
  | .port _ => true
  | .arbiter => false
  | .cue => false
  | .lamps => false
  | .authority => false
  | .faults => false

/-- The parts of a list that may be taken next. -/
def takeReady (l : List TakePart) : List TakePart :=
  l.filter fun x => !(x.afterAuthority && l.contains .authority)

/-- R35: the parts of a Take, in a free order but for the authority unit's (notes/assumptions/6.md,
notes/assumptions/40.md). The fuel is the list's length. -/
def takeParts (b : State) : Nat → List TakePart → State → State
  | fuel + 1, l, s =>
    let ready := takeReady l
    match ready[chooseIx s.freeCount ready.length]? with
    | some x => takeParts b fuel (l.erase x) (x.take b ((l.erase x).contains .homing) (s.spend ready.length))
    | none => s
  | 0, _, s => s

/-- R35: the blocks' parts of a Take. -/
def handTake (b s : State) : State :=
  let parts := allTakeParts.filter (TakePart.shows b s)
  takeParts b parts.length parts s

/-- R33: EDIT copied into LIVE, the requester answered and the consequences handed. -/
def copyTake (o : TakeOrigin) (s : State) : State :=
  handTake s (takeAnswer o .ok (unjudgePorts s.live s.edit { s with live := s.edit }))

/-- R33: the pending Take is applied, or abandoned. -/
def applyTake (s : State) : State :=
  match s.takePending with
  | none => s
  | some o =>
    let s1 := { s with takePending := none, takeDue := false }
    if s.unverified then abandonTake o s1 else copyTake o s1

end Sys2Proof.Machine
end

