-- ==== Sys2Proof/Machine/Flags.lean ====
section
/-! DEFINITION. The flag computations: the status summary in its two views (R111, R168, R186). -/

namespace Sys2Proof.Machine

/-- R168: whether an enabled station is in SWITCHING or ISOLATED. -/
def State.astray (s : State) (st : Station) : Bool :=
  (s.station st).enabled && (s.homing[st].state = .switching || s.homing[st].state = .isolated)

/-- R168: FAULT. -/
def State.flagFault (s : State) : Bool :=
  (allStations.any fun st => s.homing[st].anyMark || s.astray st || s.mute st ≠ .none)
    || allPorts.any fun p => s.faults.ports[p].deskLatched

/-- R168: WARN. -/
def State.flagWarn (s : State) : Bool :=
  (allPorts.any fun p => s.faults.ports[p].linkWarn || s.faults.ports[p].deskWarn)
    || (allStations.any fun st => s.faults.stations[st].overWarn || s.faults.stations[st].clipWarn)
    || s.faults.cueWarn

/-- R168: LINK. -/
def State.flagLink (s : State) : Bool := allStations.any s.stationLink

/-- R168, R186: the management view for port `p`. -/
def State.managementView (s : State) (p : Port) : Byte :=
  byteOf (bit 0 s.flagFault + bit 1 s.flagWarn + bit 2 s.flagLink + bit 3 s.cueCond + bit 4 s.mgmt.hold
    + bit 5 (s.auth.holder = some p) + bit 6 s.faults.resetFlag + bit 7 s.out[p].lost)

/-- R111: whether a station shows ON_SPARE. -/
def State.onSpare (s : State) (st : Station) : Bool :=
  s.homing[st].state = .switching || s.homing[st].state = .onSpare

/-- R111, R186: the station view for station `st`. -/
def State.stationView (s : State) (st : Station) : Byte :=
  byteOf (bit 0 s.flagFault + bit 1 (s.mute st ≠ .none) + bit 2 (s.stationLink st) + bit 3 (s.onSpare st))

/-- R106, R111: the summary sent on port `p`. -/
def State.summary (s : State) (p : Port) : Byte :=
  if s.isMgmt p then s.managementView p
  else
    match s.live.serves p with
    | some st => s.stationView st
    | none => 0

end Sys2Proof.Machine
end

