-- ==== Sys2Proof/Machine/Mix.lean ====
section
/-! DEFINITION. The mix engine (chapter 3, R37 to R56). The arithmetic is in `Int`: sums are carried at full width, and
`Int` division by 256 rounds toward minus infinity (R52). -/

namespace Sys2Proof.Machine

/-- The 24 values of one quantity of the mix. -/
abbrev Wave := Vector Int 24

/-- R52: a product divided by 256, rounded toward minus infinity. -/
def scale (x : Int) (g : Nat) : Int := x * (g : Int) / 256

/-- R49 step 3: a value saturated to the sample range. -/
def saturate (x : Int) : Int := if x < -32768 then -32768 else if 32767 < x then 32767 else x

/-- A value as a sample. -/
def toSample (x : Int) : Sample := BitVec.ofInt 16 (saturate x)

/-- A wave as a block, saturated. -/
def Wave.toBlock (w : Wave) : Block := w.map toSample

/-- A block's samples as numbers. -/
def waveOf (b : Block) : Wave := b.map BitVec.toInt

/-! Input slots (R136, R137). -/

/-- R136: a sample halved, rounding toward minus infinity. -/
def halve (x : Sample) : Sample := BitVec.ofInt 16 (x.toInt / 2)

/-- R136: a port unit sets its input slot. -/
def PortUnit.setSlot (u : PortUnit) : PortUnit :=
  if u.fresh then { u with slot := u.latest, conceal := .fresh, fresh := false }
  else if u.conceal = .fresh then { u with slot := u.latest.map halve, conceal := .halved, fresh := false }
  else { u with slot := silence, conceal := .silent, fresh := false }

/-- R137: whether a sample is at full scale. -/
def fullScale (x : Sample) : Bool := x.toInt = -32768 || x.toInt = 32767

/-- Whether a block holds a sample at full scale. -/
def Block.hasFullScale (b : Block) : Bool := b.any fullScale

/-- R24, R137: whether a kind has audio in. -/
def Kind.hasAudio (k : Kind) : Bool := k ≠ .cueStation

/-- R137: whether station `st` is handed a full-scale mark, and the mark; a station for which none is handed counts as
clear (R159). -/
def State.fullScaleMark (s : State) (st : Station) : Bool :=
  (s.station st).enabled && (s.station st).kind.hasAudio
    && match s.homing[st].active with
      | some p => Block.hasFullScale s.ports[p].slot
      | none => false

/-! Inputs and sums (R40 to R42). -/

/-- R40: whether a station is a listener. -/
def State.listener (s : State) (st : Station) : Bool :=
  (s.station st).enabled && (s.station st).kind.talks && !s.isolated st

/-- R41: a station's input block. -/
def State.inputBlock (s : State) (st : Station) : Block :=
  if (s.station st).enabled && (s.station st).kind.hasAudio && !s.isolated st then
    match s.homing[st].active with
    | some p => s.ports[p].slot
    | none => silence
  else silence

/-- R41: a station's talk-scaled input. -/
def State.talkScaled (s : State) (st : Station) : Wave :=
  (waveOf (s.inputBlock st)).map fun r => scale r (s.station st).talkGain

/-- Whether a station holds a slot in a net. -/
def Arbiter.holdsSlot (a : Arbiter) (st : Station) (n : Net) : Bool := a.holders[n].any fun h => h.st = st

/-- R42: a net sum, over talk-scaled inputs `xs`. -/
def netSum (a : Arbiter) (xs : Vector Wave 24) (n : Net) : Wave :=
  Vector.ofFn fun k => (a.holders[n].map fun h => xs[h.st][k]).sum

/-- R45: the station programme is taken from, where it gives any. -/
def State.programmeStation (s : State) : Option Station :=
  match s.mgmt.settings.progSource with
  | some st => if (s.station st).enabled && (s.station st).kind = .source && !s.isolated st then some st else none
  | none => none

/-- R45: the programme block. -/
def State.programme (s : State) : Block :=
  match s.programmeStation with
  | some st => s.inputBlock st
  | none => silence

/-! Ducking (R47, R48). -/

/-- R47: whether talk on net `n` ducks listener `st`'s programme. -/
def State.ducks (s : State) (st : Station) (n : Net) : Bool :=
  0 < (s.live.cell st n).level && (s.net n).enabled && (s.net n).progDuck
    && s.arb.holders[n].any fun h => h.st ≠ st

/-- R47: the duck target of a listener. -/
def State.duckTarget (s : State) (st : Station) : Nat :=
  if allNets.any (s.ducks st) then (s.station st).duckDepth else 256

/-- R48: a duck gain moved one step toward its target. -/
def duckMove (gain target step : Nat) : Nat :=
  if gain < target then min (gain + step) target else if target < gain then max (gain - step) target else gain

/-- R38 stage 2, R48: a station's duck gain at a completion. -/
def State.duckNext (s : State) (st : Station) : Nat :=
  if s.listener st then duckMove s.mix.duck[st] (s.duckTarget st) s.mgmt.settings.duckStep else 256

/-! The listener's mix (R43 to R50). -/

/-- What a completion forms once for all listeners: talk-scaled inputs, net sums and programme. -/
structure MixInput where
  xs : Vector Wave 24
  sums : Vector Wave 16
  prog : Wave
  deriving DecidableEq, Repr

/-- The inputs of a completion. -/
def State.mixInput (s : State) : MixInput :=
  let xs : Vector Wave 24 := Vector.ofFn s.talkScaled
  { xs := xs, sums := Vector.ofFn (netSum s.arb xs), prog := waveOf s.programme }

/-- R43, R44: the contribution of net `n` to listener `st`'s sample `k`. -/
def State.contribution (s : State) (m : MixInput) (st : Station) (k : Fin 24) (n : Net) : Int :=
  let level := (s.live.cell st n).level
  if level = 0 then 0
  else scale (m.sums[n][k] - if s.arb.holdsSlot st n then m.xs[st][k] else 0) level

/-- R46: the programme contribution. -/
def programmePart (p : Int) (level duck : Nat) : Int := scale (scale p level) duck

/-- R49 steps 1 and 2: the master-scaled total. -/
def State.masterScaled (s : State) (m : MixInput) (duck : Nat) (st : Station) (k : Fin 24) : Int :=
  scale ((allNets.map (s.contribution m st k)).sum + programmePart m.prog[k] (s.station st).progLevel duck)
    (s.station st).master

/-- R50: the announce holder that replaces listener `st`'s mix. -/
def State.announceFor (s : State) (st : Station) : Option Station :=
  match s.arb.announce with
  | some a => if a ≠ st && (s.station st).recvAnn then some a else none
  | none => none

/-- R49, R50: a listener's 24 values before saturation. -/
def State.listenWave (s : State) (m : MixInput) (duck : Nat) (st : Station) : Wave :=
  match s.announceFor st with
  | some a => (m.xs[a]).map fun x => scale x (s.station st).master
  | none => Vector.ofFn (s.masterScaled m duck st)

/-- R49 step 3, R51: whether a value is changed by saturation. -/
def clips (x : Int) : Bool := saturate x ≠ x

/-- R49, R50: a station's listen block; none for a station that is not a listener. -/
def State.listenBlock (s : State) (m : MixInput) (duck : Nat) (st : Station) : Option Block :=
  if s.listener st then some (Wave.toBlock (s.listenWave m duck st)) else none

/-- R51: a station's clip flag. -/
def State.clipNext (s : State) (m : MixInput) (duck : Nat) (st : Station) : Bool :=
  s.listener st && (s.listenWave m duck st).any clips

/-! The completion's results. -/

/-- What a completion's mix gives. -/
structure MixResult where
  input : MixInput
  duck : Vector Nat 24
  clip : Vector Bool 24
  listen : Vector (Option Block) 24
  deriving DecidableEq, Repr

/-- R38: the mix of a completion, over input slots already set. -/
def State.computeMix (s : State) : MixResult :=
  let m := s.mixInput
  let duck : Vector Nat 24 := Vector.ofFn s.duckNext
  { input := m, duck := duck, clip := Vector.ofFn fun st => s.clipNext m duck[st] st,
    listen := Vector.ofFn fun st => s.listenBlock m duck[st] st }

/-! The meter tap (R53, R180). -/

/-- R53: the samples of the measured point. -/
def State.meterSamples (s : State) (r : MixResult) : MeterPoint → Block
  | .inputSlot p => s.ports[p].slot
  | .netSum n => Wave.toBlock r.input.sums[n]
  | .listen st => r.listen[st].getD silence
  | .programme => s.programme

/-- R180: whether a station is ISOLATED or its active port is DOWN. -/
def State.stationUnfit (s : State) (st : Station) : Bool :=
  s.isolated st || match s.homing[st].active with
    | some p => !s.linkUp p
    | none => false

/-- R180: whether a point is unfit. -/
def State.meterUnfit (s : State) : MeterPoint → Bool
  | .inputSlot p => !s.linkUp p || match s.live.serves p with
    | some st => s.isolated st
    | none => false
  | .netSum _ => false
  | .listen st => s.stationUnfit st
  | .programme => match s.mgmt.settings.progSource with
    | some st => s.stationUnfit st
    | none => false

/-- R180: a sample's magnitude. -/
def magnitude (x : Sample) : Nat := x.toInt.natAbs

/-- R180: the peak after a block. -/
def peakOf (peak : Nat) (b : Block) : Nat := b.foldl (fun m x => max m (magnitude x)) peak

/-- R180: a measurement at a completion. -/
def Meter.sample (m : Meter) (b : Block) (unfit : Bool) : Meter :=
  if m.measuring then
    { m with peak := peakOf m.peak b, blocks := m.blocks + (if Block.hasFullScale b then 1 else 0),
             noSignal := m.noSignal || unfit, count := m.count + 1 }
  else { m with count := m.count + 1 }

end Sys2Proof.Machine
end

