-- ==== Sys2Proof/Machine/Downlink.lean ====
section
/-! DEFINITION. Downlink frames: their indications, their message area and their bytes (R106 to R112, R140, R141,
R182). -/

namespace Sys2Proof.Machine

/-! Indications (R106 to R110). -/

/-- Two indications of 4 bits in one byte (R182). -/
def nibbles (lo hi : Nat) : Byte := byteOf (lo + 16 * hi)

/-- R107: the talk indication of one key of the station a port serves; TALK_OFF for a CUE_STATION or SOURCE. -/
def State.talkShown (s : State) (st : Option Station) (k : Key) : Nat :=
  match st with
  | some st => if (s.station st).kind.talks then Standing.indication s.arb.talk[st][k] else 0
  | none => 0

/-- R102, R106: the lamp state shown on a port. -/
def State.lampShown (s : State) (st : Option Station) (j : Lamp) : Nat :=
  match st with
  | some st => (s.lamps.shown st j).code
  | none => 0

/-- R109: the announce indication on a port. -/
def State.announceShown (s : State) (st : Option Station) : Nat :=
  match st with
  | some st => AnnStanding.indication s.arb.ann[st]
  | none => 0

/-- R110, R182: byte 7, the homing indication with the mark of the management view. -/
def State.homingByte (s : State) (p : Port) (st : Option Station) : Byte :=
  match st with
  | some st =>
    byteOf (s.homing[st].state.code + bit 3 ((s.station st).spare = some p) + bit 4 (s.homing[st].active = some p)
      + bit 5 (s.markedFor p st) + bit 7 (s.isMgmt p))
  | none => byteOf (bit 7 (s.isMgmt p))

/-- The two bytes of a call indication (R182). -/
def callEntry (n : Net) (c : CallState) : List Byte :=
  match c with
  | .idle => []
  | .calling st _ => [byteOf n.val, byteOf st.val]
  | .holding (some st) _ => [byteOf (n.val + 16), byteOf st.val]
  | .holding none _ => [byteOf (n.val + 16), 0xFF]

/-- R108: the call indications of a station, in ascending net number. -/
def State.callEntries (s : State) (st : Station) : List (List Byte) :=
  if (s.station st).kind.talks && !s.isolated st then
    (allNets.filter fun n => 0 < (s.live.cell st n).level && s.arb.calls[n] ≠ .idle).map
      fun n => callEntry n s.arb.calls[n]
  else []

/-- Bytes 8 to 16: the call count and four call entries (R182). -/
def callBytes (es : List (List Byte)) : List Byte :=
  let shown := (es.take 4).flatten
  byteOf (es.take 4).length :: (shown ++ List.replicate (8 - shown.length) 0)

/-- R108 on a port. -/
def State.callsShown (s : State) (st : Option Station) : List Byte :=
  match st with
  | some st => callBytes (s.callEntries st)
  | none => callBytes []

/-- Bytes 1 to 16 of a downlink frame on port `p` (R182). -/
def State.indications (s : State) (p : Port) : List Byte :=
  let st := s.live.serves p
  [s.summary p, nibbles (s.talkShown st 0) (s.talkShown st 1), nibbles (s.talkShown st 2) (s.talkShown st 3),
    nibbles (s.lampShown st 0) (s.lampShown st 1), nibbles (s.lampShown st 2) (s.lampShown st 3),
    byteOf (s.announceShown st), s.homingByte p st] ++ s.callsShown st

/-! The message area (R141). -/

/-- R141: the messages moved from the head of a queue into `room` bytes, and those that stay. -/
def fillArea : Nat → List Message → List Message × List Message
  | _, [] => ([], [])
  | room, m :: ms =>
    if m.length ≤ room then
      let r := fillArea (room - m.length) ms
      (m :: r.1, r.2)
    else ([], m :: ms)

/-- The messages a port's next frame carries. -/
def State.leaving (s : State) (p : Port) : List Message := (fillArea Config.areaBytes s.out[p].queue).1

/-- The 64 bytes of a message area, its tail filled with 00h (R182). -/
def areaOf (ms : List Message) : List Byte :=
  let bs := (ms.map Message.bytes).flatten
  bs ++ List.replicate (Config.areaBytes - bs.length) 0

/-! The frame (R140, R182). -/

/-- R38 stage 4, R140: the listen block sent on port `p`. -/
def State.listenFor (s : State) (listen : Vector (Option Block) 24) (p : Port) : Option Block :=
  match s.activeOf p with
  | some st => listen[st]
  | none => none

/-- The listen count and block (R182). -/
def listenBytes : Option Block → List Byte
  | some b => byteOf 24 :: (b.toList.map sampleBytes).flatten
  | none => [0]

/-- A frame's bytes before the check. -/
def State.frameBody (s : State) (listen : Vector (Option Block) 24) (p : Port) : List Byte :=
  s.ports[p].downSeq :: (s.indications p ++ listenBytes (s.listenFor listen p) ++ areaOf (s.leaving p))

/-- R140: the downlink frame of port `p`. -/
def State.frame (s : State) (listen : Vector (Option Block) 24) (p : Port) : List Byte :=
  let body := s.frameBody listen p
  body ++ crcBytes (crc crcStart body)

/-- R140, R141: every port sends its frame; the messages moved leave their queues, and the sequences rise. -/
def sendFrames (listen : Vector (Option Block) 24) (s : State) : State :=
  { s with sent := Vector.ofFn (s.frame listen),
           out := s.out.map (fun o => { o with queue := (fillArea Config.areaBytes o.queue).2 }),
           ports := s.ports.map fun u => { u with downSeq := u.downSeq + 1 } }

end Sys2Proof.Machine
end

