-- ==== Sys2Proof/Machine/Management.lean ====
section
/-! DEFINITION. The management processor: services that wait, windows, settings, the meter, status and resets of chapter
11 (R170 to R181, R184). Each `serve…` is the serving of one request; an open window ends first (R174). -/

namespace Sys2Proof.Machine

/-! Services that wait (R171, R177, R181). -/

/-- Sets what holds the head of the request queue. -/
def setService (v : Service) (s : State) : State := s.modMgmt fun m => { m with service := v }

/-- Entries of one response of a streamed read (R177). -/
def Table.perResponse : Table → Nat
  | .matrix => 8
  | _ => 1

/-- Entries a window spans. -/
def Window.span (w : Window) : Nat := w.last + 1 - w.first

/-- R177: the response of a streamed read at position `i`, and whether it is the last. -/
def readResponse (w : Window) (tag : Byte) (i : Nat) (s : State) : Message × Bool :=
  let per := w.table.perResponse
  let count := min per (w.span - i * per)
  let last : Bool := w.span ≤ (i + 1) * per
  let entries := (List.range count).map fun j => readEntry w.table w.byNet (w.first + i * per + j) s
  (responseTo 0x03 tag .ok
      ([byteOf i, byteOf (bit 0 last), byteOf w.table.code, byteOf count] ++ entries.flatten), last)

/-- R177: a streamed read places its next response, if there is room. -/
def streamOne (s : State) : State :=
  match s.mgmt.service, s.mgmt.window with
  | .streaming p tag i, some w =>
    let r := readResponse w tag i s
    match placeResponse p r.1 s with
    | some s' => if r.2 then finishService s' else setService (.streaming p tag (i + 1)) s'
    | none => s
  | _, _ => s

/-- R177: a streamed read places responses while there is room. The fuel bounds the stream's length. -/
def streamAll : Nat → State → State
  | fuel + 1, s => streamAll fuel (streamOne s)
  | 0, s => s

/-- The longest stream: one response for each of 256 cues. -/
def streamFuel : Nat := 256

/-- R171: a response that waits is placed, if there is room. -/
def placeWaiting (s : State) : State :=
  match s.mgmt.service with
  | .waiting p m thenReset =>
    match placeResponse p m s with
    | some s' => if thenReset then setService (.resetOk p) s' else finishService s'
    | none => s
  | _ => s

/-- Whether a port's outbound queue takes a response now (R171). -/
def State.hasRoom (s : State) (p : Port) : Bool :=
  s.out[p].queue.length < Config.outboundLimit || s.out[p].queue.any Message.isReport

/-- A waiting response or streamed read placed as far as the room goes (notes/assumptions/25.md). -/
def settleService (s : State) : State :=
  match s.mgmt.service with
  | .waiting _ _ _ => placeWaiting s
  | .streaming _ _ _ => streamAll streamFuel s
  | .idle => s
  | .resetOk _ => s
  | .resetDue => s

/-! Windows (R174 to R177). -/

/-- Whether a table's index is in range, as its two bytes name it; for MATRIX a station and a net (R174, R183). -/
def indexOk (t : Table) (a b : Nat) : Bool :=
  match t with
  | .stations => a < 24
  | .nets => a < 16
  | .matrix => a < 24 && b < 16
  | .cues => a < 256

/-- A table's index as a place in the window's order. -/
def indexPlace (t : Table) (byNet : Bool) (a b : Nat) : Nat :=
  match t with
  | .matrix => placeOf byNet a b
  | .stations => a
  | .nets => a
  | .cues => a

/-- R174 steps 2 and 3: the window a Window Open opens; `none` is BAD_VALUE. -/
def windowOf (p : Port) (table flags f0 f1 l0 l1 : Byte) : Option Window :=
  match tableOf? table.toNat with
  | some t =>
    let byNet := t = .matrix && flags.getLsbD 1
    let first := indexPlace t byNet f0.toNat f1.toNat
    let last := indexPlace t byNet l0.toNat l1.toNat
    if indexOk t f0.toNat f1.toNat && indexOk t l0.toNat l1.toNat && first ≤ last then
      some { owner := p, table := t, byNet := byNet, first := first, last := last,
             checkRequired := flags.getLsbD 0, advanced := 0, check := crcStart }
    else none
  | none => none

/-- R174. -/
def serveWindowOpen (q : QueuedRequest) (table flags f0 f1 l0 l1 : Byte) (s : State) : State :=
  let s1 := endWindow s
  match windowOf q.port table flags f0 f1 l0 l1 with
  | some w => respond q .ok [] (s1.modMgmt fun m => { m with window := some w })
  | none => respond q .badValue [] s1

/-- R175: one entry written through window `w`, its result, and the window after it. -/
def writeNext (w : Window) (bs : List Byte) (s : State) : Result × Window × State :=
  if w.last < w.first + w.advanced then (.windowEnd, w, s)
  else
    let r := writeEntry w.table w.byNet (w.first + w.advanced) bs s
    (r.1, { w with advanced := w.advanced + 1, check := crc w.check bs }, r.2)

/-- R175: `n` entries of `len` bytes, in order; their results, the window and the state after them. -/
def writeAll (len : Nat) : Nat → List Byte → Window → State → List Result × Window × State
  | n + 1, bs, w, s =>
    let r := writeNext w (bs.take len) s
    let rs := writeAll len n (bs.drop len) r.2.1 r.2.2
    (r.1 :: rs.1, rs.2)
  | 0, _, w, s => ([], w, s)

/-- R175: the entries served. -/
def serveEntries (q : QueuedRequest) (w : Window) (len count : Nat) (bs : List Byte) (s : State) : State :=
  let r := writeAll len count bs w s
  respond q .ok (byteOf count :: r.1.map fun x => byteOf x.code)
    (r.2.2.modMgmt fun m => { m with window := some r.2.1 })

/-- R175. -/
def serveWriteEntries (q : QueuedRequest) (etype : Byte) (count : Nat) (bs : List Byte) (s : State) : State :=
  match s.mgmt.window with
  | none => respond q .noWindow [] s
  | some w =>
    if w.owner ≠ q.port then respond q .noWindow [] s
    else if etype.toNat ≠ w.table.code || w.table.maxEntries < count then respond q .badForm [] s
    else serveEntries q w ((entryLength w.table.code).getD 0) count bs s

/-- R177: the serving of a Read Entries, its responses placed while there is room. -/
def serveReadEntries (q : QueuedRequest) (s : State) : State :=
  match s.mgmt.window with
  | none => respond q .noWindow [] s
  | some w =>
    if w.owner ≠ q.port then respond q .noWindow [] s
    else streamAll streamFuel (setService (.streaming q.port q.tag 0) s)

/-- R176: whether a window is full-table. -/
def Window.full (w : Window) : Bool :=
  w.first = 0 && w.last + 1 = w.table.size && w.last < w.first + w.advanced

/-- R176: the result of a Close from the owner. -/
def Window.closes (w : Window) (expected : Option Word) : Result :=
  match expected with
  | none => if w.checkRequired then .checkFail else .ok
  | some e => if e = w.check then .ok else .checkFail

/-- R176: the mark after a Close from the owner. -/
def closeMark (w : Window) (expected : Option Word) (s : State) : State :=
  if w.closes expected = .checkFail then setUnverified w.table s
  else if expected.isSome && w.full then clearUnverified w.table s
  else s

/-- R176. -/
def serveWindowClose (q : QueuedRequest) (expected : Option Word) (s : State) : State :=
  match s.mgmt.window with
  | none => respond q .noWindow [] s
  | some w =>
    if w.owner ≠ q.port then respond q .noWindow [] (endWindow s)
    else respond q (w.closes expected) (le16 w.check.toNat) (closeMark w expected (closeWindow s))

/-! Take and Revert (R31, R36). -/

/-- R31. -/
def serveTake (q : QueuedRequest) (s : State) : State :=
  let s1 := endWindow s
  if s1.unverified then respond q .unverified [] s1
  else if s1.takePending.isSome then respond q .busy [] s1
  else finishService { s1 with takePending := some (.requester q.port q.tag) }

/-- R36. -/
def serveRevert (q : QueuedRequest) (s : State) : State :=
  let s1 := endWindow s
  if s1.takePending.isSome then respond q .busy [] s1
  else respond q .ok [] { s1 with edit := s1.live, unverified := false }

/-! The settings record (R178). -/

/-- R178: the settings a Settings Write carries; `none` is BAD_VALUE. -/
def settingsOf (prog high low : Byte) (step : Nat) (enable : Byte) (smin smax : Nat) : Option Settings :=
  if (prog.toNat < 24 || prog.toNat = 255) && 2 ≤ high.toNat && high.toNat ≤ 16 && low.toNat < high.toNat
      && 1 ≤ step && step ≤ 256 && enable.toNat ≤ 1 && 50 ≤ smin && smin ≤ 1000 && 200 ≤ smax && smax ≤ 5000
      && smin < smax then
    some { progSource := finOf? 24 prog.toNat, high := high.toNat, low := low.toNat, duckStep := step,
           supEnable := enable.toNat = 1, supMin := smin, supMax := smax }
  else none

/-- R178: the settings replaced, HOLD judged and supervision started or stopped. -/
def putSettings (v : Settings) (s : State) : State :=
  judgeSupervision (s.modMgmt fun m => { m with settings := v, hold := judgeHold v.high v.low m.queue.length m.hold })

/-- R178. -/
def serveSettingsWrite (q : QueuedRequest) (prog high low : Byte) (step : Nat) (enable : Byte) (smin smax : Nat)
    (s : State) : State :=
  match settingsOf prog high low step enable smin smax with
  | some v => respond q .ok [] (putSettings v (endWindow s))
  | none => respond q .badValue [] (endWindow s)

/-! Fault requests (R166, R167). -/

/-- The class and mode of a Set Mode; `none` is BAD_VALUE (R156, R167). -/
def classModeOf (cls mode : Byte) : Option (FaultClass × Mode) :=
  match faultClassOf? cls.toNat, modeOf? mode.toNat with
  | some c, some m => if permits c m then some (c, m) else none
  | _, _ => none

/-- R167. -/
def serveSetMode (q : QueuedRequest) (cls mode : Byte) (s : State) : State :=
  match classModeOf cls mode with
  | some (c, m) => respond q .ok [] (setMode c m (endWindow s))
  | none => respond q .badValue [] (endWindow s)

/-- R166. -/
def serveClearFaults (q : QueuedRequest) (s : State) : State :=
  let s1 := clearFaults (endWindow s)
  respond q .ok [s1.managementView q.port] s1

/-! Authority requests (R114 to R117, R122). -/

/-- R114: whether a request comes from the holder port. -/
def State.fromHolder (s : State) (q : QueuedRequest) : Bool := s.auth.holder = some q.port

/-- R115, R116: the outcome of a Claim from port `p`. -/
def claim (p : Port) (force : Bool) (s : State) : Result × State :=
  if !s.isMgmt p then (.noPermission, s)
  else if !s.linkUp p then (.notAvailable, s)
  else if s.faults.ports[p].deskLatched then (.barred, s)
  else
    match s.auth.holder with
    | none => (.ok, grant p false s)
    | some h =>
      if h = p then (.ok, s)
      else if force && (s.auth.deskCond || !s.linkUp h) then (.ok, forceAuthority p s)
      else (.held, s)

/-- R115, R116. -/
def serveClaim (q : QueuedRequest) (force : Bool) (s : State) : State :=
  let r := claim q.port force (endWindow s)
  respond q r.1 [portByte r.2.auth.holder] r.2

/-- R117. -/
def serveRelease (q : QueuedRequest) (s : State) : State :=
  let s1 := endWindow s
  if s1.fromHolder q then respond q .ok [] (releaseAuthority s1) else respond q .noAuthority [] s1

/-- R122: a heartbeat from the holder port. -/
def heartbeat (s : State) : Result × State :=
  match s.auth.window with
  | none => (.ok, s)
  | some w =>
    if s.mgmt.settings.supMin ≤ w.elapsed then
      (.ok, s.modAuth fun a => { a with window := some SupWindow.start, deskCond := false })
    else (.early, deskFault .early s)

/-- R122. -/
def serveHeartbeat (q : QueuedRequest) (s : State) : State :=
  let s1 := endWindow s
  if s1.fromHolder q then respond q (heartbeat s1).1 [] (heartbeat s1).2 else respond q .noAuthority [] s1

/-! Cue requests (R77, R84, R89, R90). -/

/-- The cue index in a response body; none where NEXT was not resolved (notes/assumptions/8.md). -/
def cueBody (c : Option CueIx) : List Byte :=
  match c with
  | some c => [byteOf c.val]
  | none => []

/-- The cue a request names for the body of a refusal before NEXT is resolved. -/
def CueRef.named : CueRef → Option CueIx
  | .index c => some c
  | .next => none

/-- R77 steps 4 to 7. -/
def standbyCue (c : CueIx) (s : State) : Result × State :=
  if !(s.cueRec c).enabled then (.badValue, s)
  else if s.isActive c then (.active, s)
  else if Config.activeLimit ≤ s.cues.length then (.listFull, s)
  else (.ok, placeInStandby c s)

/-- R77. -/
def serveStandby (q : QueuedRequest) (ref : CueRef) (s : State) : State :=
  let s1 := endWindow s
  if !s1.fromHolder q then respond q .noAuthority (cueBody ref.named) s1
  else if s1.table.unverified then respond q .unverified (cueBody ref.named) s1
  else
    match s1.table.resolve ref with
    | none => respond q .badValue [] s1
    | some c => respond q (standbyCue c s1).1 (cueBody (some c)) (standbyCue c s1).2

/-- R84 steps 3 to 6. -/
def goCue (c : CueIx) (force : Bool) (s : State) : Result × State :=
  match s.entry c with
  | none => (.notActive, s)
  | some e =>
    if e.state = .going then (.alreadyGone, s)
    else if e.state = .standby && (s.cueRec c).goPolicy = .strict && !force then (.notReady, s)
    else (.ok, entryGoes c force s)

/-- R84. -/
def serveGo (q : QueuedRequest) (ref : CueRef) (force : Bool) (s : State) : State :=
  let s1 := endWindow s
  if !s1.fromHolder q then respond q .noAuthority (cueBody ref.named) s1
  else
    match s1.table.resolve ref with
    | none => respond q .badValue [] s1
    | some c => respond q (goCue c force s1).1 (cueBody (some c)) (goCue c force s1).2

/-- R89 steps 2 to 4. -/
def cancelCue (c : CueIx) (s : State) : Result × State :=
  match s.entry c with
  | none => (.notActive, s)
  | some e => if e.state = .going then (.alreadyGone, s) else (.ok, cancelEntry c s)

/-- R89. -/
def serveCancel (q : QueuedRequest) (c : CueIx) (s : State) : State :=
  let s1 := endWindow s
  if !s1.fromHolder q then respond q .noAuthority (cueBody (some c)) s1
  else respond q (cancelCue c s1).1 (cueBody (some c)) (cancelCue c s1).2

/-- R90: the cues a Cancel All removes, earliest first. -/
def State.cancellable (s : State) : List CueIx := (s.cues.filter fun e => e.state ≠ .going).map (·.cue)

/-- R90. -/
def serveCancelAll (q : QueuedRequest) (s : State) : State :=
  let s1 := endWindow s
  if !s1.fromHolder q then respond q .noAuthority [0] s1
  else respond q .ok [byteOf s1.cancellable.length] (s1.cancellable.foldl (fun t c => cancelEntry c t) s1)

/-- R64 steps 2 to 4. -/
def setRegion (fixed seq : Nat) (s : State) : Result × State :=
  if !legalSplit fixed seq then (.badValue, s)
  else if !s.cues.isEmpty then (.busy, s)
  else (.ok, s.modTable (·.setRegion fixed seq))

/-- R64. -/
def serveSetRegion (q : QueuedRequest) (fixed seq : Nat) (s : State) : State :=
  let s1 := endWindow s
  if !s1.fromHolder q then respond q .noAuthority s1.table.pointerBytes s1
  else respond q (setRegion fixed seq s1).1 (setRegion fixed seq s1).2.table.pointerBytes (setRegion fixed seq s1).2

/-- R69 steps 2 to 5. -/
def setPointer (ref : PointerRef) (s : State) : Result × State :=
  match s.table.setPointer ref with
  | some t => (.ok, { s with table := t })
  | none => (.badValue, s)

/-- R69. -/
def serveSetPointer (q : QueuedRequest) (ref : PointerRef) (s : State) : State :=
  let s1 := endWindow s
  if !s1.fromHolder q then respond q .noAuthority s1.table.pointerBytes s1
  else respond q (setPointer ref s1).1 (setPointer ref s1).2.table.pointerBytes (setPointer ref s1).2

/-! Restore Station and Lamp Test (R103, R151). -/

/-- R151 steps 2 to 6. -/
def restoreStation (st : Station) (s : State) : Result × State :=
  if !(s.station st).enabled || !s.restores st then (.notAvailable, s)
  else (.ok, s.modHoming st fun h => { h with restorePending := true })

/-- R151. -/
def serveRestore (q : QueuedRequest) (st : Byte) (s : State) : State :=
  let s1 := endWindow s
  match finOf? 24 st.toNat with
  | none => respond q .badValue [] s1
  | some t => respond q (restoreStation t s1).1 [] (restoreStation t s1).2

/-- R103 steps 2 and 3. -/
def lampTest (st : Station) (s : State) : Result × State :=
  if !(s.station st).enabled || (s.station st).lamps = 0 then (.notAvailable, s)
  else (.ok, s.modLamps (·.startTest st (s.station st).lamps))

/-- R103. -/
def serveLampTest (q : QueuedRequest) (st : Byte) (s : State) : State :=
  let s1 := endWindow s
  match finOf? 24 st.toNat with
  | none => respond q .badValue [] s1
  | some t => respond q (lampTest t s1).1 [] (lampTest t s1).2

/-! The meter (R180). -/

/-- Point codes and indices (R183). -/
def MeterPoint.codes : MeterPoint → Nat × Nat
  | .inputSlot p => (1, p.val)
  | .netSum n => (2, n.val)
  | .listen st => (3, st.val)
  | .programme => (4, 0)

/-- The point a code and index name; the index of programme is not looked at. -/
def meterPointOf? (point index : Nat) : Option MeterPoint :=
  match point with
  | 1 => (finOf? 24 index).map .inputSlot
  | 2 => (finOf? 16 index).map .netSum
  | 3 => (finOf? 24 index).map .listen
  | 4 => some .programme
  | _ => none

/-- The mode a code names: REPEAT or not (R183). -/
def meterModeOf? (mode : Nat) : Option Bool :=
  match mode with
  | 1 => some false
  | 2 => some true
  | _ => none

/-- METER_ABORTED (R187). -/
def meterAborted (m : Meter) : Message :=
  { reportOf 0xE9 [byteOf m.point.codes.1, byteOf m.point.codes.2] with tag := m.tag }

/-- METER_RESULT (R187). -/
def meterResult (m : Meter) : Message :=
  { reportOf 0xE8 ([byteOf m.point.codes.1, byteOf m.point.codes.2] ++ le16 m.peak
      ++ [byteOf m.blocks, byteOf (bit 0 m.noSignal)]) with tag := m.tag }

/-- R180: a running measurement aborted. -/
def abortMeter (s : State) : State :=
  match s.mgmt.meter with
  | some m => placeReport m.port (meterAborted m) (s.modMgmt fun g => { g with meter := none })
  | none => s

/-- R180: a measurement begins in BLANK. -/
def Meter.begin (p : Port) (tag : Byte) (point : MeterPoint) (repeats : Bool) : Meter :=
  { port := p, tag := tag, point := point, repeats := repeats, measuring := false, count := 0, peak := 0,
    blocks := 0, noSignal := false }

/-- R180. -/
def serveMeterStart (q : QueuedRequest) (point index mode : Byte) (s : State) : State :=
  let s1 := endWindow s
  match meterPointOf? point.toNat index.toNat, meterModeOf? mode.toNat with
  | some pt, some rep =>
    respond q .ok [] ((abortMeter s1).modMgmt fun g => { g with meter := some (Meter.begin q.port q.tag pt rep) })
  | _, _ => respond q .badValue [] s1

/-- R180. -/
def serveMeterStop (q : QueuedRequest) (s : State) : State :=
  respond q .ok [] ((endWindow s).modMgmt fun g => { g with meter := none })

/-- R180: a window begins. -/
def Meter.startWindow (m : Meter) : Meter :=
  { m with measuring := true, count := 0, peak := 0, blocks := 0, noSignal := false }

/-- Whether the blank count has reached 20. -/
def Meter.blankDone (m : Meter) : Bool := !m.measuring && m.count = Config.meterBlank

/-- Whether the window count has reached 50. -/
def Meter.windowDone (m : Meter) : Bool := m.measuring && m.count = Config.meterWindow

/-- R180: the blank ends. -/
def endBlank (s : State) : State := s.modMgmt fun g => { g with meter := g.meter.map Meter.startWindow }

/-- R180: the result is reported; under REPEAT a new window begins. -/
def reportMeter (s : State) : State :=
  match s.mgmt.meter with
  | some m =>
    placeReport m.port (meterResult m)
      (s.modMgmt fun g => { g with meter := if m.repeats then some m.startWindow else none })
  | none => s

/-! Get Status (R179, R184). -/

/-- A window's index bytes, as in Window Open (R184). -/
def Window.indexBytes (w : Window) (i : Nat) : List Byte :=
  match w.table with
  | .matrix => [byteOf (cellAt w.byNet i).1.val, byteOf (cellAt w.byNet i).2.val]
  | .stations => [byteOf i, 0]
  | .nets => [byteOf i, 0]
  | .cues => [byteOf i, 0]

/-- The 11 window bytes of the device status. -/
def windowBytes : Option Window → List Byte
  | some w =>
    [byteOf (bit 0 true + bit 1 w.checkRequired + bit 2 w.byNet), byteOf w.table.code, byteOf w.owner.val]
      ++ w.indexBytes w.first ++ w.indexBytes w.last ++ le16 w.advanced ++ le16 w.check.toNat
  | none => List.replicate 11 0

/-- The 9 meter bytes of the device status. -/
def meterBytes : Option Meter → List Byte
  | some m =>
    [byteOf (bit 0 true + bit 1 m.repeats + bit 2 m.measuring + bit 3 m.noSignal), byteOf m.port.val, m.tag,
      byteOf m.point.codes.1, byteOf m.point.codes.2, byteOf m.count] ++ le16 m.peak ++ [byteOf m.blocks]
  | none => List.replicate 9 0

/-- The settings record, laid out as the Settings Write body (R184). -/
def settingsBytes (v : Settings) : List Byte :=
  [byteOf (v.progSource.elim 255 (·.val)), byteOf v.high, byteOf v.low] ++ le16 v.duckStep
    ++ [byteOf (bit 0 v.supEnable)] ++ le16 v.supMin ++ le16 v.supMax

/-- R184: the status of the device, for the reader's port. -/
def State.deviceStatus (s : State) (p : Port) : List Byte :=
  [byteOf (bit 0 s.unverified + bit 1 s.takePending.isSome + bit 2 s.table.unverified + bit 3 s.table.ended
      + bit 4 s.faults.cueWarn + bit 5 s.faults.resetFlag + bit 6 s.mgmt.hold + bit 7 s.auth.window.isSome),
    byteOf s.table.fixedSize] ++ le16 s.table.seqSize
  ++ [byteOf s.table.pointer.val, portByte s.auth.holder, s.auth.holding.elim 0 Holding.byte]
  ++ le16 (s.auth.window.elim 0 (·.elapsed))
  ++ [byteOf s.faults.modes.link.code, byteOf s.faults.modes.overload.code, byteOf s.faults.modes.desk.code,
      byteOf s.faults.modes.cue.code, byteOf s.faults.modes.clip.code, byteOf s.mgmt.queue.length]
  ++ windowBytes s.mgmt.window ++ meterBytes s.mgmt.meter ++ settingsBytes s.mgmt.settings ++ [s.managementView p]

/-- R184: the status of a port. -/
def State.portStatus (s : State) (p : Port) : List Byte :=
  let u := s.ports[p]
  let f := s.faults.ports[p]
  [byteOf (bit 0 u.up + bit 1 (s.linkCond p) + bit 2 f.linkWarn + bit 3 f.deskWarn + bit 4 f.deskLatched),
    byteOf u.acquire, byteOf u.loss, byteOf u.bucket, byteOf u.conceal.code,
    byteOf ((s.live.serves p).elim 255 (·.val))]

/-- R184: the status of a station. -/
def State.stationStatus (s : State) (st : Station) : List Byte :=
  let h := s.homing[st]
  let f := s.faults.stations[st]
  encodeStation (s.station st)
  ++ [byteOf h.state.code, portByte h.active,
      byteOf (bit 0 h.primFailed + bit 1 h.spareFailed + bit 2 h.restorePending), byteOf (h.switchRem.getD 0)]
  ++ le16 s.mix.duck[st]
  ++ [byteOf (bit 0 s.mix.clip[st] + bit 1 (s.stationLink st) + bit 2 f.overCond + bit 3 f.overWarn + bit 4 f.clipWarn),
      byteOf f.setRun, byteOf f.clearRun, byteOf f.mute.code]
  ++ allKeys.map (fun k => byteOf (Standing.code s.arb.talk[st][k])) ++ [byteOf (AnnStanding.code s.arb.ann[st])]

/-- Eight list entries, each a station then its talk key, unused ones 00h (R184). -/
def holdBytes (l : List Hold) : List Byte :=
  let bs := (l.map fun h => [byteOf h.st.val, byteOf h.key.val]).flatten
  bs ++ List.replicate (16 - bs.length) 0

/-- The five call bytes of a net's status (R184). -/
def callStatus : CallState → List Byte
  | .idle => [0, 0, 0, 0, 0]
  | .calling st k => [1, byteOf st.val, byteOf k.val, 0, 0]
  | .holding c rem => [2, byteOf (c.elim 255 (·.val)), 0] ++ le16 rem

/-- R184: the status of a net. -/
def State.netStatus (s : State) (n : Net) : List Byte :=
  encodeNet (s.net n) ++ [byteOf s.arb.holders[n].length] ++ holdBytes s.arb.holders[n]
  ++ [byteOf s.arb.waits[n].length] ++ holdBytes s.arb.waits[n] ++ callStatus s.arb.calls[n]

/-- Deadline codes and the remaining time (R184). -/
def Deadline.status : Deadline → List Byte
  | .none => [0, 0, 0]
  | .running r => byteOf 1 :: le16 r
  | .expired => [2, 0, 0]
  | .stopped => [3, 0, 0]

/-- The target states of an entry in eight bytes (R184). -/
def targetBytes (ts : List TargetState) : List Byte :=
  (ts.map fun t => byteOf t.code) ++ List.replicate (8 - ts.length) 0

/-- The 18 bytes of an active entry at a place of the list (R184). -/
def CueEntry.status (e : CueEntry) (place : Nat) : List Byte :=
  [byteOf e.state.code, byteOf place] ++ targetBytes e.targets ++ e.deadline.status
  ++ [byteOf (bit 0 e.follow.isSome + bit 1 e.byFollow + bit 2 e.unready + bit 3 e.forced)]
  ++ le16 (e.follow.elim 0 (·.remaining)) ++ le16 (if e.state = .going then e.goHold else 0)

/-- R99, R184: the status of a cue. -/
def State.cueStatus (s : State) (c : CueIx) : List Byte :=
  encodeCue (s.cueRec c)
  ++ match s.entry c with
    | some e => e.status (s.cues.findIdx fun x => x.cue = c)
    | none => List.replicate 18 0

/-- The items of a Get Status (R179, R183). -/
inductive StatusItem where
  | device
  | port (p : Port)
  | station (st : Station)
  | net (n : Net)
  | cue (c : CueIx)
  deriving DecidableEq, Repr

/-- The item a code and number name. The number of device is not looked at, and a code above 4 names no item, which
serves as a number out of range does (notes/assumptions/31.md). -/
def statusItemOf? (item number : Nat) : Option StatusItem :=
  match item with
  | 0 => some .device
  | 1 => (finOf? 24 number).map .port
  | 2 => (finOf? 24 number).map .station
  | 3 => (finOf? 16 number).map .net
  | 4 => (finOf? 256 number).map .cue
  | _ => none

/-- R184: the body of a Get Status response, for the reader's port. -/
def State.statusBytes (s : State) (p : Port) : StatusItem → List Byte
  | .device => s.deviceStatus p
  | .port q => s.portStatus q
  | .station st => s.stationStatus st
  | .net n => s.netStatus n
  | .cue c => s.cueStatus c

/-- R172: the reader's REPORT_LOST flag is cleared by a Get Status for the device. -/
def clearLost (p : Port) (i : StatusItem) (s : State) : State :=
  if i = .device then s.modOut p fun o => { o with lost := false } else s

/-- R179. -/
def serveGetStatus (q : QueuedRequest) (item number : Byte) (s : State) : State :=
  let s1 := endWindow s
  match statusItemOf? item.toNat number.toNat with
  | some i => respond q .ok (s1.statusBytes q.port i) (clearLost q.port i s1)
  | none => respond q .badValue [] s1

/-! Soft Reset (R181). -/

/-- R181: the OK is placed, or waits; the service holds the head until the reset takes effect. -/
def serveSoftReset (q : QueuedRequest) (s : State) : State :=
  let s1 := endWindow s
  let m := responseTo 0x18 q.tag .ok []
  match placeResponse q.port m s1 with
  | some s2 => setService (.resetOk q.port) s2
  | none => setService (.waiting q.port m true) s1

/-- Whether a message is the OK of a Soft Reset. -/
def Message.isResetOk (m : Message) : Bool := m.kind = 0x98#8 && m.code = 0#8

/-- R34, R181: whether this completion's frame carries the OK of the Soft Reset in service. -/
def State.resetLeaves (s : State) : Bool :=
  match s.mgmt.service with
  | .resetOk p => (s.leaving p).any Message.isResetOk
  | _ => false

end Sys2Proof.Machine
end

