-- ==== Sys2Proof/Machine/Resets.lean ====
section
/-! DEFINITION. The three resets (R34, R37, R57, R113, R125, R126, R142, R155, R173, R178, R181). -/

namespace Sys2Proof.Machine

/-- R173: an open check-required window ended by the reset line or a soft reset sets its mark. -/
def resetMarks (s : State) : State :=
  match s.mgmt.window with
  | some w => if w.checkRequired then setUnverified w.table s else s
  | none => s

/-! Power-on. -/

/-- Application of the supply: State.reset. The commands waiting, the level of the reset line and the count of free
choices are no state of the part's and stay (notes/assumptions/18.md). -/
def powerOnState (s : State) : State :=
  { State.reset with pending := s.pending, resetLine := s.resetLine, freeCount := s.freeCount }

/-! The reset line (R126). -/

/-- R142: a station's homing after the reset line. -/
def Homing.afterLine (r : StationRecord) : Homing :=
  { Homing.init with active := if r.enabled then some r.primary else none }

/-- R57: the cue table after the reset line. -/
def CueTable.afterLine (t : CueTable) : CueTable :=
  { t with pointer := Fin.ofNat 256 t.fixedSize, ended := false }

/-- The state after the reset line: the banks, the cue records, the split and the two marks are kept. -/
def lineReset (s : State) : State :=
  let k := resetMarks s
  { State.reset with
    pending := s.pending, freeCount := s.freeCount, sent := s.sent,
    live := k.live, edit := k.edit, unverified := k.unverified, table := k.table.afterLine,
    homing := Vector.ofFn fun st => Homing.afterLine k.live.stations[st] }

/-! The soft reset (R181). -/

/-- R125: a port unit after a soft reset. -/
def PortUnit.soft (u : PortUnit) : PortUnit := { PortUnit.init with downSeq := u.downSeq }

/-- R142: a station's homing after a soft reset. -/
def Homing.soft (h : Homing) : Homing :=
  let k := { h with switchRem := none, restorePending := false, restoreDue := false }
  if h.state = .switching then { k with state := .isolated, active := none } else k

/-- R155: the fault supervisor after a soft reset. -/
def Faults.soft (f : Faults) : Faults := { Faults.init with modes := f.modes, resetFlag := f.resetFlag }

/-- R173, R178: the management processor after a soft reset. -/
def Management.soft (m : Management) : Management := { Management.init with settings := m.settings }

/-- R181: the state after a soft reset. -/
def applySoftReset (s : State) : State :=
  let k := resetMarks s
  { State.reset with
    pending := s.pending, freeCount := s.freeCount, sent := s.sent, resetLine := s.resetLine, opened := s.opened,
    live := k.live, edit := k.edit, unverified := k.unverified, table := k.table,
    ports := s.ports.map PortUnit.soft, homing := s.homing.map Homing.soft, faults := s.faults.soft,
    mgmt := s.mgmt.soft }

end Sys2Proof.Machine
end

