-- ==== Sys2Proof/Machine/Completion.lean ====
section
/-! DEFINITION. The block completion (R37, R38) and the events that become due at one (notes/assumptions/1.md). -/

namespace Sys2Proof.Machine

/-! The fall of the timers. -/

/-- R14. -/
def CallState.fall : CallState → CallState
  | .holding c r => .holding c (r - 1)
  | .idle => .idle
  | .calling st k => .calling st k

/-- R83. -/
def Deadline.fall : Deadline → Deadline
  | .running r => .running (r - 1)
  | .none => .none
  | .expired => .expired
  | .stopped => .stopped

/-- R93: a follow countdown at 0, or one that falls to 0, expires. -/
def Countdown.fall (c : Countdown) : Countdown :=
  { c with remaining := c.remaining - 1, due := decide (c.remaining ≤ 1) }

/-- R83, R88, R93. -/
def CueEntry.fall (e : CueEntry) : CueEntry :=
  { e with deadline := e.deadline.fall, goHold := e.goHold - 1, follow := e.follow.map Countdown.fall }

/-- R147. -/
def Homing.fall (h : Homing) : Homing := { h with switchRem := h.switchRem.map (· - 1), restoreDue := h.restorePending }

/-- R121. -/
def SupWindow.rise (smax : Nat) (w : SupWindow) : SupWindow :=
  { elapsed := w.elapsed + 1, due := decide (smax ≤ w.elapsed + 1) }

/-- R104. -/
def LampState.fall (l : LampState) : LampState := { l with timer := l.timer.map fun t => t.map (· - 1) }

/-- Every timer falls, or rises, by the 1 ms of this completion, and what waited for it becomes due. A timer started once
the completion is open, and before its frames, first falls at the next one (the model's choice, notes/assumptions/44.md). -/
def openCompletion (s : State) : State :=
  { s with
    opened := true,
    takeDue := s.takePending.isSome,
    takeWaiting := s.takeWaiting.map fun w => { w with ripe := true },
    arb := { s.arb with calls := s.arb.calls.map CallState.fall },
    cues := s.cues.map CueEntry.fall,
    lamps := s.lamps.fall,
    auth := { s.auth with window := s.auth.window.map (SupWindow.rise s.mgmt.settings.supMax) },
    homing := s.homing.map Homing.fall }

/-! Due events. -/

/-- The events that become due at a completion and are commands of their own. -/
inductive Due where
  | callHold (n : Net)
  | deadline (c : CueIx)
  | goHold (c : CueIx)
  | follow (c : CueIx)
  | switchover (st : Station)
  | supervision
  | lamp (st : Station)
  | restore (st : Station)
  | linkDown (p : Port)
  | overload (st : Station)
  | meterBlank
  | meterResult
  | service
  | softReset
  deriving DecidableEq, Repr

/-- Whether a call hold timer has reached 0. -/
def CallState.isDue : CallState → Bool
  | .holding _ r => r = 0
  | .idle => false
  | .calling _ _ => false

/-- Whether a response or a streamed read waits and there is room. -/
def State.serviceDue (s : State) : Bool :=
  match s.mgmt.service with
  | .waiting p _ _ => s.hasRoom p
  | .streaming p _ _ => s.hasRoom p
  | .idle => false
  | .resetOk _ => false
  | .resetDue => false

/-- Whether an event is due. -/
def Due.isDue (s : State) : Due → Bool
  | .callHold n => CallState.isDue s.arb.calls[n]
  | .deadline c => (s.entry c).any fun e => e.deadline = .running 0
  | .goHold c => (s.entry c).any fun e => e.state = .going && e.goHold = 0
  | .follow c => (s.entry c).any fun e => e.follow.any (·.due)
  | .switchover st => s.homing[st].state = .switching && s.homing[st].switchRem = some 0
  | .supervision => s.auth.window.any (·.due)
  | .lamp st => s.lamps.timer[st] = some 0
  | .restore st => s.homing[st].restoreDue
  | .linkDown p => s.ports[p].up && s.ports[p].loss = Config.lossLimit
  | .overload st => (s.faults.stations[st]).mark.isSome
  | .meterBlank => s.mgmt.meter.any Meter.blankDone
  | .meterResult => s.mgmt.meter.any Meter.windowDone
  | .service => s.serviceDue
  | .softReset => s.mgmt.service = .resetDue

/-- R159: the counting of a station's mark. -/
def takeMark (st : Station) (s : State) : State :=
  match s.faults.stations[st].mark with
  | some m => countMark st m s
  | none => s

/-- R104: a lamp test's end. -/
def expireLampTest (st : Station) (s : State) : State := s.modLamps (·.endTest st)

/-- R14: a call hold's end. -/
def expireCallHold (n : Net) (s : State) : State := s.modArb (·.setCall n .idle)

/-- A due event taken. -/
def Due.take : Due → State → State
  | .callHold n => expireCallHold n
  | .deadline c => expireDeadline c
  | .goHold c => expireGoHold c
  | .follow c => expireFollow c
  | .switchover st => expireSwitchover st
  | .supervision => expireSupervision
  | .lamp st => expireLampTest st
  | .restore st => applyRestore st
  | .linkDown p => takeDown p
  | .overload st => takeMark st
  | .meterBlank => endBlank
  | .meterResult => reportMeter
  | .service => settleService
  | .softReset => applySoftReset

/-- Whether the counting of a station's mark changes no condition: nothing else reads the runs, so its place in the
order of a completion's events is no matter. -/
def State.quietMark (s : State) (st : Station) : Bool :=
  match s.faults.stations[st].mark with
  | some m => ((s.faults.stations[st]).count m).overCond = s.faults.stations[st].overCond
  | none => true

/-- The marks whose counting changes no condition, counted. -/
def countQuiet (s : State) : State :=
  (allStations.filter s.quietMark).foldl (fun t st => takeMark st t) s

/-- Every event that may be due. -/
def allDue (s : State) : List Due :=
  allNets.map .callHold ++ s.cues.map (.deadline ·.cue) ++ s.cues.map (.goHold ·.cue) ++ s.cues.map (.follow ·.cue)
  ++ allStations.map .switchover ++ [.supervision] ++ allStations.map .lamp ++ allStations.map .restore
  ++ allPorts.map .linkDown ++ allStations.map .overload ++ [.meterBlank, .meterResult, .service, .softReset]

/-- The events that are due. -/
def dueNow (s : State) : List Due := (allDue s).filter (Due.isDue s)

/-- Takes the events of a list in a free order, each if it is still due when its turn comes. -/
def takeDues (l : List Due) (s : State) : State :=
  inAnyOrder (fun d t => if d.isDue t then d.take t else t) l.length l s

/-- Every event of the last completion that is still due is taken (notes/assumptions/2.md). -/
def flush (s : State) : State :=
  let s1 := countQuiet s
  takeDues (dueNow s1) s1

/-- The next completion opened, unless it is open. -/
def ensureOpen (s : State) : State := if s.opened then s else openCompletion (flush s)

/-- An event command: the event taken if it is due, or if it is due at the next completion, which it then opens; else
nothing happens (notes/assumptions/3.md). -/
def atCompletion (d : Due) (s : State) : State :=
  if d.isDue s then d.take s
  else if d.isDue (ensureOpen s) then d.take (ensureOpen s)
  else s

/-! The pending Take (R33). -/

/-- Whether the pending Take is due at this completion: not where the frame of a soft reset's OK leaves (R34). -/
def State.takeIsDue (s : State) : Bool := s.takeDue && s.takePending.isSome && !s.resetLeaves

/-- TAKE_APPLY. -/
def takeEvent (s : State) : State :=
  if s.takeIsDue then applyTake s
  else if (ensureOpen s).takeIsDue then applyTake (ensureOpen s)
  else s

/-! The completion's stages. -/

/-- R136: every port unit sets its input slot. -/
def setSlots (s : State) : State := { s with ports := s.ports.map PortUnit.setSlot }

/-- R171: the responses of Takes that waited, placed as far as there is room. -/
def placeTakeWaiting (s : State) : State :=
  s.takeWaiting.foldl (fun t w =>
    if w.ripe then
      match placeResponse w.port w.msg t with
      | some t' => t'
      | none => { t with takeWaiting := t.takeWaiting ++ [w] }
    else { t with takeWaiting := t.takeWaiting ++ [w] }) { s with takeWaiting := [] }

/-- R181: the OK of a soft reset has been sent. -/
def noteReset (left : Bool) (s : State) : State := if left then setService .resetDue s else s

/-- R48, R51: the duck gains and clip flags, and each CLIP condition handed (R164), the stations ascending (the model's
choice, notes/assumptions/35.md). -/
def putMix (r : MixResult) (s : State) : State :=
  (allStations.filter fun st => r.clip[st]).foldl (fun t st => clipPresent st t)
    { s with mix := { duck := r.duck, clip := r.clip } }

/-- R137: the full-scale marks handed. -/
def putMarks (s : State) : State :=
  { s with faults := { s.faults with stations := Vector.ofFn fun st =>
      { s.faults.stations[st] with mark := some (s.fullScaleMark st) } } }

/-- R53, R180: a running measurement takes the completion's samples. -/
def putMeter (r : MixResult) (s : State) : State :=
  s.modMgmt fun g =>
    { g with meter := g.meter.map fun m => m.sample (s.meterSamples r m.point) (s.meterUnfit m.point) }

/-- The completion's stages once its timers have fallen and its Take, if any, is applied: slots, mix, frames, the
responses of Takes, the conditions of the mix, and the port units' counts. That CLIP_WARN reports come before the reports
the counts bring, that the meter point is judged before the counts, and that a request's waiting response joins its queue
behind those reports, are the model's choices (notes/assumptions/35.md, notes/assumptions/36.md,
notes/assumptions/45.md). -/
def composeCompletion (s : State) : State :=
  let s1 := setSlots s
  let r := s1.computeMix
  let s2 := noteReset s1.resetLeaves (placeTakeWaiting (sendFrames r.listen s1))
  let s3 := putMeter r (putMarks (putMix r s2))
  { tickPorts s3 with opened := false, takeDue := false }

/-- R38: a block completion. -/
def blockCompletion (s : State) : State :=
  let s1 := ensureOpen s
  composeCompletion (if s1.takeIsDue then applyTake s1 else s1)

end Sys2Proof.Machine
end

