-- ==== Sys2Proof/Machine/Supply.lean ====
section
/-! DEFINITION. The commands of the supply and the reset line, and how every other command meets an asserted line. -/

namespace Sys2Proof.Machine

/-- The outcome of a step of the part. -/
abbrev Outcome := Host.Outcome State Fault Refusal

/-- A command while the part runs; while the reset line is asserted nothing is received and no timer runs (R37, R126;
notes/assumptions/18.md). -/
def running (f : State → State) (s : State) : Outcome := .next (if s.resetLine then s else f s)

/-- A command while the part runs, after a response that waits for room has been placed (R171;
notes/assumptions/25.md, notes/assumptions/45.md). -/
def settled (f : State → State) (s : State) : Outcome := running (fun t => f (settleService t)) s

/-- POWER_ON (R37). -/
def execPowerOn (s : State) : Outcome := .next (powerOnState s)

/-- RESET_LINE_ASSERT (R126). -/
def execResetLineAssert (s : State) : Outcome := .next { s with resetLine := true }

/-- RESET_LINE_RELEASE (R37, R126): the reset-line values, if the line was asserted. -/
def execResetLineRelease (s : State) : Outcome := .next (if s.resetLine then lineReset s else s)

/-- SOFT_RESET_EFFECT (R181). -/
def execSoftResetEffect (s : State) : Outcome := settled (atCompletion .softReset) s

end Sys2Proof.Machine
end

