-- ==== Sys2Proof/Machine/Frames.lean ====
section
/-! DEFINITION. The commands of the station links: frames that arrive, and links that go UP and DOWN. -/

namespace Sys2Proof.Machine

/-- A port whose 20th silent completion has come is DOWN before its next frame is judged (R131). -/
def settleDown (p : Port) (s : State) : State := if (Due.linkDown p).isDue s then takeDown p s else s

/-- UPLINK_FRAME (R127 to R129, R135). -/
def execUplinkFrame (p : Port) (bytes : List Byte) (s : State) : Outcome :=
  settled (fun t => receive p bytes (settleDown p t)) s

/-- LINK_UP (R130): the frame that brings a port UP; any other frame is no such event. -/
def linkUpEvent (p : Port) (bytes : List Byte) (s : State) : State :=
  if s.bringsUp p bytes then receive p bytes s else s

/-- LINK_UP (R130). -/
def execLinkUp (p : Port) (bytes : List Byte) (s : State) : Outcome :=
  settled (fun t => linkUpEvent p bytes (settleDown p t)) s

/-- LINK_DOWN (R131). -/
def execLinkDown (p : Port) (s : State) : Outcome := settled (atCompletion (.linkDown p)) s

end Sys2Proof.Machine
end

