-- ==== Sys2Proof/Machine/Requests.lean ====
section
/-! DEFINITION. The commands that serve the request at the head of the request queue (R170). Each serves it if it is a
request of the command's kind and no service holds the head; otherwise nothing happens (notes/assumptions/4.md). -/

namespace Sys2Proof.Machine

/-- A supervision window that has expired is taken before a request is served (R122; notes/assumptions/25.md). -/
def settleSupervision (s : State) : State := if Due.supervision.isDue s then expireSupervision s else s

/-- A meter phase that has ended is taken before a request is served (R180; notes/assumptions/25.md). -/
def settleMeter (s : State) : State :=
  if Due.meterBlank.isDue s then endBlank s else if Due.meterResult.isDue s then reportMeter s else s

/-- What is taken before a request is served. -/
def settleEvents (s : State) : State := settleMeter (settleSupervision s)

/-- The head of the request queue, where no service holds it (R170). -/
def State.head (s : State) : Option QueuedRequest :=
  if s.mgmt.service = .idle then s.mgmt.queue.head? else none

/-- R170: the head of the queue served by `sel`, where it is a request of the command's kind; `pre` is taken first. -/
def serveHead (pre : State → State) (sel : QueuedRequest → Option (State → State)) (s : State) : State :=
  match (pre s).head.bind sel with
  | some f => f (pre s)
  | none => s

/-- A request command. -/
def serving (sel : QueuedRequest → Option (State → State)) (s : State) : Outcome :=
  settled (serveHead settleEvents sel) s

/-- WINDOW_OPEN (R174). -/
def execWindowOpen (s : State) : Outcome :=
  serving (fun q => match q.req with
    | .windowOpen t fl f0 f1 l0 l1 => some (serveWindowOpen q t fl f0 f1 l0 l1)
    | _ => none) s

/-- WRITE_ENTRIES (R175). -/
def execWriteEntries (s : State) : Outcome :=
  serving (fun q => match q.req with
    | .writeEntries et n bs => some (serveWriteEntries q et n bs)
    | _ => none) s

/-- READ_ENTRIES (R177). -/
def execReadEntries (s : State) : Outcome :=
  serving (fun q => match q.req with
    | .readEntries => some (serveReadEntries q)
    | _ => none) s

/-- WINDOW_CLOSE (R176). -/
def execWindowClose (s : State) : Outcome :=
  serving (fun q => match q.req with
    | .windowClose e => some (serveWindowClose q e)
    | _ => none) s

/-- TAKE (R31). -/
def execTake (s : State) : Outcome :=
  serving (fun q => match q.req with
    | .take => some (serveTake q)
    | _ => none) s

/-- REVERT (R36). -/
def execRevert (s : State) : Outcome :=
  serving (fun q => match q.req with
    | .revert => some (serveRevert q)
    | _ => none) s

/-- SETTINGS_WRITE (R178). -/
def execSettingsWrite (s : State) : Outcome :=
  serving (fun q => match q.req with
    | .settingsWrite pr hi lo stp en mn mx => some (serveSettingsWrite q pr hi lo stp en mn mx)
    | _ => none) s

/-- SET_MODE (R167). -/
def execSetMode (s : State) : Outcome :=
  serving (fun q => match q.req with
    | .setMode c m => some (serveSetMode q c m)
    | _ => none) s

/-- CLEAR_FAULTS (R166). -/
def execClearFaults (s : State) : Outcome :=
  serving (fun q => match q.req with
    | .clearFaults => some (serveClearFaults q)
    | _ => none) s

/-- CLAIM (R115). -/
def execClaim (s : State) : Outcome :=
  serving (fun q => match q.req with
    | .claim f => some (serveClaim q f)
    | _ => none) s

/-- RELEASE (R117). -/
def execRelease (s : State) : Outcome :=
  serving (fun q => match q.req with
    | .release => some (serveRelease q)
    | _ => none) s

/-- HEARTBEAT (R122). -/
def execHeartbeat (s : State) : Outcome :=
  serving (fun q => match q.req with
    | .heartbeat => some (serveHeartbeat q)
    | _ => none) s

/-- STANDBY (R77). -/
def execStandby (s : State) : Outcome :=
  serving (fun q => match q.req with
    | .standby r => some (serveStandby q r)
    | _ => none) s

/-- GO (R84). -/
def execGo (s : State) : Outcome :=
  serving (fun q => match q.req with
    | .go r f => some (serveGo q r f)
    | _ => none) s

/-- CANCEL (R89). -/
def execCancel (s : State) : Outcome :=
  serving (fun q => match q.req with
    | .cancel c => some (serveCancel q c)
    | _ => none) s

/-- CANCEL_ALL (R90). -/
def execCancelAll (s : State) : Outcome :=
  serving (fun q => match q.req with
    | .cancelAll => some (serveCancelAll q)
    | _ => none) s

/-- SET_REGION (R64). -/
def execSetRegion (s : State) : Outcome :=
  serving (fun q => match q.req with
    | .setRegion f l => some (serveSetRegion q f l)
    | _ => none) s

/-- SET_POINTER (R69). -/
def execSetPointer (s : State) : Outcome :=
  serving (fun q => match q.req with
    | .setPointer r => some (serveSetPointer q r)
    | _ => none) s

/-- RESTORE_STATION (R151). -/
def execRestoreStation (s : State) : Outcome :=
  serving (fun q => match q.req with
    | .restoreStation st => some (serveRestore q st)
    | _ => none) s

/-- LAMP_TEST (R103). -/
def execLampTest (s : State) : Outcome :=
  serving (fun q => match q.req with
    | .lampTest st => some (serveLampTest q st)
    | _ => none) s

/-- METER_START (R180). -/
def execMeterStart (s : State) : Outcome :=
  serving (fun q => match q.req with
    | .meterStart pt ix md => some (serveMeterStart q pt ix md)
    | _ => none) s

/-- METER_STOP (R180). -/
def execMeterStop (s : State) : Outcome :=
  serving (fun q => match q.req with
    | .meterStop => some (serveMeterStop q)
    | _ => none) s

/-- GET_STATUS (R179): every event of the last completion is taken first, so that no timer is read at 0
(notes/assumptions/25.md). -/
def execGetStatus (s : State) : Outcome :=
  settled (serveHead flush fun q => match q.req with
    | .getStatus it num => some (serveGetStatus q it num)
    | _ => none) s

/-- SOFT_RESET (R181). -/
def execSoftReset (s : State) : Outcome :=
  serving (fun q => match q.req with
    | .softReset => some (serveSoftReset q)
    | _ => none) s

end Sys2Proof.Machine
end

