-- ==== Sys2Proof/Machine/Timers.lean ====
section
/-! DEFINITION. The block completion and the commands that become due at one. -/

namespace Sys2Proof.Machine

/-- BLOCK_COMPLETION (R38). -/
def execBlockCompletion (s : State) : Outcome := settled blockCompletion s

/-- OVERLOAD_COUNT (R159). -/
def execOverloadCount (st : Station) (s : State) : Outcome := settled (atCompletion (.overload st)) s

/-- CALL_HOLD_EXPIRY (R14). -/
def execCallHoldExpiry (n : Net) (s : State) : Outcome := settled (atCompletion (.callHold n)) s

/-- ACK_DEADLINE_EXPIRY (R83). -/
def execAckDeadlineExpiry (c : CueIx) (s : State) : Outcome := settled (atCompletion (.deadline c)) s

/-- GO_HOLD_EXPIRY (R88). -/
def execGoHoldExpiry (c : CueIx) (s : State) : Outcome := settled (atCompletion (.goHold c)) s

/-- FOLLOW_COUNTDOWN_EXPIRY (R93, R94). -/
def execFollowCountdownExpiry (c : CueIx) (s : State) : Outcome := settled (atCompletion (.follow c)) s

/-- SWITCHOVER_TIMEOUT (R147). -/
def execSwitchoverTimeout (st : Station) (s : State) : Outcome := settled (atCompletion (.switchover st)) s

/-- SUPERVISION_WINDOW_EXPIRY (R123). -/
def execSupervisionWindowExpiry (s : State) : Outcome := settled (atCompletion .supervision) s

/-- LAMP_TEST_EXPIRY (R104). -/
def execLampTestExpiry (st : Station) (s : State) : Outcome := settled (atCompletion (.lamp st)) s

/-- METER_BLANK_END (R180). -/
def execMeterBlankEnd (s : State) : Outcome := settled (atCompletion .meterBlank) s

/-- METER_RESULT (R180). -/
def execMeterResult (s : State) : Outcome := settled (atCompletion .meterResult) s

/-- TAKE_APPLY (R33). -/
def execTakeApply (s : State) : Outcome := settled takeEvent s

/-- RESTORE_APPLY (R152). -/
def execRestoreApply (st : Station) (s : State) : Outcome := settled (atCompletion (.restore st)) s

/-- RESPONSE_PLACED_AFTER_WAIT (R171). -/
def execResponsePlacedAfterWait (s : State) : Outcome := running placeWaiting s

/-- READ_ENTRIES_CONTINUE (R177). -/
def execReadEntriesContinue (s : State) : Outcome := running streamOne s

end Sys2Proof.Machine
end

