-- ==== Sys2Proof/Machine/Dispatch.lean ====
section
/-! DEFINITION. The meaning of every command, one arm per row of spec/opcode_table.json. -/

namespace Sys2Proof.Machine

def exec (i : Instr) (s : State) : Host.Outcome State Fault Refusal :=
  match i with
  | .powerOn => Sys2Proof.Machine.execPowerOn s
  | .resetLineAssert => Sys2Proof.Machine.execResetLineAssert s
  | .resetLineRelease => Sys2Proof.Machine.execResetLineRelease s
  | .blockCompletion => Sys2Proof.Machine.execBlockCompletion s
  | .overloadCount st => Sys2Proof.Machine.execOverloadCount st s
  | .uplinkFrame p bytes => Sys2Proof.Machine.execUplinkFrame p bytes s
  | .linkUp p bytes => Sys2Proof.Machine.execLinkUp p bytes s
  | .linkDown p => Sys2Proof.Machine.execLinkDown p s
  | .callHoldExpiry n => Sys2Proof.Machine.execCallHoldExpiry n s
  | .ackDeadlineExpiry c => Sys2Proof.Machine.execAckDeadlineExpiry c s
  | .goHoldExpiry c => Sys2Proof.Machine.execGoHoldExpiry c s
  | .followCountdownExpiry c => Sys2Proof.Machine.execFollowCountdownExpiry c s
  | .switchoverTimeout st => Sys2Proof.Machine.execSwitchoverTimeout st s
  | .supervisionWindowExpiry => Sys2Proof.Machine.execSupervisionWindowExpiry s
  | .lampTestExpiry st => Sys2Proof.Machine.execLampTestExpiry st s
  | .meterBlankEnd => Sys2Proof.Machine.execMeterBlankEnd s
  | .meterResult => Sys2Proof.Machine.execMeterResult s
  | .takeApply => Sys2Proof.Machine.execTakeApply s
  | .restoreApply st => Sys2Proof.Machine.execRestoreApply st s
  | .softResetEffect => Sys2Proof.Machine.execSoftResetEffect s
  | .responsePlacedAfterWait => Sys2Proof.Machine.execResponsePlacedAfterWait s
  | .readEntriesContinue => Sys2Proof.Machine.execReadEntriesContinue s
  | .windowOpen => Sys2Proof.Machine.execWindowOpen s
  | .writeEntries => Sys2Proof.Machine.execWriteEntries s
  | .readEntries => Sys2Proof.Machine.execReadEntries s
  | .windowClose => Sys2Proof.Machine.execWindowClose s
  | .take => Sys2Proof.Machine.execTake s
  | .revert => Sys2Proof.Machine.execRevert s
  | .settingsWrite => Sys2Proof.Machine.execSettingsWrite s
  | .setMode => Sys2Proof.Machine.execSetMode s
  | .clearFaults => Sys2Proof.Machine.execClearFaults s
  | .claim => Sys2Proof.Machine.execClaim s
  | .release => Sys2Proof.Machine.execRelease s
  | .heartbeat => Sys2Proof.Machine.execHeartbeat s
  | .standby => Sys2Proof.Machine.execStandby s
  | .go => Sys2Proof.Machine.execGo s
  | .cancel => Sys2Proof.Machine.execCancel s
  | .cancelAll => Sys2Proof.Machine.execCancelAll s
  | .setRegion => Sys2Proof.Machine.execSetRegion s
  | .setPointer => Sys2Proof.Machine.execSetPointer s
  | .restoreStation => Sys2Proof.Machine.execRestoreStation s
  | .lampTest => Sys2Proof.Machine.execLampTest s
  | .meterStart => Sys2Proof.Machine.execMeterStart s
  | .meterStop => Sys2Proof.Machine.execMeterStop s
  | .getStatus => Sys2Proof.Machine.execGetStatus s
  | .softReset => Sys2Proof.Machine.execSoftReset s

end Sys2Proof.Machine
end

