-- ==== Sys2Proof/Machine/Step.lean ====
section
/-! DEFINITION. The step of the part: the command at the front of its queue. -/

namespace Sys2Proof.Machine

/-- Takes the command at the front of the queue; with none waiting the part idles (notes/assumptions/5.md). -/
def step (s : State) : Host.Outcome State Fault Refusal :=
  match s.pending with
  | [] => .next s
  | c :: rest => exec c { s with pending := rest }

/-- The command that a table word spells put at the front of the queue; the table gives no row bits, so no word spells
one (notes/assumptions/28.md). -/
def State.withFetchWord (s : State) (nbits w : Nat) : State :=
  match decodeTableWord nbits w with
  | some c => { s with pending := c :: s.pending }
  | none => s

end Sys2Proof.Machine
end

