-- ==== Sys2Proof/Safety.lean ====
section
/-! DEFINITION. What the statements mean by a run that does not stop, by a part that is free to take a command, and by
a request being served; and the invariants of the part. -/

namespace Sys2Proof.Machine

/-- A step that answers a next state. -/
def Runs (s : State) : Prop := ∃ s', step s = .next s'

/-! A part free to take a command. -/

/-- Whether a response or a streamed read waits for room (R171, R177). -/
def Service.waits : Service → Bool
  | .waiting _ _ _ => true
  | .streaming _ _ _ => true
  | .idle => false
  | .resetOk _ => false
  | .resetDue => false

/-- The reset line is not asserted (R126) and nothing waits for room in an outbound queue (R171). -/
structure Calm (s : State) : Prop where
  line : s.resetLine = false
  noWait : s.mgmt.service.waits = false

/-- No event of the last completion is still to be taken (notes/assumptions/1.md). -/
def NoneDue (s : State) : Prop := ∀ d : Due, d.isDue s = false

/-- Request `q` is served by the next request command of its kind: it stands at the head of the request queue, nothing
holds the head (R170), and no supervision window or meter phase has just run out (notes/assumptions/25.md). -/
structure Serves (s : State) (q : QueuedRequest) : Prop where
  line : s.resetLine = false
  idle : s.mgmt.service = .idle
  first : s.mgmt.queue.head? = some q
  window : ∀ w, s.auth.window = some w → w.due = false
  meter : ∀ m, s.mgmt.meter = some m → m.blankDone = false ∧ m.windowDone = false

/-- The events that are commands of their own, each with its command. -/
def eventOf : Instr → Option Due
  | .overloadCount st => some (.overload st)
  | .linkDown p => some (.linkDown p)
  | .callHoldExpiry n => some (.callHold n)
  | .ackDeadlineExpiry c => some (.deadline c)
  | .goHoldExpiry c => some (.goHold c)
  | .followCountdownExpiry c => some (.follow c)
  | .switchoverTimeout st => some (.switchover st)
  | .supervisionWindowExpiry => some .supervision
  | .lampTestExpiry st => some (.lamp st)
  | .meterBlankEnd => some .meterBlank
  | .meterResult => some .meterResult
  | .restoreApply st => some (.restore st)
  | .softResetEffect => some .softReset
  | _ => none

/-- Whether a check-required window is open on a table of the EDIT bank (R30). -/
def State.bankCheckOpen (s : State) : Bool :=
  match s.mgmt.window with
  | some w => w.checkRequired && w.table ≠ .cues
  | none => false

/-- Whether a check-required window is open on the cue table (R70). -/
def State.cueCheckOpen (s : State) : Bool :=
  match s.mgmt.window with
  | some w => w.checkRequired && w.table = .cues
  | none => false

/-- R174, R30, R70: an open window ended before its Window Close: its mark is set if it was check-required. -/
def windowEnded (s : State) : State :=
  { s with unverified := s.unverified || s.bankCheckOpen,
           table := { s.table with unverified := s.table.unverified || s.cueCheckOpen },
           mgmt := { s.mgmt with window := none } }

/-- The state from which a completion forms its slots, its mix and its frames: the timers have fallen, and the pending
Take, if one is due, has been applied or abandoned (R33, R38). -/
def State.composed (s : State) : State :=
  if (ensureOpen s).takeIsDue then applyTake (ensureOpen s) else ensureOpen s

/-! The edges of a taken frame and the releases of a reconciling one, in the words of the rules (R138, R12). -/

/-- R138 step 1, for talk key `k`: a press or a release where the held level and the new one differ. -/
def handTalk (st : Station) (old new : Levels) (k : Key) (t : State) : State :=
  if new.talk[k] = old.talk[k] then t
  else if new.talk[k] then talkPress st k t
  else { t with arb := t.arb.talkRelease t.live st k }

/-- R138 step 2, its first half: the release of the call key held before. -/
def handCallEnd (st : Station) (old new : Levels) (t : State) : State :=
  match old.call with
  | some k => if new.call = old.call then t else { t with arb := t.arb.callRelease t.live st k }
  | none => t

/-- R138 step 2, its second half: the press of the call key held now. -/
def handCallStart (st : Station) (old new : Levels) (t : State) : State :=
  match new.call with
  | some k => if new.call = old.call then t else callPress st k t
  | none => t

/-- R138 step 3: the announce key. -/
def handAnnounce (st : Station) (old new : Levels) (t : State) : State :=
  if new.announce = old.announce then t
  else if new.announce then announcePress st t
  else { t with arb := t.arb.announceRelease st }

/-- R138 step 4, for acknowledge button `j`: only its press is an edge. -/
def handAck (st : Station) (old new : Levels) (j : Lamp) (t : State) : State :=
  if new.acks[j] && !old.acks[j] then ackEdge st j t else t

/-- R138: the edges of a taken frame in their order. -/
def handEdges (st : Station) (old new : Levels) (t : State) : State :=
  let afterTalk := handTalk st old new 3 (handTalk st old new 2 (handTalk st old new 1 (handTalk st old new 0 t)))
  let afterAnnounce := handAnnounce st old new (handCallStart st old new (handCallEnd st old new afterTalk))
  handAck st old new 3 (handAck st old new 2 (handAck st old new 1 (handAck st old new 0 afterAnnounce)))

/-- R12: talk key `k` is released where it stands and the levels show it released. -/
def freeTalk (b : Bank) (st : Station) (new : Levels) (k : Key) (a : Arbiter) : Arbiter :=
  if a.talk[st][k] ≠ .off ∧ new.talk[k] = false then a.talkRelease b st k else a

/-- R12: a call of station `st` whose key the levels do not show held becomes a holding one, or ends (R7). -/
def freeCalls (b : Bank) (st : Station) (new : Levels) (a : Arbiter) : Arbiter :=
  { a with calls := Vector.ofFn fun n : Net => match a.calls[n] with
    | .calling u k =>
      if u = st ∧ new.call ≠ some k then
        if (b.nets[n]).callHold = 0 then .idle else .holding (some st) (b.nets[n]).callHold
      else .calling u k
    | c => c }

/-- R12: the announce key is released where it stands and the levels show it released. -/
def freeAnnounce (st : Station) (new : Levels) (a : Arbiter) : Arbiter :=
  if a.ann[st] ≠ .none ∧ new.announce = false then a.announceRelease st else a

/-- R12: everything that stands and that the levels of a reconciling frame show released is released. -/
def freeReleased (b : Bank) (st : Station) (new : Levels) (a : Arbiter) : Arbiter :=
  let afterTalk := freeTalk b st new 3 (freeTalk b st new 2 (freeTalk b st new 1 (freeTalk b st new 0 a)))
  freeAnnounce st new (freeCalls b st new afterTalk)

/-! The parts of a Take (R35). -/

/-- The blocks' parts of a Take in the order of a list, each with the free count that it finds; a part is told whether
the homing controller's is still to come. -/
def takeAlong (b : State) : List (TakePart × Nat) → State → State
  | [], s => s
  | (x, n) :: rest, s => takeAlong b rest (x.take b (rest.any fun y => y.1 = .homing) { s with freeCount := n })

/-- R118: the authority unit's part comes before every part that can hand it a move or an isolation
(notes/assumptions/40.md). -/
def AuthorityFirst (l : List TakePart) : Prop :=
  ∀ before x after, l = before ++ x :: after → (x = .homing ∨ ∃ p, x = .port p) → .authority ∉ after

/-! The reports of lost targets (R96, R81). -/

/-- R96, R81: the reports about an entry of cue `c` whose targets of a list become LOST one after another, from its state
and its target states: TARGET_LOST, and behind it CUE_READY or CUE_UNREADY where the entry's readiness changes
(notes/assumptions/33.md). -/
def tellLosses (c : CueIx) (policy : AckPolicy) :
    List (Nat × Station × Lamp × TargetState) → EntryState → List TargetState → State → State
  | [], _, _, s => s
  | (i, st, j, _) :: rest, es, ts, s =>
    let left := ts.set i .lost
    let ready := policy.satisfied left
    let told := reportCue 0xC4 c st.val j.val 0 s
    if es = .standby ∧ ready = true then tellLosses c policy rest .ready left (reportCue 0xC0 c 0 0 0 told)
    else if es = .ready ∧ ready = false then tellLosses c policy rest .standby left (reportCue 0xC1 c 0 0 0 told)
    else tellLosses c policy rest es left told

/-! Capacities (R170, R171, R72). -/

/-- R170: the request queue holds 0 to 16 requests. -/
def RequestRoom (s : State) : Prop := s.mgmt.queue.length ≤ Config.requestLimit

/-- R171: each outbound queue holds 0 to 32 messages. -/
def OutboundRoom (s : State) : Prop := ∀ p : Port, s.out[p].queue.length ≤ Config.outboundLimit

/-- R72, R73: the active cue list holds at most 16 entries and never the same cue index twice, and each entry holds one
target state for each target of its record. -/
def CueListOk (s : State) : Prop :=
  s.cues.length ≤ Config.activeLimit ∧ (s.cues.map (·.cue)).Nodup
    ∧ ∀ e ∈ s.cues, e.targets.length = (s.cueRec e.cue).targets.length

/-- R75: the cue claims are those of the targets of the active entries: no two have one source, each stands on its
target's station and lamp with the rank that the entry's state and the target's give it, every target not LOST has one;
and a GOING entry's deadline does not run (R86). -/
def ClaimsOk (s : State) : Prop :=
  (s.lamps.claims.map fun x => (x.cue, x.pos)).Nodup
    ∧ (∀ x ∈ s.lamps.claims, ∃ e ∈ s.cues, e.cue = x.cue ∧ (s.cueRec e.cue).targets[x.pos]? = some (x.st, x.lamp)
        ∧ ∃ y, e.targets[x.pos]? = some y ∧ claimRank e.state y = some x.rank)
    ∧ ∀ e ∈ s.cues,
        (∀ (i : Nat) (y : TargetState), e.targets[i]? = some y → y ≠ .lost →
          ∃ x ∈ s.lamps.claims, x.cue = e.cue ∧ x.pos = i)
        ∧ (e.state = .going → ∀ r, e.deadline ≠ .running r)

/-! The settings record and HOLD (R170, R178). -/

/-- R178: the ranges of the settings record. -/
def SettingsOk (v : Settings) : Prop :=
  2 ≤ v.high ∧ v.high ≤ 16 ∧ v.low < v.high ∧ 1 ≤ v.duckStep ∧ v.duckStep ≤ 256
    ∧ 50 ≤ v.supMin ∧ v.supMin ≤ 1000 ∧ 200 ≤ v.supMax ∧ v.supMax ≤ 5000 ∧ v.supMin < v.supMax

/-- R170: HOLD is set whenever the depth is at or above the high watermark, and clear whenever it is at or below the
low watermark. -/
def HoldOk (s : State) : Prop :=
  SettingsOk s.mgmt.settings
    ∧ (s.mgmt.settings.high ≤ s.mgmt.queue.length → s.mgmt.hold = true)
    ∧ (s.mgmt.queue.length ≤ s.mgmt.settings.low → s.mgmt.hold = false)

/-! The cue table (R63, R65). -/

/-- R63, R65: the split is legal and the pointer lies within the sequence region. -/
def PointerOk (s : State) : Prop :=
  1 ≤ s.table.seqSize ∧ s.table.fixedSize + s.table.seqSize ≤ 256
    ∧ s.table.fixedSize ≤ s.table.pointer.val ∧ s.table.pointer.val < s.table.fixedSize + s.table.seqSize

/-! The port units (R125). -/

/-- R125: the ranges of a port unit's counts; the loss count reaches 20 only until LINK_DOWN is taken. -/
def PortUnit.Ok (u : PortUnit) : Prop := u.acquire ≤ 7 ∧ u.loss ≤ Config.lossLimit ∧ u.bucket ≤ 255

/-- R125: every port unit is in range. -/
def PortsOk (s : State) : Prop := ∀ p : Port, (s.ports[p]).Ok

/-- R23: every link threshold of a bank is 16 to 248, a multiple of 8. -/
def ThresholdsOk (b : Bank) : Prop :=
  ∀ st : Station, 16 ≤ (b.stations[st]).threshold ∧ (b.stations[st]).threshold ≤ 248 ∧ (b.stations[st]).threshold % 8 = 0

/-- R133, R157: a port that serves a station holds the link condition that its link state and its bucket give it against
the station's threshold, and the fault supervisor holds each port's condition as the port does. -/
def CondsOk (s : State) : Prop :=
  ThresholdsOk s.live ∧ ThresholdsOk s.edit
    ∧ ∀ p : Port, s.faults.ports[p].linkCond = s.ports[p].cond
      ∧ ∀ st, s.live.serves p = some st → judgedCond s.ports[p] (s.station st).threshold = s.ports[p].cond

/-! The duck gains (R48). -/

/-- R23: the duck depths of a bank lie in 0 to 256. -/
def DepthsOk (b : Bank) : Prop := ∀ st : Station, (b.stations[st]).duckDepth ≤ 256

/-- R48: every duck gain lies in 0 to 256; so do the duck depths it moves toward. -/
def DucksOk (s : State) : Prop := DepthsOk s.live ∧ DepthsOk s.edit ∧ ∀ st : Station, s.mix.duck[st] ≤ 256

/-! The banks (R25, R28). -/

/-- R25: no port is named by more than one enabled station record. -/
def Bank.portsApart (b : Bank) : Prop :=
  ∀ st t : Station, b.stations[st].enabled = true → b.stations[t].enabled = true → st ≠ t →
    ∀ p : Port, ¬ (b.stations[st].names p = true ∧ b.stations[t].names p = true)

/-- R28: at most 4 cells of a row have a listen level above 0, and each talk key stands in at most one cell. -/
def Bank.rowsOk (b : Bank) : Prop :=
  ∀ st : Station, (allNets.filter fun n => 0 < (b.cell st n).level).length ≤ 4
    ∧ ∀ n m : Net, ∀ k : Key, (b.cell st n).key = some k → (b.cell st m).key = some k → n = m

/-- R25, R28: both banks keep the rules of their tables. -/
def BanksOk (s : State) : Prop :=
  s.live.portsApart ∧ s.live.rowsOk ∧ s.edit.portsApart ∧ s.edit.rowsOk

/-! Homing (R142). -/

/-- R142: the active port follows the homing state; a station without a spare port has no spare mark; a disabled station
is in ON_PRIMARY with no active port, no failed mark and no restore pending. -/
def HomingFits (r : StationRecord) (h : Homing) : Prop :=
  (r.spare = none → h.spareFailed = false)
    ∧ (h.switchRem.isSome = true ↔ h.state = .switching)
    ∧ if r.enabled then
        match h.state with
        | .onPrimary => h.active = some r.primary
        | .switching => r.spare.isSome = true ∧ h.active = r.spare
        | .onSpare => r.spare.isSome = true ∧ h.active = r.spare
        | .isolated => h.active = none
      else h.state = .onPrimary ∧ h.active = none ∧ h.primFailed = false ∧ h.spareFailed = false ∧ h.restorePending = false

/-- R142: every station's homing follows its LIVE record. -/
def HomingOk (s : State) : Prop := ∀ st : Station, HomingFits (s.station st) s.homing[st]

/-! The talk arbiter (R2, R3, R9). -/

/-- R2, R3, R9: no holder list is longer than the net's LIVE slot count, no wait queue longer than 8, and a wait queue
holds entries only while every slot is held. -/
def TalkListsOk (s : State) : Prop :=
  ∀ n : Net, s.arb.holders[n].length ≤ (s.net n).slots ∧ s.arb.waits[n].length ≤ Config.waitLimit
    ∧ (s.arb.waits[n] ≠ [] → s.arb.holders[n].length = (s.net n).slots)

/-- The entries of a net: its holders, then its waiters. -/
def Arbiter.entries (a : Arbiter) (n : Net) : List Hold := a.holders[n] ++ a.waits[n]

/-- R2, R4: a station stands at most once among the holders and waiters of a net, each entry on the net whose cell carries
its key in bank `b`, and no entry on two nets; a talk standing is LIVE exactly while a holder list has the key's entry,
and WAIT exactly while a wait queue has. -/
def Arbiter.Agrees (b : Bank) (a : Arbiter) : Prop :=
  (∀ n : Net, ((a.entries n).map (·.st)).Nodup ∧ ∀ h ∈ a.entries n, (b.cell h.st n).key = some h.key)
    ∧ (∀ n m : Net, ∀ h, h ∈ a.entries n → h ∈ a.entries m → n = m)
    ∧ ∀ (st : Station) (k : Key),
        (a.talk[st][k] = .live ↔ ∃ n : Net, ⟨st, k⟩ ∈ a.holders[n])
        ∧ (a.talk[st][k] = .wait ↔ ∃ n : Net, ⟨st, k⟩ ∈ a.waits[n])

/-! The authority unit (R113). -/

/-- R113: a holding station, a window or a DESK condition only with a holder, and a holder only with a holding station. -/
def AuthorityOk (s : State) : Prop :=
  (s.auth.holder.isSome = s.auth.holding.isSome) ∧ (s.auth.holder = none → s.auth.window = none ∧ s.auth.deskCond = false)

/-- R113: authority held through a station is held on its active port, and the station is enabled with management
permitted; authority held COMMISSIONING is held on port 0, and no enabled station has management permitted. -/
def HolderOk (s : State) : Prop :=
  match s.auth.holding with
  | none => True
  | some .commissioning => s.auth.holder = some 0 ∧ s.live.anyMgmt = false
  | some (.station st) =>
    s.auth.holder = s.homing[st].active ∧ (s.station st).enabled = true ∧ (s.station st).mgmt = true

end Sys2Proof.Machine
end

