-- ==== Sys2Proof/Certificates/Slice0/Obligations.lean ====
section
/-! DEFINITION. The statements of the model, for the provers (OBLIGATIONS.json). -/

open Sys2Proof Sys2Proof.Machine

/-! The step and the queue of commands. -/

/-- A step runs the command at the front of the queue on the state with the queue's rest; with none waiting it idles
(the model's choice, notes/assumptions/5.md). -/
def Obligations.StepRunsTheFrontCommand : Prop :=
  (∀ (c : Instr) (rest : List Instr) (s : State), s.pending = c :: rest → step s = exec c { s with pending := rest })
    ∧ ∀ s : State, s.pending = [] → step s = .next s

/-- Every command answers a next state in every state, and leaves the commands that wait as they are (that no command
stops is notes/assumptions/34.md; that the resets keep the commands that wait is notes/assumptions/18.md). -/
def Obligations.EveryCommandAnswersNext : Prop :=
  ∀ (c : Instr) (s : State), ∃ t, exec c s = .next t ∧ t.pending = s.pending

/-- While the reset line is asserted every command but the supply's and the line's own leaves the part as it is: no
frame is received, no timer runs and no request is served (that the rest is held is notes/assumptions/18.md). -/
def Obligations.AssertedLineHoldsThePart : Prop :=
  ∀ (c : Instr) (s : State), s.resetLine = true → c ≠ .powerOn → c ≠ .resetLineRelease → exec c s = .next s

/-! Resets. -/

/-- Power-on gives every block its power-on values, whatever the part held. -/
def Obligations.PowerOnGivesThePowerOnValues : Prop :=
  ∀ s : State, ∃ t, exec .powerOn s = .next t
    ∧ (∀ st : Station, t.live.stations[st] = StationRecord.powerOn ∧ t.edit.stations[st] = StationRecord.powerOn)
    ∧ (∀ n : Net, t.live.nets[n] = NetRecord.powerOn ∧ t.edit.nets[n] = NetRecord.powerOn)
    ∧ (∀ (st : Station) (n : Net), t.live.cell st n = ⟨0, none⟩ ∧ t.edit.cell st n = ⟨0, none⟩)
    ∧ t.unverified = false ∧ t.takePending = none ∧ t.takeWaiting = []
    ∧ (∀ c : CueIx, t.table.records[c] = CueRecord.powerOn)
    ∧ t.table.fixedSize = 0 ∧ t.table.seqSize = 256 ∧ t.table.pointer = 0 ∧ t.table.ended = false
    ∧ t.table.unverified = false ∧ t.cues = []
    ∧ t.arb = Arbiter.init ∧ t.lamps = LampState.init ∧ t.auth = Authority.init
    ∧ (∀ st : Station, t.mix.duck[st] = 256 ∧ t.mix.clip[st] = false ∧ t.homing[st] = Homing.init)
    ∧ (∀ p : Port, t.ports[p] = PortUnit.init ∧ t.out[p] = ⟨[], false⟩)
    ∧ t.faults = Faults.init ∧ t.faults.modes = ⟨.auto, .rekey, .warn, .warn, .warn⟩ ∧ t.faults.resetFlag = true
    ∧ t.mgmt = { queue := [], hold := false, service := .idle, window := none, meter := none,
                 settings := ⟨none, 12, 4, 32, false, 200, 2000⟩ }

/-- Assertion of the line stops the part where it stands; release gives the reset-line values: the banks, the cue
records, the split and the two marks are kept (a mark is set if a check-required window on its table was open), the
pointer goes back to the first index of the sequence region, and everything else takes its reset value. A release with
no assertion before it changes nothing. That an assertion changes nothing but the line, and that the values are given at the
release, is notes/assumptions/18.md. -/
def Obligations.ResetLineKeepsTheTables : Prop :=
  (∀ s : State, exec .resetLineAssert s = .next { s with resetLine := true })
    ∧ (∀ s : State, s.resetLine = false → exec .resetLineRelease s = .next s)
    ∧ ∀ s : State, s.resetLine = true →
      ∃ t, exec .resetLineRelease s = .next t
        ∧ t.resetLine = false ∧ t.live = s.live ∧ t.edit = s.edit ∧ t.unverified = (s.unverified || s.bankCheckOpen)
        ∧ t.table = { s.table with pointer := Fin.ofNat 256 s.table.fixedSize, ended := false,
                                   unverified := s.table.unverified || s.cueCheckOpen }
        ∧ (∀ st : Station, t.homing[st] =
            { Homing.init with active := if (s.station st).enabled then some (s.station st).primary else none })
        ∧ t.takePending = none ∧ t.takeWaiting = [] ∧ t.cues = [] ∧ t.arb = Arbiter.init ∧ t.lamps = LampState.init
        ∧ t.auth = Authority.init ∧ t.mix = MixState.init ∧ t.faults = Faults.init ∧ t.mgmt = Management.init
        ∧ ∀ p : Port, t.ports[p] = PortUnit.init ∧ t.out[p] = ⟨[], false⟩

/-- The soft reset, when it takes effect, keeps what each chapter says it keeps and no more. -/
def Obligations.SoftResetKeepsWhatItSays : Prop :=
  ∀ s : State, s.resetLine = false → s.mgmt.service = .resetDue →
    ∃ t, exec .softResetEffect s = .next t
      ∧ t.live = s.live ∧ t.edit = s.edit ∧ t.unverified = (s.unverified || s.bankCheckOpen)
      ∧ t.table = { s.table with unverified := s.table.unverified || s.cueCheckOpen }
      ∧ (∀ p : Port, t.ports[p] = { PortUnit.init with downSeq := s.ports[p].downSeq } ∧ t.out[p] = ⟨[], false⟩)
      ∧ (∀ st : Station, t.homing[st] =
          { s.homing[st] with
            state := if s.homing[st].state = .switching then .isolated else s.homing[st].state,
            active := if s.homing[st].state = .switching then none else s.homing[st].active,
            switchRem := none, restorePending := false, restoreDue := false })
      ∧ t.faults = { Faults.init with modes := s.faults.modes, resetFlag := s.faults.resetFlag }
      ∧ t.mgmt = { Management.init with settings := s.mgmt.settings }
      ∧ t.takePending = none ∧ t.takeWaiting = [] ∧ t.cues = [] ∧ t.arb = Arbiter.init ∧ t.lamps = LampState.init
      ∧ t.auth = Authority.init ∧ t.mix = MixState.init

/-- R1: each of the three resets sets every item of the talk arbiter to its reset value, and a soft reset keeps LIVE. -/
def Obligations.EveryResetEmptiesTheArbiter : Prop :=
  ∀ (c : Instr) (s : State),
    (c = .powerOn ∨ (c = .resetLineRelease ∧ s.resetLine = true)
      ∨ (c = .softResetEffect ∧ s.resetLine = false ∧ s.mgmt.service = .resetDue)) →
    ∃ t, exec c s = .next t
      ∧ (∀ n : Net, t.arb.holders[n] = [] ∧ t.arb.waits[n] = [] ∧ t.arb.calls[n] = .idle)
      ∧ t.arb.announce = none
      ∧ (∀ (st : Station) (k : Key), t.arb.talk[st][k] = .off)
      ∧ (∀ st : Station, t.arb.ann[st] = .none)
      ∧ (c = .softResetEffect → t.live = s.live)

/-! The block completion. -/

/-- A completion: unless it is already open, every timer falls or rises by 1 ms; the pending Take, if due, is applied;
then slots, mix, frames and counts are formed in that order (the two forms, open and not, are notes/assumptions/1.md; that
a timer started in an open completion does not fall at it is notes/assumptions/44.md). -/
def Obligations.CompletionIsOneComputation : Prop :=
  (∀ s : State, Calm s → s.opened = true →
    exec .blockCompletion s = .next (composeCompletion (if s.takeIsDue then applyTake s else s)))
  ∧ (∀ s : State, Calm s → s.opened = false → NoneDue s →
    exec .blockCompletion s
      = .next (composeCompletion (if (openCompletion s).takeIsDue then applyTake (openCompletion s) else openCompletion s)))
  ∧ ∀ s : State, let o := openCompletion s
    (∀ (n : Net) (c : Option Station) (r : Nat), s.arb.calls[n] = .holding c r → o.arb.calls[n] = .holding c (r - 1))
    ∧ (∀ n : Net, (∀ c r, s.arb.calls[n] ≠ .holding c r) → o.arb.calls[n] = s.arb.calls[n])
    ∧ o.cues = s.cues.map (fun e =>
        { e with
          deadline := match e.deadline with
            | .running r => .running (r - 1)
            | d => d,
          goHold := e.goHold - 1,
          follow := e.follow.map fun f => { f with remaining := f.remaining - 1, due := decide (f.remaining ≤ 1) } })
    ∧ (∀ st : Station, o.lamps.timer[st] = s.lamps.timer[st].map (· - 1)
        ∧ o.homing[st] = { s.homing[st] with switchRem := s.homing[st].switchRem.map (· - 1),
                                             restoreDue := s.homing[st].restorePending })
    ∧ o.auth = { s.auth with window := s.auth.window.map fun w =>
        { elapsed := w.elapsed + 1, due := decide (s.mgmt.settings.supMax ≤ w.elapsed + 1) } }
    ∧ o.takeDue = s.takePending.isSome

/-- The command of an event takes it where it is due, or where it is due once the next completion's timers have fallen;
where it is due in neither, the command changes nothing (the model's choice, notes/assumptions/1.md and 3.md). -/
def Obligations.EventCommandsTakeWhatIsDue : Prop :=
  ∀ (c : Instr) (d : Due) (s : State), eventOf c = some d → Calm s →
    (d.isDue s = true → exec c s = .next (d.take s))
    ∧ (d.isDue s = false → s.opened = true → exec c s = .next s)
    ∧ (s.opened = false → NoneDue s →
        exec c s = .next (if d.isDue (openCompletion s) then d.take (openCompletion s) else s))

/-- Each port unit at a completion: its input slot and concealment step by the table of R136, its latest block kept, its
bucket, loss count and acquire count by R130 to R132 (the 20th silent completion leaves the loss count at 20 and the rest
to LINK_DOWN, which is notes/assumptions/1.md and 20.md), and its downlink sequence one higher. Where the link conditions
stand as judged (CondsOk), only the spare of a station that leaves ON_PRIMARY for a switchover at this completion has its
input restarted instead; and the active port of every station that has so come to SWITCHING has. -/
def Obligations.CompletionOfThePortUnits : Prop :=
  ∀ s : State, Calm s → ∃ t, exec .blockCompletion s = .next t ∧ ∀ p : Port,
    let c := s.composed
    let u := c.ports[p]
    let v := t.ports[p]
    v.slot = (if u.fresh then u.latest
      else if u.conceal = .fresh then u.latest.map (fun x => BitVec.ofInt 16 (x.toInt / 2)) else silence)
    ∧ v.fresh = false
    ∧ (CondsOk c →
        (v.latest = u.latest
          ∧ v.conceal = (if u.fresh then .fresh else if u.conceal = .fresh then .halved else .silent))
        ∨ (v.latest = silence ∧ v.conceal = .silent
          ∧ ∃ st : Station, (c.station st).spare = some p ∧ c.homing[st].state = .onPrimary
            ∧ t.homing[st].primFailed = true ∧ (t.homing[st].state = .switching ∨ t.homing[st].state = .isolated)))
    ∧ (∀ st : Station, c.homing[st].state = .onPrimary → t.homing[st].state = .switching →
        t.homing[st].active = some p → v.latest = silence ∧ v.conceal = .silent)
    ∧ v.up = u.up ∧ v.lastSeq = u.lastSeq ∧ v.validSeen = false ∧ v.downSeq = u.downSeq + 1
    ∧ v.bucket = (if u.validSeen then u.bucket else if u.up && 20 ≤ u.loss + 1 then u.bucket else min 255 (u.bucket + 8))
    ∧ v.loss = (if u.validSeen then u.loss else if u.up then min 20 (u.loss + 1) else u.loss)
    ∧ v.acquire = (if u.validSeen || u.up then u.acquire else 0)

/-- The duck gains after a completion: a listener's gain one duck step nearer its target and never past it, every other
station's 256; the target is the duck depth while another station holds a slot in a net with programme duck that the
listener hears. -/
def Obligations.CompletionMovesTheDuckGains : Prop :=
  ∀ s : State, Calm s → ∃ t, exec .blockCompletion s = .next t ∧ ∀ st : Station,
    let c := s.composed
    let gain := c.mix.duck[st]
    let target := if ∃ n : Net, 0 < (c.live.cell st n).level ∧ (c.net n).enabled = true ∧ (c.net n).progDuck = true
        ∧ ∃ h ∈ c.arb.holders[n], h.st ≠ st then (c.station st).duckDepth else 256
    t.mix.duck[st] =
      if (c.station st).enabled = true ∧ (c.station st).kind.talks = true ∧ c.homing[st].state ≠ .isolated then
        if gain < target then min (gain + c.mgmt.settings.duckStep) target
        else if target < gain then max (gain - c.mgmt.settings.duckStep) target
        else gain
      else 256

/-- Sample `k` of listener `st` before saturation, from the inputs, levels and holders that stand at a completion: the
announce holder's scaled input where it replaces the mix (R50), else each net's mix-minus at its listen level and the
ducked programme, at the master level (R43 to R49). Every division rounds toward minus infinity. -/
def ListenValue (c : State) (duck : Nat) (st : Station) (k : Fin 24) : Int :=
  let x (a : Station) : Int := (c.inputBlock a)[k].toInt * (c.station a).talkGain / 256
  let minus (n : Net) : Int :=
    (c.arb.holders[n].map fun h => x h.st).sum - (if c.arb.holders[n].any (fun h => h.st = st) then x st else 0)
  let nets : Int := (allNets.map fun n =>
    if (c.live.cell st n).level = 0 then 0 else minus n * (c.live.cell st n).level / 256).sum
  let prog : Int := (c.programme[k].toInt * (c.station st).progLevel / 256) * duck / 256
  match c.arb.announce with
  | some a =>
    if a ≠ st ∧ (c.station st).recvAnn = true then x a * (c.station st).master / 256
    else (nets + prog) * (c.station st).master / 256
  | none => (nets + prog) * (c.station st).master / 256

/-- The listen block of every listener is its mix saturated to the sample range, sent in the downlink frame of its active
port; its clip flag is set exactly when a sample was saturated, and is clear for a station that is not a listener. Each
clip flag set is handed to the fault supervisor, which under WARN sets the station's CLIP warn flag and, where it was
clear, reports CLIP_WARN (R164); the stations are handed ascending (the model's choice, notes/assumptions/35.md). -/
def Obligations.ListenBlocksAreTheMix : Prop :=
  (∀ s : State, Calm s → ∃ t, exec .blockCompletion s = .next t ∧
    let c := setSlots s.composed
    (∀ st : Station, t.mix.clip[st] = true ↔
      c.listener st = true ∧ ∃ k, ListenValue c t.mix.duck[st] st k < -32768 ∨ 32767 < ListenValue c t.mix.duck[st] st k)
    ∧ (∀ (p : Port) (st : Station), c.activeOf p = some st → c.listener st = true →
      (t.sent[p].drop 17).take 49 = 24 :: ((List.finRange 24).map fun k =>
        sampleBytes (BitVec.ofInt 16 (max (-32768) (min 32767 (ListenValue c t.mix.duck[st] st k))))).flatten)
    ∧ ∀ st : Station, t.faults.stations[st].clipWarn
        = (c.faults.stations[st].clipWarn || (c.faults.modes.clip = .warn && t.mix.clip[st])))
  ∧ (∀ (st : Station) (a : State), clipPresent st a =
      if a.faults.modes.clip = .warn ∧ a.faults.stations[st].clipWarn = false then
        broadcast (reportOf 0xE4 [byteOf st.val])
          { a with faults := { a.faults with stations := upd a.faults.stations st fun f => { f with clipWarn := true } } }
      else a)
  ∧ ∀ (r : MixResult) (a : State), putMix r a =
      (allStations.filter fun st => r.clip[st]).foldl (fun b st => clipPresent st b)
        { a with mix := { duck := r.duck, clip := r.clip } }

/-- Every port sends one frame: the downlink sequence first; then the indications of the station the port serves, or the
neutral ones (the status summary, the talk, lamp, announce and homing indications, and at most four call entries in
ascending net number); 132 bytes with a listen block for the active port of a listener and 84 without, its message area
64 bytes filled from the head of the port's queue, and the check last. A talk indication follows the key's standing, and
is TALK_OFF for a CUE_STATION or a SOURCE. -/
def Obligations.CompletionSendsEveryPortAFrame : Prop :=
  ∀ s : State, Calm s → ∃ t, exec .blockCompletion s = .next t ∧ ∀ p : Port,
    let c := setSlots s.composed
    let f := t.sent[p]
    let body := f.take (f.length - 2)
    let flag (i : Nat) (b : Bool) : Nat := if b then i else 0
    let talks (st : Station) : Bool :=
      (c.station st).kind = .desk || (c.station st).kind = .panel || (c.station st).kind = .beltpack
    let talk (st : Station) (k : Key) : Nat :=
      if talks st then match c.arb.talk[st][k] with
        | .live => 1
        | .wait => 2
        | .refused => 3
        | .muted => 4
        | .off => 0
        | .dropped => 0
      else 0
    let lamp (st : Station) (j : Lamp) : Nat := match c.lamps.shown st j with
      | .off => 0
      | .ready => 1
      | .standby => 2
      | .late => 3
      | .go => 4
      | .test => 5
    let announce (st : Station) : Nat := match c.arb.ann[st] with
      | .inChannel => 1
      | .refused => 2
      | .none => 0
      | .dropped => 0
    let homing (st : Station) : Nat := match c.homing[st].state with
      | .onPrimary => 1
      | .switching => 2
      | .onSpare => 3
      | .isolated => 4
    let calls (st : Station) : List (List Byte) :=
      if talks st && c.homing[st].state ≠ .isolated then
        ((allNets.filter fun n => 0 < (c.live.cell st n).level && c.arb.calls[n] ≠ .idle).map fun n =>
          match c.arb.calls[n] with
          | .calling u _ => [byteOf n.val, byteOf u.val]
          | .holding (some u) _ => [byteOf (n.val + 16), byteOf u.val]
          | .holding none _ => [byteOf (n.val + 16), 0xFF]
          | .idle => []).take 4
      else []
    f.length = (if (c.activeOf p).any c.listener then 132 else 84)
    ∧ f.head? = some c.ports[p].downSeq
    ∧ (c.live.serves p = none → (f.drop 1).take 16 =
        [if c.isMgmt p then c.managementView p else 0, 0, 0, 0, 0, 0, byteOf (flag 128 (c.isMgmt p))]
          ++ List.replicate 9 0)
    ∧ (∀ st, c.live.serves p = some st → (f.drop 1).take 16 =
        [if c.isMgmt p then c.managementView p else c.stationView st,
          byteOf (talk st 0 + 16 * talk st 1), byteOf (talk st 2 + 16 * talk st 3),
          byteOf (lamp st 0 + 16 * lamp st 1), byteOf (lamp st 2 + 16 * lamp st 3), byteOf (announce st),
          byteOf (homing st + flag 8 ((c.station st).spare = some p) + flag 16 (c.homing[st].active = some p)
            + flag 32 (((c.station st).primary = p && c.homing[st].primFailed)
                || ((c.station st).spare = some p && c.homing[st].spareFailed))
            + flag 128 (c.isMgmt p)),
          byteOf (calls st).length]
          ++ ((calls st).flatten ++ List.replicate (8 - 2 * (calls st).length) 0))
    ∧ (body.drop (body.length - 64)).take 64 = areaOf (fillArea 64 c.out[p].queue).1
    ∧ f = body ++ crcBytes (crc 0xFFFF body)

/-- R141: messages leave whole, in queue order, while the next one fits in the bytes that remain; the first that does not
fit closes the area, and an empty queue gives an empty area. Whatever the link's state, a port's frame carries what leaves
its queue, and the queue keeps the rest. -/
def Obligations.MessageAreaTakesFromTheHead : Prop :=
  (∀ (room : Nat) (q : List Message), let r := fillArea room q
    r.1 ++ r.2 = q ∧ (r.1.map Message.length).sum ≤ room
      ∧ ∀ m rest, r.2 = m :: rest → room < (r.1.map Message.length).sum + m.length)
  ∧ ∀ (listen : Vector (Option Block) 24) (s : State) (p : Port),
    let t := sendFrames listen s
    let moved := (fillArea 64 s.out[p].queue).1
    t.out[p] = { s.out[p] with queue := (fillArea 64 s.out[p].queue).2 }
    ∧ (t.sent[p].drop (t.sent[p].length - 66)).take 64
        = (moved.map Message.bytes).flatten ++ List.replicate (64 - (moved.map Message.length).sum) 0

/-! Events that become due at a completion. -/

/-- R14, R104, R105: a call hold that has run out makes its net IDLE; a lamp test that has run out takes away the station's
TEST claims and stops its timer. Nothing else changes. The lamp resolver's part of a Take ends the test of a station that
is disabled or a SOURCE in the new bank, takes the TEST claims off the lamps at or beyond a reduced count (the timer
stops with the last), and leaves every other test and every cue claim as it was. -/
def Obligations.CallHoldAndLampTestEnd : Prop :=
  (∀ s : State, Calm s →
    (∀ (n : Net) (c : Option Station), s.arb.calls[n] = .holding c 0 →
      exec (.callHoldExpiry n) s = .next { s with arb := { s.arb with calls := s.arb.calls.set n .idle } })
    ∧ ∀ st : Station, s.lamps.timer[st] = some 0 →
      exec (.lampTestExpiry st) s = .next { s with lamps :=
        { s.lamps with test := s.lamps.test.set st (Vector.replicate 4 false), timer := s.lamps.timer.set st none } })
  ∧ ∀ (old new : Bank) (l : LampState), let t := l.applyTake old new
    t.claims = l.claims ∧ ∀ st : Station,
      let o := old.stations[st]
      let n := new.stations[st]
      let was := if o.kind = .source then 0 else o.lampCount
      (n.enabled = false ∨ n.kind = .source → t.test[st] = Vector.replicate 4 false ∧ t.timer[st] = none)
      ∧ (n.enabled = true → n.kind ≠ .source → n.lampCount < was →
        (∀ j : Lamp, t.test[st][j] = (l.test[st][j] && j.val < n.lampCount))
        ∧ t.timer[st] = if n.lampCount = 0 then none else l.timer[st])
      ∧ (n.enabled = true → n.kind ≠ .source → was ≤ n.lampCount → t.test[st] = l.test[st] ∧ t.timer[st] = l.timer[st])

/-- R83: when the acknowledge deadline of cue `c` runs out, every WAITING target of its entry becomes LATE, and so does
its claim, each with a TARGET_LATE report in list order; targets in other states, the entry's own state, other entries and
other claims are unchanged, and so is everything but those reports and the CUE warn flag. R96, R98: the loss of stations or
lamps makes LOST every target on them, takes its claim away, and leaves each entry in STANDBY or READY as its policy then
says, with a TARGET_LOST report for each target, entries earliest first, and behind it the report of a change of readiness
(that readiness is computed after each target is notes/assumptions/33.md); R97: a station's return makes WAITING, or LATE
past the deadline, each LOST target of it that is in service, with a claim and a TARGET_BACK report. -/
def Obligations.DeadlineMakesWaitingTargetsLate : Prop :=
  (∀ (s : State) (c : CueIx) (e : CueEntry), Calm s → CueListOk s → s.entry c = some e → e.deadline = .running 0 →
    ∃ t, exec (.ackDeadlineExpiry c) s = .next t
      ∧ t.entry c = some { e with deadline := .expired,
                                  targets := e.targets.map fun x => if x = .waiting then .late else x }
      ∧ (∀ d, d ≠ c → t.entry d = s.entry d)
      ∧ (∀ i : Nat, e.targets[i]? = some .waiting → ∃ x ∈ t.lamps.claims, x.cue = c ∧ x.pos = i ∧ x.rank = .late)
      ∧ (ClaimsOk s → ∀ (i : Nat) (st : Station) (j : Lamp), e.targets[i]? = some .waiting →
          (s.cueRec c).targets[i]? = some (st, j) → ⟨c, i, st, j, .late⟩ ∈ t.lamps.claims)
      ∧ (∀ x : Claim, (x.cue ≠ c ∨ e.targets[x.pos]? ≠ some .waiting) → (x ∈ t.lamps.claims ↔ x ∈ s.lamps.claims))
      ∧ t.faults.cueWarn = (s.faults.cueWarn || (s.faults.modes.cue = .warn && e.targets.any (· = .waiting)))
      ∧ (s.auth.holder = none → t.out = s.out)
      ∧ t.out = ((((s.cueRec c).targets.zip e.targets).filter fun x => x.2 = .waiting).foldl
          (fun u x => reportCue 0xC3 c x.1.1.val x.1.2.val 0 u) s).out
      ∧ t = { s with cues := t.cues, out := t.out, lamps := { s.lamps with claims := t.lamps.claims },
                     faults := { s.faults with cueWarn := t.faults.cueWarn } })
  ∧ (∀ (st : Station) (s : State), cueIsolated st s = loseTargets (fun u _ => u = st) s)
  ∧ (∀ (old new : Bank) (s : State), cueTake old new s = loseTargets (fun st j =>
      let o := old.stations[st]
      let n := new.stations[st]
      !n.enabled || o.primary ≠ n.primary || o.spare ≠ n.spare || (if n.kind = .source then 0 else n.lampCount) ≤ j.val) s)
  ∧ (∀ (s : State) (hit : Station → Lamp → Bool), CueListOk s →
    let t := loseTargets hit s
    let struck (e : CueEntry) (i : Nat) : Bool := (s.cueRec e.cue).targets[i]?.any fun y => hit y.1 y.2
    let left (e : CueEntry) : List TargetState := e.targets.mapIdx fun i x => if struck e i then .lost else x
    t.cues = s.cues.map (fun e =>
        { e with
          targets := left e,
          state := if left e = e.targets ∨ e.state = .countdown ∨ e.state = .going then e.state
            else if (s.cueRec e.cue).ackPolicy.satisfied (left e) then .ready else .standby })
    ∧ (∀ x : Claim, x ∈ t.lamps.claims ↔ x ∈ s.lamps.claims
        ∧ ∀ e ∈ s.cues, e.cue = x.cue → struck e x.pos = true →
          e.targets[x.pos]? = some .lost ∨ e.targets[x.pos]? = none)
    ∧ t.faults.cueWarn = (s.faults.cueWarn || (s.faults.modes.cue = .warn && s.cues.any fun e => left e ≠ e.targets))
    ∧ (∀ q : Port, s.auth.holder ≠ some q → t.out[q] = s.out[q])
    ∧ t.out = (s.cues.foldl (fun u e => tellLosses e.cue (s.cueRec e.cue).ackPolicy
        ((s.targetsOf e.cue).filter fun x => hit x.2.1 x.2.2.1 && x.2.2.2 ≠ .lost) e.state e.targets u) s).out
    ∧ t = { s with cues := t.cues, out := t.out, lamps := { s.lamps with claims := t.lamps.claims },
                   faults := { s.faults with cueWarn := t.faults.cueWarn } })
  ∧ ∀ (s : State) (st : Station), CueListOk s →
    let t := cueReturned st s
    let back (e : CueEntry) (i : Nat) : Bool :=
      (s.cueRec e.cue).targets[i]?.any fun y => y.1 = st && s.inService y.1 y.2
    let left (e : CueEntry) : List TargetState := e.targets.mapIdx fun i x =>
      if x = .lost && back e i then (if e.deadline = .expired then .late else .waiting) else x
    let rank (e : CueEntry) : Rank :=
      if e.state = .going then .go else if e.deadline = .expired then .late else .standby
    t.cues = s.cues.map (fun e => { e with targets := left e })
    ∧ (∀ e ∈ s.cues, ∀ i : Nat, e.targets[i]? = some .lost → back e i = true →
        (∃ x ∈ t.lamps.claims, x.cue = e.cue ∧ x.pos = i ∧ x.rank = rank e)
        ∧ (ClaimsOk s → ∀ j, (s.cueRec e.cue).targets[i]? = some (st, j) → ⟨e.cue, i, st, j, rank e⟩ ∈ t.lamps.claims))
    ∧ (∀ x : Claim, (∀ e ∈ s.cues, e.cue = x.cue → e.targets[x.pos]? = some .lost → back e x.pos = false) →
        (x ∈ t.lamps.claims ↔ x ∈ s.lamps.claims))
    ∧ t.faults.cueWarn = (s.faults.cueWarn
        || (s.faults.modes.cue = .warn && s.cues.any fun e => e.deadline = .expired && left e ≠ e.targets))
    ∧ (∀ q : Port, s.auth.holder ≠ some q → t.out[q] = s.out[q])
    ∧ t.out = (s.cues.foldl (fun u e =>
        ((s.targetsOf e.cue).filter fun x => x.2.1 = st && x.2.2.2 = .lost && s.inService x.2.1 x.2.2.1).foldl
          (fun v x => reportCue 0xC5 e.cue x.2.1.val x.2.2.1.val 0 v) u) s).out
    ∧ t = { s with cues := t.cues, out := t.out, lamps := { s.lamps with claims := t.lamps.claims },
                   faults := { s.faults with cueWarn := t.faults.cueWarn } }

/-- R88, R93, R94: a go hold that has run out takes the entry and its claims away with a COMPLETE report that carries its
two marks; a follow countdown that has run out leaves an entry in STANDBY under STRICT policy where it is, with a
FOLLOW_BLOCKED report, and makes every other entry go. R91, R92: a follow started on cue `b` by cue `a` is lost where `b`
is disabled, the list is full (DISABLED where it is both, the model's choice, notes/assumptions/42.md) or `b` is GOING; it
places its countdown on an entry of `b`, or enters `b` in COUNTDOWN with
its targets, deadline and cue call as a standby does, and is reported. -/
def Obligations.GoHoldAndFollowExpire : Prop :=
  (∀ (s : State) (c : CueIx) (e : CueEntry), Calm s → s.entry c = some e →
    (e.state = .going → e.goHold = 0 →
      exec (.goHoldExpiry c) s = .next (reportCue 0xCA c (bit 0 e.unready + bit 1 e.forced) 0 0
        { s with cues := s.cues.filter (fun x => x.cue ≠ c),
                 lamps := { s.lamps with claims := s.lamps.claims.filter fun x => x.cue ≠ c } }))
    ∧ ∀ f : Countdown, e.follow = some f → f.due = true →
      let s1 := { s with cues := s.cues.map fun x => if x.cue = c then { x with follow := none } else x }
      exec (.followCountdownExpiry c) s = .next
        (if e.state = .standby ∧ (s.cueRec c).goPolicy = .strict then reportCue 0xCE c f.starter.val 0 0 s1
         else entryGoes c false s1))
  ∧ ∀ (s : State) (a b : CueIx) (d : Nat),
    let r := s.cueRec b
    (s.entry b = none → r.enabled = false → startFollow a b d s = reportCue 0xCD b a.val 1 0 s)
    ∧ (s.entry b = none → r.enabled = true → 16 ≤ s.cues.length → startFollow a b d s = reportCue 0xCD b a.val 2 0 s)
    ∧ (∀ e, s.entry b = some e → e.state = .going → startFollow a b d s = reportCue 0xCD b a.val 3 0 s)
    ∧ (∀ e, s.entry b = some e → e.state ≠ .going → startFollow a b d s = reportCue 0xCC b a.val 0 0
        { s with cues := s.cues.map fun x =>
            if x.cue = b then { x with follow := some { remaining := d, due := false, starter := a } } else x })
    ∧ (s.entry b = none → r.enabled = true → s.cues.length < 16 → CueListOk s →
      let t := startFollow a b d s
      let targets : List TargetState := r.targets.map fun x => if s.inService x.1 x.2 then .waiting else .lost
      t.cues = s.cues ++ [{ cue := b, targets := targets, state := .countdown, goHold := 0, byFollow := true,
                            follow := some { remaining := d, due := false, starter := a }, unready := false, forced := false,
                            deadline := if r.ackDeadline = 0 then .none else .running r.ackDeadline }]
      ∧ (∀ i : Nat, targets[i]? = some .waiting → ∃ x ∈ t.lamps.claims, x.cue = b ∧ x.pos = i ∧ x.rank = .standby)
      ∧ (ClaimsOk s → ∀ (i : Nat) (st : Station) (j : Lamp), targets[i]? = some .waiting →
          r.targets[i]? = some (st, j) → ⟨b, i, st, j, .standby⟩ ∈ t.lamps.claims)
      ∧ (∀ x : Claim, (x.cue ≠ b ∨ targets[x.pos]? ≠ some .waiting) → (x ∈ t.lamps.claims ↔ x ∈ s.lamps.claims))
      ∧ t.arb = (match r.callNet with
        | some n => s.arb.cueCall s.live n
        | none => s.arb)
      ∧ t.faults.cueWarn = (s.faults.cueWarn || (s.faults.modes.cue = .warn && targets.any (· = .lost)))
      ∧ t.out = (reportCue 0xCC b a.val 0 0 ((r.targets.filter fun x => !s.inService x.1 x.2).foldl
          (fun u x => reportCue 0xC4 b x.1.val x.2.val 0 u) s)).out
      ∧ t = { s with cues := t.cues, arb := t.arb, out := t.out, lamps := { s.lamps with claims := t.lamps.claims },
                     faults := { s.faults with cueWarn := t.faults.cueWarn } })

/-- R147, R149: the switchover timer's expiry withdraws the station from talk and isolates it with its marks as they are,
unless a port of it is clean, on which it then returns at once (R150); cue authority held through it is lost. R144, R145,
R148: a LINK fault in ON_PRIMARY begins a switchover to a clean spare, or isolates the station; in SWITCHING and ON_SPARE
it isolates it. R149: an isolation withdraws the station, then hands the cue controller's, the authority unit's and the
report's part in an order left open (notes/assumptions/6.md); then the station returns if one of its ports is clean. That
an ISOLATED report then still carries the state ISOLATED is the model's choice (notes/assumptions/37.md). -/
def Obligations.SwitchoverTimeoutIsolates : Prop :=
  (∀ (s : State) (st : Station), Calm s → s.homing[st].state = .switching → s.homing[st].switchRem = some 0 →
    exec (.switchoverTimeout st) s = .next (enterIsolated st .switchoverTimeout none s)
    ∧ ∃ t, exec (.switchoverTimeout st) s = .next t
      ∧ t.arb = Arbiter.withdraw s.live st .isolated s.arb
      ∧ t.homing[st] =
          { s.homing[st] with
            switchRem := none, restorePending := false, restoreDue := false,
            state := if s.clean st (s.station st).primary then .onPrimary
              else if (s.station st).spare.any (s.clean st) then .onSpare else .isolated,
            active := if s.clean st (s.station st).primary then some (s.station st).primary
              else if (s.station st).spare.any (s.clean st) then (s.station st).spare else none }
      ∧ (∀ u : Station, u ≠ st → t.homing[u] = s.homing[u])
      ∧ (s.holds st = true → s.auth.holder.isSome = true → t.auth = Authority.init)
      ∧ (s.holds st = false → t.auth = s.auth)
      ∧ t = { s with arb := t.arb, homing := t.homing, auth := t.auth, out := t.out, cues := t.cues, lamps := t.lamps,
                     ports := t.ports, freeCount := t.freeCount, faults := { s.faults with cueWarn := t.faults.cueWarn } })
  ∧ (∀ (k : Nat) (st : Station) (rest : List Byte) (s : State),
    reportHoming k st rest s = broadcast (reportOf k ([byteOf st.val,
      (match s.homing[st].state with
        | .onPrimary => 1
        | .switching => 2
        | .onSpare => 3
        | .isolated => 4),
      byteOf (s.station st).primary.val,
      (match (s.station st).spare with
        | some p => byteOf p.val
        | none => 0xFF),
      byteOf ((if s.homing[st].primFailed then 1 else 0) + (if s.homing[st].spareFailed then 2 else 0))] ++ rest)) s)
  ∧ (∀ (s : State) (st : Station),
    let r := s.station st
    let h := s.homing[st]
    let put (x : Homing) : State := { s with homing := s.homing.set st x }
    (h.state = .onPrimary → ∀ sp, r.spare = some sp → s.clean st sp = true →
      let u : State :=
        { put { h with primFailed := true, state := .switching, active := some sp, switchRem := some 50 } with
          ports := upd (upd s.ports r.primary fun x => { x with awaiting := false }) sp fun x =>
            { x with awaiting := true, latest := silence, fresh := false, conceal := .silent } }
      linkFault st s = reportHoming 0xD8 st [byteOf r.primary.val, byteOf sp.val]
        (match s.auth.holder with
          | some q =>
            if s.auth.holding = some (.station st) then
              broadcast (reportOf 0xD3 [byteOf q.val, byteOf sp.val, byteOf st.val])
                { u with auth := { s.auth with holder := some sp } }
            else u
          | none => u))
    ∧ (h.state = .onPrimary → (∀ sp, r.spare = some sp → s.clean st sp = false) →
      linkFault st s = enterIsolated st .noSpare (some r.primary) (put { h with primFailed := true }))
    ∧ (h.state = .switching ∨ h.state = .onSpare →
      linkFault st s = enterIsolated st .spareFailed r.spare (put { h with spareFailed := true }))
    ∧ (h.state = .isolated → linkFault st s = s))
  ∧ (∀ (s : State) (st : Station) (reason : IsoReason) (cause : Option Port),
    let r := s.station st
    let u : State := { s with
      homing := s.homing.set st { s.homing[st] with state := .isolated, active := none, switchRem := none,
                                                    restorePending := false, restoreDue := false },
      ports := Vector.ofFn fun p : Port =>
        if p = r.primary ∨ r.spare = some p then { s.ports[p] with awaiting := false } else s.ports[p],
      arb := Arbiter.withdraw s.live st .isolated s.arb }
    (∃ l : List (IsoPart × Nat), (l.map (·.1)).Perm (u.isoParts st)
      ∧ enterIsolated st reason cause s
          = tryReturn st (l.foldl (fun a x => x.1.take st reason cause { a with freeCount := x.2 }) u))
    ∧ (u.isoParts st).Nodup ∧ .report ∈ u.isoParts st
    ∧ (.authority ∈ u.isoParts st ↔ s.auth.holding = some (.station st))
    ∧ (.cue ∈ u.isoParts st ↔ ∃ e ∈ s.cues, ∃ x ∈ s.targetsOf e.cue, x.2.1 = st ∧ x.2.2.2 ≠ .lost))
  ∧ (∀ (a : State) (st : Station) (reason : IsoReason) (cause : Option Port),
    IsoPart.take st reason cause .cue a = cueIsolated st a
    ∧ (∀ q, a.auth.holding = some (.station st) → a.auth.holder = some q →
        IsoPart.take st reason cause .authority a
          = broadcast (reportOf 0xD2 [byteOf q.val, 3]) { a with auth := ⟨none, none, none, false⟩ })
    ∧ IsoPart.take st reason cause .report a = reportHoming 0xDA st
        [(match reason with
          | .noSpare => 1
          | .spareFailed => 2
          | .switchoverTimeout => 3), portByte cause] a)
  ∧ ∀ (s : State) (st : Station),
    let r := s.station st
    let back (p : Port) (x : HomingState) : State := reportHoming 0xDB st [byteOf p.val] (cueReturned st
      { s with homing := s.homing.set st { s.homing[st] with state := x, active := some p },
               ports := upd s.ports p fun v => { v with awaiting := true } })
    (s.homing[st].state ≠ .isolated → tryReturn st s = s)
    ∧ (s.homing[st].state = .isolated → s.clean st r.primary = true → tryReturn st s = back r.primary .onPrimary)
    ∧ (∀ sp, s.homing[st].state = .isolated → s.clean st r.primary = false → r.spare = some sp → s.clean st sp = true →
      tryReturn st s = back sp .onSpare)
    ∧ (s.homing[st].state = .isolated → s.clean st r.primary = false → (∀ sp, r.spare = some sp → s.clean st sp = false) →
      tryReturn st s = s)

/-- R123, R124: the supervision window's expiry is a late desk fault of the holder port. Under WARN the port's warn flag
is raised, the DESK condition stands and the window starts again; under LATCHED the port is barred and authority lost.
R118: a Take takes authority from a holder whose station it disables, clears of management or gives other ports; it keeps
a COMMISSIONING holder while no enabled station has management permitted, or makes it the station that comes to port 0;
a kept authority keeps its port and its window. -/
def Obligations.LateDeskFaultByMode : Prop :=
  (∀ (s : State) (w : SupWindow) (p : Port), Calm s → s.auth.window = some w → w.due = true → s.auth.holder = some p →
    (s.faults.modes.desk = .warn →
      exec .supervisionWindowExpiry s = .next
        { s with auth := { s.auth with window := some ⟨0, false⟩, deskCond := true },
                 faults := { s.faults with ports := upd s.faults.ports p fun f => { f with deskWarn := true } },
                 out := (broadcast (reportOf 0xE3 [byteOf p.val, 2, 4]) s).out })
    ∧ (s.faults.modes.desk = .latched →
      exec .supervisionWindowExpiry s = .next
        { s with auth := ⟨none, none, none, false⟩,
                 faults := { s.faults with ports := upd s.faults.ports p fun f => { f with deskLatched := true } },
                 out := (broadcast (reportOf 0xD2 [byteOf p.val, 5])
                   (broadcast (reportOf 0xE3 [byteOf p.val, 2, 1]) s)).out }))
  ∧ ∀ (old new : Bank) (homing : Vector Homing 24) (s : State),
    let moved (st : Station) : Prop := old.stations[st].primary ≠ new.stations[st].primary
      ∨ old.stations[st].spare ≠ new.stations[st].spare
    let manages (st : Station) : Prop := new.stations[st].enabled = true ∧ new.stations[st].mgmt = true
    let comes (st : Station) : Prop := manages st ∧ new.stations[st].primary = 0
      ∧ (old.stations[st].enabled = false ∨ moved st ∨ homing[st].active = some 0)
    let gone (p : Port) : State :=
      broadcast (reportOf 0xD2 [byteOf p.val, 4]) { s with auth := ⟨none, none, none, false⟩ }
    (s.auth.holding = none → authTake old new homing s = s)
    ∧ (∀ st, s.auth.holding = some (.station st) →
      (manages st → ¬ moved st → authTake old new homing s = s)
      ∧ ∀ p, s.auth.holder = some p → (¬ manages st ∨ moved st) → authTake old new homing s = gone p)
    ∧ (s.auth.holding = some .commissioning →
      ((∀ st, ¬ manages st) → authTake old new homing s = s)
      ∧ (∀ st, comes st → (∀ u < st, ¬ comes u) →
        authTake old new homing s = { s with auth := { s.auth with holding := some (.station st) } })
      ∧ ∀ p, s.auth.holder = some p → (∃ st, manages st) → (∀ st, ¬ comes st) → authTake old new homing s = gone p)

/-- R180: at blank count 20 the window begins; at window count 50 the result goes to the requester's port with the tag of
its Meter Start, and the measurement ends, or under REPEAT begins a new window. R53: a completion raises the count of a
running measurement, and in its window measures the samples of its point at that completion; that the point's fitness is
judged before that completion's port counts is the model's choice (notes/assumptions/36.md). -/
def Obligations.MeterPhasesEnd : Prop :=
  (∀ (s : State) (m : Meter), Calm s → s.mgmt.meter = some m →
    let fresh : Meter := { m with measuring := true, count := 0, peak := 0, blocks := 0, noSignal := false }
    (m.measuring = false → m.count = 20 →
      exec .meterBlankEnd s = .next { s with mgmt := { s.mgmt with meter := some fresh } })
    ∧ (m.measuring = true → m.count = 50 →
      exec .meterResult s = .next (placeReport m.port
        { kind := 0xE8, tag := m.tag, code := 0,
          body := [byteOf m.point.codes.1, byteOf m.point.codes.2] ++ le16 m.peak ++ [byteOf m.blocks, byteOf (bit 0 m.noSignal)] }
        { s with mgmt := { s.mgmt with meter := if m.repeats then some fresh else none } })))
  ∧ ∀ s : State, Calm s → ∃ t, exec .blockCompletion s = .next t ∧
    let c := setSlots s.composed
    let clip (x : Int) : Sample := BitVec.ofInt 16 (max (-32768) (min 32767 x))
    (c.mgmt.meter = none → t.mgmt.meter = none)
    ∧ ∀ m, c.mgmt.meter = some m →
      let y : Block := match m.point with
        | .inputSlot p => c.ports[p].slot
        | .netSum n => Vector.ofFn fun k =>
          clip (c.arb.holders[n].map fun h => (c.inputBlock h.st)[k].toInt * (c.station h.st).talkGain / 256).sum
        | .listen st =>
          if c.listener st then Vector.ofFn fun k => clip (ListenValue c t.mix.duck[st] st k) else silence
        | .programme => c.programme
      let cut (st : Station) : Bool := c.homing[st].state = .isolated || c.homing[st].active.any fun p => !c.linkUp p
      let unfit : Bool := match m.point with
        | .inputSlot p => !c.linkUp p || (c.live.serves p).any fun st => c.homing[st].state = .isolated
        | .netSum _ => false
        | .listen st => cut st
        | .programme => c.mgmt.settings.progSource.any cut
      (m.measuring = false → t.mgmt.meter = some { m with count := m.count + 1 })
      ∧ (m.measuring = true → t.mgmt.meter = some { m with
          count := m.count + 1,
          peak := y.toList.foldl (fun a x => max a x.toInt.natAbs) m.peak,
          blocks := m.blocks + (if y.toList.any (fun x => x.toInt = -32768 || x.toInt = 32767) then 1 else 0),
          noSignal := m.noSignal || unfit })

/-- R33: a pending Take at its completion. With UNVERIFIED set it is abandoned, LIVE unchanged, and its requester answered
UNVERIFIED or its cue reported. With UNVERIFIED clear EDIT becomes LIVE, the ports that serve another station than before
hold no condition, the requester is answered OK, and then each block takes its part (R35), in an order left open
(notes/assumptions/6.md) but for the authority unit's, which comes before the homing controller's and the ports'
(notes/assumptions/40.md), from the bank before and the bank after; a part that is not shown has nothing to do; the cue
table, the settings, the queue of requests, the duck gains and the links themselves are not touched. A TAKE_APPLY that is
not due opens the next completion where the Take is due at it, and else changes nothing (notes/assumptions/3.md). -/
def Obligations.PendingTakeIsAppliedOrAbandoned : Prop :=
  (∀ (s : State) (o : TakeOrigin), Calm s → s.takeDue = true → s.takePending = some o → s.resetLeaves = false →
    let s1 : State := { s with takePending := none, takeDue := false }
    (s.unverified = true →
      exec .takeApply s = .next (match o with
        | .requester p tag => takeRespond p tag .unverified s1
        | .cue c => reportCue 0xCF c 0 0 0 s1))
    ∧ (s.unverified = false → ∃ t, exec .takeApply s = .next t
      ∧ t.live = s.edit ∧ t.edit = s.edit ∧ t.takePending = none ∧ t.takeDue = false ∧ t.unverified = false
      ∧ t.table = s.table ∧ t.mgmt = s.mgmt ∧ t.mix = s.mix ∧ t.sent = s.sent ∧ t.opened = s.opened
      ∧ t.cues.map (·.cue) = s.cues.map (·.cue) ∧ t.cues.map (·.deadline) = s.cues.map (·.deadline)
      ∧ (∀ p : Port, t.ports[p].up = s.ports[p].up ∧ t.ports[p].bucket = s.ports[p].bucket
        ∧ t.ports[p].loss = s.ports[p].loss ∧ t.ports[p].slot = s.ports[p].slot ∧ t.ports[p].held = s.ports[p].held)
      ∧ let same (p : Port) : Prop := s.live.serves p = s.edit.serves p
        let copied : State := { s1 with
          live := s.edit,
          ports := Vector.ofFn fun p => if same p then s.ports[p] else { s.ports[p] with cond := false },
          faults := { s.faults with
            ports := Vector.ofFn fun p =>
              if same p then s.faults.ports[p] else { s.faults.ports[p] with linkCond := false } } }
        let answered : State := match o with
          | .requester p tag => takeRespond p tag .ok copied
          | .cue _ => copied
        ∃ l : List (TakePart × Nat), (l.map (·.1)).Perm (allTakeParts.filter (TakePart.shows s1 answered))
          ∧ AuthorityFirst (l.map (·.1)) ∧ t = takeAlong s1 l answered))
  ∧ (∀ s : State, Calm s → s.takeDue = false →
    (s.opened = true → exec .takeApply s = .next s)
    ∧ (s.opened = false → NoneDue s →
      (s.takePending = none ∨ (openCompletion s).resetLeaves = true → exec .takeApply s = .next s)
      ∧ (s.takePending.isSome = true → (openCompletion s).resetLeaves = false →
        exec .takeApply s = exec .takeApply (openCompletion s))))
  ∧ (∀ (b s : State) (due : Bool) (x : TakePart), x.shows b s = false → x.take b due s = s)
  ∧ (∀ (p : Port) (tag : Byte) (r : Result) (s : State),
    let m : Message := { kind := 0x85, tag := tag, code := byteOf r.code, body := [] }
    takeRespond p tag r s = match s.out[p].putResponse m with
      | some o => { s with out := s.out.set p o }
      | none => { s with takeWaiting := s.takeWaiting ++ [{ port := p, msg := m, ripe := false }] })
  ∧ ∀ (b s : State) (due : Bool),
    TakePart.take b due .arbiter s = { s with arb := Arbiter.applyTake b.live s.live s.arb }
    ∧ TakePart.take b due .homing s = homingTake b.live s.live s
    ∧ TakePart.take b due .cue s = cueTake b.live s.live s
    ∧ TakePart.take b due .lamps s = { s with lamps := LampState.applyTake b.live s.live s.lamps }
    ∧ TakePart.take b due .authority s = authTake b.live s.live b.homing s
    ∧ TakePart.take b due .faults s = { s with faults := Faults.applyTake b.live s.live s.faults }
    ∧ ∀ p, TakePart.take b due (.port p) s = portTake b due p s

/-- R152: an accepted restore at its completion. A station still in ON_SPARE with a clean primary goes back to it, its
primary awaits reconciliation, its spare does not, and cue authority held through it moves, with an AUTHORITY_MOVED report
before the RESTORED one; otherwise it lapses, with a RESTORE_LAPSED report. R153: a
Take that enables or disables a station or changes its ports puts it in ON_PRIMARY on its new primary (no port where it
is disabled), without marks, switchover or restore, with no port of its old or new record awaiting reconciliation; then
each such station, ascending (notes/assumptions/29.md), takes a LINK fault where the condition of its active port is
present and the LINK mode LATCHED or AUTO. -/
def Obligations.RestoreIsAppliedOrLapses : Prop :=
  (∀ (s : State) (st : Station), Calm s → s.homing[st].restoreDue = true →
    let pr := (s.station st).primary
    let back : Homing := { s.homing[st] with restorePending := false, restoreDue := false }
    ((s.homing[st].state ≠ .onSpare ∨ s.clean st pr = false) →
      exec (.restoreApply st) s = .next (reportHoming 0xDD st [] { s with homing := s.homing.set st back }))
    ∧ (s.homing[st].state = .onSpare → s.clean st pr = true → ∃ t, exec (.restoreApply st) s = .next t
      ∧ t.homing = s.homing.set st { back with state := .onPrimary, active := some pr }
      ∧ t.ports[pr].awaiting = true
      ∧ (∀ q : Port, (s.station st).spare = some q → q ≠ pr → t.ports[q].awaiting = false)
      ∧ (∀ q : Port, { t.ports[q] with awaiting := s.ports[q].awaiting } = s.ports[q])
      ∧ t.auth = (if s.holds st && s.auth.holder.isSome then { s.auth with holder := some pr } else s.auth)
      ∧ t.out = (reportHoming 0xDC st [] (match s.auth.holder with
          | some q =>
            if s.auth.holding = some (.station st) then
              broadcast (reportOf 0xD3 [byteOf q.val, byteOf pr.val, byteOf st.val]) { s with homing := t.homing }
            else { s with homing := t.homing }
          | none => { s with homing := t.homing })).out
      ∧ t = { s with homing := t.homing, ports := t.ports, auth := t.auth, out := t.out }))
  ∧ ∀ (old new : Bank) (s : State),
    let resets (st : Station) : Bool := old.stations[st].enabled ≠ new.stations[st].enabled
      || old.stations[st].primary ≠ new.stations[st].primary || old.stations[st].spare ≠ new.stations[st].spare
    let named (r : StationRecord) (p : Port) : Bool := r.primary = p || r.spare = some p
    let cleared : State := { s with
      homing := Vector.ofFn fun st : Station => if resets st then
          { state := .onPrimary, active := if new.stations[st].enabled then some new.stations[st].primary else none,
            primFailed := false, spareFailed := false, switchRem := none, restorePending := false, restoreDue := false }
        else s.homing[st],
      ports := Vector.ofFn fun p : Port => { s.ports[p] with
        awaiting := s.ports[p].awaiting
          && allStations.all fun st => !(resets st && (named old.stations[st] p || named new.stations[st] p)) } }
    homingTake old new s = (allStations.filter resets).foldl (fun a st =>
      if (a.homing[st].active.any a.linkCond) && (a.faults.modes.link = .latched || a.faults.modes.link = .auto)
      then linkFault st a else a) cleared

/-- R137: each completion hands every station's full-scale mark: set where its active port's input slot holds a sample at
full scale and it is an enabled station with audio in. R159, R160: a station's full-scale mark counted: the runs, the condition's beginning at the 16th mark set in a row and
its end at the 16th clear. At the beginning LATCHED and REKEY mute the station and withdraw it from talk if it was not
muted, WARN (and REKEY for a SOURCE) sets its warn flag, and a report is made (that its last byte is 0 is the model's choice,
notes/assumptions/38.md); at the end a report is made; OFF does nothing. R162: a Take clears the overload state of a
station that it disables or makes a CUE_STATION, and ends the REKEY mute of one it makes a SOURCE. -/
def Obligations.OverloadMarksAreCounted : Prop :=
  (∀ (s : State) (st : Station) (m : Bool), Calm s → s.faults.stations[st].mark = some m →
    let f := s.faults.stations[st]
    let g : StationFaults :=
      if m then { f with mark := none, clearRun := 0, setRun := if f.setRun < 16 then f.setRun + 1 else f.setRun,
                         overCond := f.overCond || 15 ≤ f.setRun }
      else { f with mark := none, setRun := 0, clearRun := if f.clearRun < 16 then f.clearRun + 1 else f.clearRun,
                    overCond := f.overCond && f.clearRun < 15 }
    let put (h : StationFaults) (a : Arbiter) : State :=
      { s with arb := a, faults := { s.faults with stations := s.faults.stations.set st h } }
    let raised (k : Byte) : State → State := broadcast (reportOf 0xE0 [2, 0xFF, byteOf st.val, k, 0])
    let muted (k : Mute) : State :=
      if f.mute = .none then put { g with mute := k } (Arbiter.withdraw s.live st .mute s.arb) else put g s.arb
    let begun : State := match s.faults.modes.overload with
      | .latched => raised 1 (muted .latched)
      | .rekey =>
        if (s.station st).kind = .source then raised 3 (put { g with overWarn := true } s.arb)
        else raised 3 (muted .rekey)
      | .warn => raised 4 (put { g with overWarn := true } s.arb)
      | .auto => raised 2 (put g s.arb)
      | .off => put g s.arb
    exec (.overloadCount st) s = .next
      (if g.overCond = f.overCond then put g s.arb
       else if g.overCond then begun
       else if s.faults.modes.overload = .off then put g s.arb
       else broadcast (reportOf 0xE1 [2, 0xFF, byteOf st.val]) (put g s.arb)))
  ∧ (∀ s : State, Calm s → ∃ t, exec .blockCompletion s = .next t ∧ ∀ st : Station,
    let c := setSlots s.composed
    t.faults.stations[st].mark = some ((c.station st).enabled && (c.station st).kind ≠ .cueStation
      && c.homing[st].active.any fun p => c.ports[p].slot.toList.any fun x => x.toInt = -32768 || x.toInt = 32767))
  ∧ ∀ (old new : Bank) (f : Faults), let t := f.applyTake old new
    t = { f with stations := t.stations } ∧ ∀ st : Station,
      let o := old.stations[st]
      let n := new.stations[st]
      let ended := (o.enabled = true ∧ n.enabled = false) ∨ (o.kind ≠ .cueStation ∧ n.kind = .cueStation)
      (ended → t.stations[st] = { f.stations[st] with
        setRun := 0, clearRun := 0, overCond := false, mute := .none, overWarn := false, clipWarn := false })
      ∧ (¬ ended → t.stations[st] = { f.stations[st] with
        mute := if o.kind ≠ .source ∧ n.kind = .source ∧ f.stations[st].mute = .rekey then .none
          else f.stations[st].mute })

/-- R171, R177: a response that waited is placed once its queue takes it (Obligations.MessagesAreQueued says when), and
ends its service (the OK of a Soft Reset goes on to hold the head); a streamed read places its next response once its
queue takes it, and ends with its last (that the stream position counts responses is notes/assumptions/11.md; that both
come after the reports of the completion that makes room is notes/assumptions/45.md). The
responses of Takes that waited are tried at each completion, once its frame has taken messages from the head, and those
that find no room wait on (notes/assumptions/22.md). -/
def Obligations.WaitingResponsesArePlaced : Prop :=
  (∀ s : State, s.resetLine = false →
    (∀ (p : Port) (m : Message) (r : Bool), s.mgmt.service = .waiting p m r →
      exec .responsePlacedAfterWait s = .next (match placeResponse p m s with
        | some s1 => if r then { s1 with mgmt := { s.mgmt with service := .resetOk p } } else finishService s1
        | none => s))
    ∧ ∀ (p : Port) (tag : Byte) (i : Nat) (w : Window), s.mgmt.service = .streaming p tag i → s.mgmt.window = some w →
      let per := if w.table = .matrix then 8 else 1
      let span := w.last + 1 - w.first
      let last : Bool := span ≤ (i + 1) * per
      let count := min per (span - i * per)
      let m : Message :=
        { kind := 0x83, tag := tag, code := 0,
          body := [byteOf i, byteOf (bit 0 last), byteOf w.table.code, byteOf count]
            ++ ((List.range count).map fun j => readEntry w.table w.byNet (w.first + i * per + j) s).flatten }
      exec .readEntriesContinue s = .next (match placeResponse p m s with
        | some s1 =>
          if last then finishService s1 else { s1 with mgmt := { s.mgmt with service := .streaming p tag (i + 1) } }
        | none => s))
  ∧ (∀ s : State, placeTakeWaiting s = s.takeWaiting.foldl (fun a w =>
    match w.ripe, placeResponse w.port w.msg a with
      | true, some b => b
      | _, _ => { a with takeWaiting := a.takeWaiting ++ [w] }) { s with takeWaiting := [] })
  ∧ ∀ s : State, Calm s → ∃ t, exec .blockCompletion s = .next t
    ∧ let c := s.composed
      t.takeWaiting = (placeTakeWaiting
        { c with out := c.out.map fun o => { o with queue := (fillArea 64 o.queue).2 } }).takeWaiting

/-! Links. -/

/-- R127: a frame whose length is not what its header declares (one too short for a header among them), whose header
declares more than 64 message bytes or an audio block of other than 24 samples, or whose check does not match, has no
effect on a port that is UP, and on a DOWN port sets the acquire count to 0. -/
def Obligations.DamagedFramesAreDiscarded : Prop :=
  ∀ (s : State) (p : Port) (bytes : List Byte),
    Calm s → (s.ports[p].up = true → s.ports[p].loss < 20) →
    (∀ (seq b1 b2 cnt mlen : Byte) (rest : List Byte), bytes = seq :: b1 :: b2 :: cnt :: mlen :: rest →
      bytes.length ≠ 7 + 2 * cnt.toNat + mlen.toNat ∨ 64 < mlen.toNat ∨ (cnt.toNat ≠ 0 ∧ cnt.toNat ≠ 24)
        ∨ crcBytes (crc 0xFFFF (bytes.take (bytes.length - 2))) ≠ bytes.drop (bytes.length - 2)) →
    exec (.uplinkFrame p bytes) s = .next
      (if s.ports[p].up then s else { s with ports := upd s.ports p fun u => { u with acquire := 0 } })

/-- R128 to R130: an undamaged frame that repeats the last sequence changes nothing; any other is valid: it sets the last
sequence, lowers the bucket by 1 unless it is 0, and sets the loss count to 0; on a DOWN port the acquire count rises
and the 8th frame brings the port UP; then the condition is judged, and the contents are taken if the port is UP and not
marked failed. LINK_UP is the frame that brings the port UP, and no other frame is one (notes/assumptions/3.md). R182: what
an undamaged frame says: its sequence, the talk, announce and acknowledge bits, the call key where its bit says that there
is one, 24 samples low byte first where the count is 24, and the message area. -/
def Obligations.ValidFramesCount : Prop :=
  (∀ (seq b1 b2 cnt mlen : Byte) (rest : List Byte),
    let bytes := seq :: b1 :: b2 :: cnt :: mlen :: rest
    (cnt.toNat = 0 ∨ cnt.toNat = 24) → mlen.toNat ≤ 64 → bytes.length = 7 + 2 * cnt.toNat + mlen.toNat →
    crcBytes (crc 0xFFFF (bytes.take (bytes.length - 2))) = bytes.drop (bytes.length - 2) →
    ∃ f, parseUplink bytes = some f ∧ f.seq = seq
      ∧ (∀ k : Key, f.levels.talk[k] = b1.getLsbD k.val) ∧ f.levels.announce = b1.getLsbD 4
      ∧ (∀ j : Lamp, f.levels.acks[j] = b2.getLsbD j.val)
      ∧ f.levels.call = (if b2.getLsbD 6 then some (Fin.ofNat 4 (b2.toNat / 16)) else none)
      ∧ (cnt.toNat = 0 → f.audio = none)
      ∧ (cnt.toNat = 24 → ∃ x, f.audio = some x ∧ ∀ (k : Fin 24) (lo hi : Byte),
          rest[2 * k.val]? = some lo → rest[2 * k.val + 1]? = some hi → x[k].toNat = lo.toNat + 256 * hi.toNat)
      ∧ f.area = (rest.drop (2 * cnt.toNat)).take mlen.toNat)
  ∧ ∀ (s : State) (p : Port) (bytes : List Byte) (f : UplinkFrame), Calm s →
    (s.ports[p].up = true → s.ports[p].loss < 20) → parseUplink bytes = some f →
    let u := s.ports[p]
    let eighth := u.up = false ∧ 7 ≤ u.acquire
    (u.lastSeq = some f.seq →
      exec (.uplinkFrame p bytes) s = .next s ∧ exec (.linkUp p bytes) s = .next s)
    ∧ (u.lastSeq ≠ some f.seq →
      let v : PortUnit :=
        { u with lastSeq := some f.seq, bucket := u.bucket - 1, loss := 0, validSeen := true,
                 up := u.up || 7 ≤ u.acquire,
                 acquire := if u.up then u.acquire else if 7 ≤ u.acquire then 0 else u.acquire + 1 }
      let s1 := judgePort p { s with ports := s.ports.set p v }
      let t := if v.up && !s1.marked p then takeContents p f (decide eighth) s1 else s1
      exec (.uplinkFrame p bytes) s = .next t
      ∧ (eighth → exec (.linkUp p bytes) s = .next t)
      ∧ (¬ eighth → exec (.linkUp p bytes) s = .next s)
      ∧ t.ports[p].up = v.up ∧ t.ports[p].acquire = v.acquire ∧ t.ports[p].bucket = u.bucket - 1 ∧ t.ports[p].loss = 0
      ∧ t.ports[p].lastSeq = some f.seq
      ∧ ∀ q : Port, q ≠ p → t.ports[q].up = s.ports[q].up ∧ t.ports[q].bucket = s.ports[q].bucket
        ∧ t.ports[q].loss = s.ports[q].loss)

/-- R135, R130, R138, R139, R12, R146: a taken frame becomes the held levels and the latest block (silence if it carries no
audio), and then hands the messages of its area. On the active port of a station, not awaiting reconciliation and not the
frame that brings the port UP, it hands its edges: talk keys ascending, then the call key, the announce key and the
acknowledge buttons ascending; the frame that brings the port UP hands none. On a port awaiting reconciliation it hands
no edge: every talk key standing, call and announce standing that its levels show released is released, and in SWITCHING
the switchover then ends in ON_SPARE with a FAILED_OVER report. -/
def Obligations.TakenFramesHandTheirEdges : Prop :=
  ∀ (s : State) (p : Port) (f : UplinkFrame) (bringsUp : Bool),
    let old := s.ports[p].held
    let s1 := { s with ports := upd s.ports p fun u =>
      { u with latest := f.audio.getD silence, fresh := true, held := f.levels, awaiting := false } }
    (s.activeOf p = none → takeContents p f bringsUp s = arriveArea p f.area s1)
    ∧ ∀ st, s.activeOf p = some st →
      (s.ports[p].awaiting = false → takeContents p f true s = arriveArea p f.area s1)
      ∧ (s.ports[p].awaiting = false →
        takeContents p f false s = arriveArea p f.area (handEdges st old f.levels s1))
      ∧ (s.ports[p].awaiting = true →
        let s2 := { s1 with arb := freeReleased s.live st f.levels s.arb }
        takeContents p f bringsUp s = arriveArea p f.area
          (if s.homing[st].state = .switching then
            reportHoming 0xD9 st [byteOf p.val]
              { s2 with homing := s.homing.set st { s.homing[st] with state := .onSpare, switchRem := none } }
          else s2))

/-- R131, R117: the 20th silent completion takes the port DOWN: the talk, announce and call keys it holds pressed are
released, if it is a station's active port and awaits no reconciliation; then every held level is released, the bucket
255, the counts 0, the last sequence none, the audio silent and the concealment SILENT; cue authority held by the port is
lost (before the condition is judged: notes/assumptions/13.md); and the condition is judged, and is present where the port
serves a station. -/
def Obligations.LinkDownEmptiesThePort : Prop :=
  ∀ (s : State) (p : Port), Calm s → s.ports[p].up = true → s.ports[p].loss = 20 →
    ∃ t, exec (.linkDown p) s = .next t
      ∧ t.ports[p].up = false ∧ t.ports[p].bucket = 255 ∧ t.ports[p].loss = 0 ∧ t.ports[p].acquire = 0
      ∧ t.ports[p].lastSeq = none ∧ t.ports[p].held = Levels.released ∧ t.ports[p].latest = silence
      ∧ t.ports[p].fresh = false ∧ t.ports[p].conceal = .silent ∧ t.ports[p].slot = silence
      ∧ ((s.live.serves p).isSome = true → t.ports[p].cond = true)
      ∧ (s.auth.holder = some p → t.auth = Authority.init)
      ∧ (∀ q : Port, q ≠ p → t.ports[q].up = s.ports[q].up ∧ t.ports[q].bucket = s.ports[q].bucket
        ∧ t.ports[q].loss = s.ports[q].loss)
      ∧ let held := s.ports[p].held
        let freed (st : Station) : Arbiter :=
          let free (k : Key) (a : Arbiter) : Arbiter := if held.talk[k] then a.talkRelease s.live st k else a
          let a1 := free 3 (free 2 (free 1 (free 0 s.arb)))
          let a2 := if held.announce then a1.announceRelease st else a1
          match held.call with
            | some k => a2.callRelease s.live st k
            | none => a2
        let arb := match s.activeOf p with
          | some st => if s.ports[p].awaiting then s.arb else freed st
          | none => s.arb
        let down : State := { s with
          arb := arb,
          ports := upd s.ports p fun u =>
            { u with up := false, held := Levels.released, bucket := 255, loss := 0, acquire := 0, lastSeq := none,
                     latest := silence, fresh := false, conceal := .silent, slot := silence } }
        t = judgePort p (if s.auth.holder = some p then
            broadcast (reportOf 0xD2 [byteOf p.val, 2]) { down with auth := ⟨none, none, none, false⟩ }
          else down)

/-- R133: the link condition judged for threshold `T`: absent, it becomes present when the port is DOWN or the bucket is
at or above `T`; present, it becomes absent when the port is UP and the bucket at or below half of `T`; else it stays. A
port that serves no station judges none. R157, R158: a change is handed to the fault supervisor: a beginning is reported
with the LINK mode, raises the port's warn flag under WARN, and under LATCHED and AUTO is a LINK fault of the station whose
active port it is; an end is reported, and in AUTO clears the port's failed mark (R143), before the homing controller
judges whether a port of the station became clean (R144, R150; that the report comes first is notes/assumptions/23.md).
R134: the part of a port in a Take; that a port that ceases to serve a station hands an end only of a condition that was
present is notes/assumptions/15.md, and that the homing controller takes nothing from a port's judgement for a station that
it is still to reset (R153) is notes/assumptions/41.md. -/
def Obligations.LinkConditionHasHysteresis : Prop :=
  (∀ (u : PortUnit) (T : Nat),
    (u.cond = false → (judgedCond u T = true ↔ u.up = false ∨ T ≤ u.bucket))
    ∧ (u.cond = true → (judgedCond u T = false ↔ u.up = true ∧ u.bucket ≤ T / 2)))
  ∧ (∀ (s : State) (p : Port),
    (s.live.serves p = none → judgePort p s = s)
    ∧ ∀ st, s.live.serves p = some st →
      let c := judgedCond s.ports[p] (s.station st).threshold
      (judgePort p s).ports[p].cond = c
      ∧ (c = s.ports[p].cond → judgePort p s = s)
      ∧ (c ≠ s.ports[p].cond →
        let u : State := { s with
          ports := upd s.ports p fun x => { x with cond := c },
          faults := { s.faults with ports := upd s.faults.ports p fun f => { f with linkCond := c } } }
        (c = true → judgePort p s = linkBegun p st u)
        ∧ (c = false →
          let told := if s.faults.modes.link = .off then u
            else broadcast (reportOf 0xE1 [1, byteOf p.val, byteOf st.val]) u
          let h := s.homing[st]
          let v : State := if s.faults.modes.link = .auto then
              { told with homing := s.homing.set st { h with
                  primFailed := h.primFailed && (s.station st).primary ≠ p,
                  spareFailed := h.spareFailed && (s.station st).spare ≠ some p } }
            else told
          judgePort p s = if h.active = some p then v else portsJudged st v)))
  ∧ (∀ (s : State) (p : Port) (st : Station),
    let active := s.homing[st].active = some p
    let raised (m : Byte) (a : State) : State :=
      broadcast (reportOf 0xE0 [1, byteOf p.val, byteOf st.val, m, if active then 1 else 0]) a
    linkBegun p st s = match s.faults.modes.link with
      | .latched => if active then linkFault st (raised 1 s) else raised 1 s
      | .auto => if active then linkFault st (raised 2 s) else raised 2 s
      | .warn => raised 4
          { s with faults := { s.faults with ports := upd s.faults.ports p fun f => { f with linkWarn := true } } }
      | .rekey => s
      | .off => s)
  ∧ (∀ (s : State) (st : Station),
    let h := s.homing[st]
    let acts := (h.active.any s.linkCond) = true ∧ (s.faults.modes.link = .latched ∨ s.faults.modes.link = .auto)
    (h.state = .isolated → portsJudged st s = tryReturn st s)
    ∧ (h.state = .switching → portsJudged st s = s)
    ∧ (h.state = .onSpare → portsJudged st s =
        if acts ∧ s.clean st (s.station st).primary = true then linkFault st s else s)
    ∧ (h.state = .onPrimary → portsJudged st s =
        if acts ∧ ((s.station st).spare.any (s.clean st)) = true then linkFault st s else s))
  ∧ ∀ (b s : State) (due : Bool) (p : Port),
    (∀ st, s.live.serves p = some st →
      let o := b.live.stations[st]
      let n := s.live.stations[st]
      let resets : Prop := o.enabled ≠ n.enabled ∨ o.primary ≠ n.primary ∨ o.spare ≠ n.spare
      let c := judgedCond s.ports[p] n.threshold
      let u : State := { s with
        ports := upd s.ports p fun x => { x with cond := c },
        faults := { s.faults with ports := upd s.faults.ports p fun f => { f with linkCond := c } } }
      let raised (m : Byte) (a : State) : State :=
        broadcast (reportOf 0xE0 [1, byteOf p.val, byteOf st.val, m, if s.homing[st].active = some p then 1 else 0]) a
      (due = false ∨ ¬ resets → portTake b due p s = judgePort p s)
      ∧ (due = true → resets →
        (c = s.ports[p].cond → portTake b due p s = s)
        ∧ (c ≠ s.ports[p].cond → c = true → portTake b due p s = match s.faults.modes.link with
          | .latched => raised 1 u
          | .auto => raised 2 u
          | .warn => raised 4
              { u with faults := { u.faults with ports := upd u.faults.ports p fun f => { f with linkWarn := true } } }
          | .rekey => u
          | .off => u)
        ∧ (c ≠ s.ports[p].cond → c = false → portTake b due p s =
          if s.faults.modes.link = .off then u else broadcast (reportOf 0xE1 [1, byteOf p.val, byteOf st.val]) u)))
    ∧ (b.live.serves p = none → s.live.serves p = none → portTake b due p s = s)
    ∧ ∀ st, b.live.serves p = some st → s.live.serves p = none →
      portTake b due p s = if b.ports[p].cond = false ∨ s.faults.modes.link = .off then s
        else broadcast (reportOf 0xE1 [1, byteOf p.val, byteOf st.val]) s

/-! Talk, calls and announce. -/

/-- R5: a press is ignored for a disabled station, a CUE_STATION or SOURCE, an ISOLATED station, a key that no cell of the
row carries, or a disabled net; past that, a mute that the press does not end refuses it with standing MUTED. R161: a
REKEY mute ends at a press made while every talk standing is OFF and the announce standing NONE: a MUTE_ENDED report
names the station, and the press is placed. A press of a key that holds a slot or waits changes nothing
(notes/assumptions/39.md). A press that passes is one for the net whose cell of the row carries the key. -/
def Obligations.TalkPressesAreChecked : Prop :=
  ∀ (s : State) (st : Station) (k : Key),
    ((s.station st).enabled = false ∨ (s.station st).kind = .cueStation ∨ (s.station st).kind = .source
        ∨ s.homing[st].state = .isolated ∨ (∀ n : Net, (s.live.cell st n).key ≠ some k)
        ∨ (∀ n : Net, (s.live.cell st n).key = some k → (s.net n).enabled = false) →
      talkPress st k s = s)
    ∧ (s.rekeys st = true ↔
      s.mute st = .rekey ∧ (∀ j : Key, s.arb.talk[st][j] = .off) ∧ s.arb.ann[st] = .none)
    ∧ (s.arb.talk[st][k] = .live ∨ s.arb.talk[st][k] = .wait → talkPress st k s = s)
    ∧ (∀ n : Net, (s.station st).enabled = true →
      ((s.station st).kind = .desk ∨ (s.station st).kind = .panel ∨ (s.station st).kind = .beltpack) →
      s.homing[st].state ≠ .isolated → (s.live.cell st n).key = some k → (∀ m < n, (s.live.cell st m).key ≠ some k) →
      (s.net n).enabled = true → s.pressNet st k = some n)
    ∧ ∀ n : Net, s.pressNet st k = some n →
      (s.arb.talk[st][k] ≠ .live → s.arb.talk[st][k] ≠ .wait →
        (s.mute st ≠ .none → s.rekeys st = false →
          talkPress st k s = { s with arb := s.arb.setTalk st k .muted })
        ∧ (s.mute st = .none → talkPress st k s = { s with arb := s.arb.placePress s.live n ⟨st, k⟩ }))
      ∧ (s.rekeys st = true →
        let u := broadcast (reportOf 0xE2 [byteOf st.val, 1])
          { s with faults := { s.faults with stations := upd s.faults.stations st fun f => { f with mute := .none } } }
        talkPress st k s = { u with arb := s.arb.placePress s.live n ⟨st, k⟩ })

/-- R6: while net `n` has a free slot, the press of key `k` by `st` is appended to its holder list and the key's standing
becomes LIVE; every other list, standing and call is unchanged. -/
def Obligations.PressTakesAFreeSlot : Prop :=
  ∀ (b : Bank) (n : Net) (st : Station) (k : Key) (a : Arbiter), a.holders[n].length < b.nets[n].slots →
    a.placePress b n ⟨st, k⟩ =
      { a with holders := a.holders.set n (a.holders[n] ++ [⟨st, k⟩]),
               talk := upd a.talk st fun row => row.set k .live }

/-- R7: with every slot held and a holder of lower class than the press, the most recently granted holder of the lowest
class leaves the list; the last waiter of a full queue is REFUSED; the victim goes to the front of its class group with
standing WAIT, and the press takes the slot. -/
def Obligations.PressPreempts : Prop :=
  ∀ (b : Bank) (n : Net) (h v : Hold) (a : Arbiter) (before after : List Hold),
    b.nets[n].slots ≤ a.holders[n].length → a.holders[n] = before ++ v :: after →
    (∀ x ∈ before, b.clsOf v ≤ b.clsOf x ∧ x ≠ v) → (∀ x ∈ after, b.clsOf v < b.clsOf x) → b.clsOf v < b.clsOf h →
    let kept := if 8 ≤ a.waits[n].length then a.waits[n].dropLast else a.waits[n]
    let refused : Arbiter := match a.waits[n].getLast? with
      | some w => if 8 ≤ a.waits[n].length then a.setTalk w.st w.key .refused else a
      | none => a
    a.placePress b n h =
      { ((refused.setTalk v.st v.key .wait).setTalk h.st h.key .live) with
        holders := a.holders.set n (before ++ after ++ [h]),
        waits := a.waits.set n (kept.takeWhile (fun x => b.clsOf v < b.clsOf x) ++ v
          :: kept.dropWhile (fun x => b.clsOf v < b.clsOf x)) }

/-- R8: with every slot held and no holder of lower class than the press, the press joins the queue at the back of its
class group with standing WAIT; a full queue first loses its last waiter, REFUSED, if that is of lower class than the
press, and otherwise the press is REFUSED and no list changes. -/
def Obligations.PressJoinsTheQueueOrIsRefused : Prop :=
  ∀ (b : Bank) (n : Net) (h : Hold) (a : Arbiter),
    b.nets[n].slots ≤ a.holders[n].length → (∀ x ∈ a.holders[n], b.clsOf h ≤ b.clsOf x) →
    let join (q : List Hold) : List Hold :=
      q.takeWhile (fun x => b.clsOf h ≤ b.clsOf x) ++ h :: q.dropWhile (fun x => b.clsOf h ≤ b.clsOf x)
    (a.waits[n].length < 8 →
      a.placePress b n h = { a.setTalk h.st h.key .wait with waits := a.waits.set n (join a.waits[n]) })
    ∧ ∀ w q, a.waits[n] = q ++ [w] → 7 ≤ q.length →
      (b.clsOf w < b.clsOf h →
        a.placePress b n h =
          { ((a.setTalk w.st w.key .refused).setTalk h.st h.key .wait) with waits := a.waits.set n (join q) })
      ∧ (b.clsOf h ≤ b.clsOf w → a.placePress b n h = a.setTalk h.st h.key .refused)

/-- R10, R9: a release sets the key's standing to OFF; a LIVE key's entry leaves the list that holds it and that net is
refilled from the head of its queue, a WAIT key's entry leaves its queue, and otherwise no list changes; nothing else of
the arbiter changes. -/
def Obligations.ReleaseByStanding : Prop :=
  ∀ (b : Bank) (st : Station) (k : Key) (a : Arbiter),
    (a.talkRelease b st k).talk[st][k] = .off
    ∧ (a.talk[st][k] ≠ .live → a.talk[st][k] ≠ .wait → a.talkRelease b st k = a.setTalk st k .off)
    ∧ (a.talk[st][k] = .wait →
      a.talkRelease b st k = { a.setTalk st k .off with waits := a.waits.map fun l => l.erase ⟨st, k⟩ })
    ∧ ∀ n : Net, a.talk[st][k] = .live → ⟨st, k⟩ ∈ a.holders[n] →
      (∀ m : Net, m ≠ n → ⟨st, k⟩ ∉ a.holders[m]) → a.holders[n].length ≤ b.nets[n].slots →
      (a.waits[n] = [] →
        a.talkRelease b st k = { a.setTalk st k .off with holders := a.holders.set n (a.holders[n].erase ⟨st, k⟩) })
      ∧ ∀ w q, a.waits[n] = w :: q → a.holders[n].length = b.nets[n].slots →
        a.talkRelease b st k = { ((a.setTalk w.st w.key .live).setTalk st k .off) with
          holders := a.holders.set n (a.holders[n].erase ⟨st, k⟩ ++ [w]), waits := a.waits.set n q }
        ∧ (w ≠ ⟨st, k⟩ → (a.talkRelease b st k).talk[w.st][w.key] = .live)

/-- R11, R9: a withdrawn station stands in no list, every net that lost a holder is refilled from the head of its queue,
whose waiters become LIVE, and other stations' entries and standings stay as they are; the announce channel is not its own,
its standings other than OFF and NONE become those of the cause, and its calls end as by a call release unless a mute is the
cause. R18 to R21: the arbiter's
part of a Take goes through the stations, then the nets disabled, the mappings, the classes and the slot counts changed,
and refills every net; where nothing that the stages look at changes it changes nothing. That a station withdrawn by a
Take gives up its slots to the waiters at once is notes/assumptions/14.md. -/
def Obligations.WithdrawalTakesTheStationOut : Prop :=
  (∀ (b : Bank) (st : Station) (cause : WithdrawCause) (a : Arbiter), let t := a.withdraw b st cause
    let kept (n : Net) : List Hold := a.holders[n].filter fun h => h.st ≠ st
    let queue (n : Net) : List Hold := a.waits[n].filter fun h => h.st ≠ st
    let free (n : Net) : Nat := if ∃ h ∈ a.holders[n], h.st = st then b.nets[n].slots - (kept n).length else 0
    (∀ n : Net, (∀ h ∈ t.holders[n], h.st ≠ st) ∧ ∀ h ∈ t.waits[n], h.st ≠ st)
    ∧ (∀ n : Net, t.holders[n] = kept n ++ (queue n).take (free n) ∧ t.waits[n] = (queue n).drop (free n))
    ∧ (∀ (u : Station) (k : Key), u ≠ st →
      ((∃ n : Net, ⟨u, k⟩ ∈ (queue n).take (free n)) → t.talk[u][k] = .live)
      ∧ ((∀ n : Net, ⟨u, k⟩ ∉ (queue n).take (free n)) → t.talk[u][k] = a.talk[u][k]))
    ∧ t.announce = (if a.announce = some st then none else a.announce)
    ∧ (∀ k : Key, t.talk[st][k] =
        if a.talk[st][k] = .off then .off else if cause = .mute then .muted else .dropped)
    ∧ t.ann[st] = (if a.ann[st] = .none then .none else if cause = .mute then .refused else .dropped)
    ∧ (∀ u : Station, u ≠ st → t.ann[u] = a.ann[u])
    ∧ ∀ n : Net, t.calls[n] = match a.calls[n] with
      | .calling u k =>
        if u = st ∧ cause ≠ .mute then
          if b.nets[n].callHold = 0 then .idle else .holding (some st) b.nets[n].callHold
        else .calling u k
      | c => c)
  ∧ (∀ (old new : Bank) (a : Arbiter),
    let all (l : List Hold) (v : Standing) (x : Arbiter) : Arbiter := l.foldl (fun y h => y.setTalk h.st h.key v) x
    let station (x : Arbiter) (st : Station) : Arbiter :=
      let o := old.stations[st]
      let r := new.stations[st]
      if (o.enabled = true ∧ r.enabled = false) ∨ (o.kind.talks = true ∧ r.kind.talks = false)
          ∨ o.primary ≠ r.primary ∨ o.spare ≠ r.spare then x.withdraw new st .take
      else if o.annAllowed = true ∧ r.annAllowed = false then
        { x with announce := if x.announce = some st then none else x.announce,
                 ann := if x.announce = some st ∨ x.ann[st] = .refused then x.ann.set st .dropped else x.ann }
      else x
    let net (x : Arbiter) (n : Net) : Arbiter :=
      if new.nets[n].enabled then x
      else { all x.waits[n] .dropped (all x.holders[n] .dropped x) with
        holders := x.holders.set n [], waits := x.waits.set n [], calls := x.calls.set n .idle }
    let kept (n : Net) (h : Hold) : Bool := (new.cell h.st n).key = some h.key
    let mapping (x : Arbiter) (n : Net) : Arbiter :=
      { all ((x.holders[n] ++ x.waits[n]).filter fun h => !kept n h) .dropped x with
        holders := x.holders.set n (x.holders[n].filter (kept n)),
        waits := x.waits.set n (x.waits[n].filter (kept n)),
        calls := match x.calls[n] with
          | .calling st k =>
            if (new.cell st n).key = some k then x.calls
            else x.calls.set n
              (if new.nets[n].callHold = 0 then .idle else .holding (some st) new.nets[n].callHold)
          | _ => x.calls }
    let classes (x : Arbiter) (n : Net) : Arbiter :=
      if ∃ h ∈ x.waits[n], old.clsOf h ≠ new.clsOf h then
        { x with waits := x.waits.set n (sortByClass new x.waits[n]) }
      else x
    let slots (x : Arbiter) (n : Net) : Arbiter :=
      let out := x.holders[n].drop new.nets[n].slots
      let queue := out.foldr (insertFront new) x.waits[n]
      if out = [] then x
      else { all (queue.drop 8) .refused (all out .wait x) with
        holders := x.holders.set n (x.holders[n].take new.nets[n].slots), waits := x.waits.set n (queue.take 8) }
    a.applyTake old new = (allNets.foldl slots (allNets.foldl classes (allNets.foldl mapping (allNets.foldl net
      (allStations.foldl station a))))).refillAll new allNets)
  ∧ (∀ (b : Bank) (l : List Hold),
    (sortByClass b l).Pairwise (fun x y => b.clsOf y ≤ b.clsOf x)
    ∧ ∀ c : Nat, (sortByClass b l).filter (fun h => b.clsOf h = c) = l.filter fun h => b.clsOf h = c)
  ∧ (∀ (b : Bank) (h : Hold) (q : List Hold),
    insertFront b h q = q.takeWhile (fun x => b.clsOf h < b.clsOf x) ++ h :: q.dropWhile (fun x => b.clsOf h < b.clsOf x))
  ∧ ∀ (b : Bank) (a : Arbiter),
    (∀ n : Net, a.holders[n].length ≤ b.nets[n].slots
      ∧ (a.waits[n] ≠ [] → a.holders[n].length = b.nets[n].slots)
      ∧ (b.nets[n].enabled = false → a.holders[n] = [] ∧ a.waits[n] = [] ∧ a.calls[n] = .idle)
      ∧ (∀ h ∈ a.entries n, (b.cell h.st n).key = some h.key)
      ∧ ∀ st k, a.calls[n] = .calling st k → (b.cell st n).key = some k) →
    a.applyTake b b = a

/-- R13 to R17: a call press that passes its checks makes the net CALLING whatever it was; a call release turns the
station's own call into HOLDING for the net's call hold; a cue call leaves a CALLING net alone and holds any other; an
announce press takes a free channel, or the channel of a lower class, which is REFUSED, and is else REFUSED itself; its
release frees the channel. A press that ends a REKEY mute is placed as that of an unmuted station (R161). A press by the
station that holds the channel compares its class with itself (notes/assumptions/39.md). -/
def Obligations.CallsAndAnnounce : Prop :=
  ∀ (s : State) (st : Station) (k : Key) (n : Net),
    ((s.station st).enabled = true →
      ((s.station st).kind = .desk ∨ (s.station st).kind = .panel ∨ (s.station st).kind = .beltpack) →
      s.homing[st].state ≠ .isolated → (s.live.cell st n).key = some k → (∀ m < n, (s.live.cell st m).key ≠ some k) →
      (s.net n).enabled = true → s.pressNet st k = some n)
    ∧ (s.pressNet st k = some n → s.mute st = .none →
      callPress st k s = { s with arb := { s.arb with calls := s.arb.calls.set n (.calling st k) } })
    ∧ (s.pressNet st k = none ∨ s.mute st ≠ .none → callPress st k s = s)
    ∧ (s.arb.calls[n] = .calling st k →
      (s.arb.callRelease s.live st k).calls[n] =
        if (s.net n).callHold = 0 then .idle else .holding (some st) (s.net n).callHold)
    ∧ (s.arb.calls[n] ≠ .calling st k → (s.arb.callRelease s.live st k).calls[n] = s.arb.calls[n])
    ∧ ((s.net n).enabled = false → s.arb.cueCall s.live n = s.arb)
    ∧ (∀ u j, s.arb.calls[n] = .calling u j → s.arb.cueCall s.live n = s.arb)
    ∧ ((s.net n).enabled = true → (∀ u j, s.arb.calls[n] ≠ .calling u j) →
      s.arb.cueCall s.live n =
        s.arb.setCall n (if (s.net n).callHold = 0 then .idle else .holding none (s.net n).callHold))
    ∧ (s.announceChecked st = true ↔ (s.station st).enabled = true
      ∧ ((s.station st).kind = .desk ∨ (s.station st).kind = .panel ∨ (s.station st).kind = .beltpack)
      ∧ s.homing[st].state ≠ .isolated ∧ (s.station st).annAllowed = true)
    ∧ (s.announceChecked st = false → announcePress st s = s)
    ∧ (s.announceChecked st = true → s.rekeys st = true →
      let u := broadcast (reportOf 0xE2 [byteOf st.val, 1])
        { s with faults := { s.faults with stations := upd s.faults.stations st fun f => { f with mute := .none } } }
      announcePress st s = { u with arb := match s.arb.announce with
        | none => { s.arb with announce := some st, ann := s.arb.ann.set st .inChannel }
        | some v =>
          if (s.station v).cls < (s.station st).cls then
            { s.arb with announce := some st, ann := (s.arb.ann.set v .refused).set st .inChannel }
          else { s.arb with ann := s.arb.ann.set st .refused } })
    ∧ (s.announceChecked st = true → s.mute st = .none →
      announcePress st s = { s with arb := match s.arb.announce with
        | none => { s.arb with announce := some st, ann := s.arb.ann.set st .inChannel }
        | some u =>
          if (s.station u).cls < (s.station st).cls then
            { s.arb with announce := some st, ann := (s.arb.ann.set u .refused).set st .inChannel }
          else { s.arb with ann := s.arb.ann.set st .refused } })
    ∧ (s.announceChecked st = true → s.mute st ≠ .none → s.rekeys st = false →
      announcePress st s = { s with arb := { s.arb with ann := s.arb.ann.set st .refused } })
    ∧ s.arb.announceRelease st =
      { s.arb with announce := if s.arb.announce = some st then none else s.arb.announce, ann := s.arb.ann.set st .none }

/-! Acknowledgement. -/

/-- R79, R80: an acknowledge edge of a station that is disabled, a SOURCE or ISOLATED is ignored; with no matching target
it is a STRAY_ACK; else it acts on the first matching target of the earliest entry not GOING: WAITING becomes ACKED and
LATE becomes ACKED_LATE, with a READY claim and a TARGET_ACKED report, and every other target of every entry is
unchanged. R81: the entry's readiness is then computed: in STANDBY with its policy satisfied it becomes READY, in READY
with its policy not satisfied STANDBY, each with its report. -/
def Obligations.AcknowledgesReachOneTarget : Prop :=
  (∀ (s : State) (c : CueIx),
    let set (x : EntryState) : State := { s with cues := s.cues.map fun y => if y.cue = c then { y with state := x } else y }
    recompute c s = match s.entry c with
      | none => s
      | some e =>
        let satisfied : Bool := match (s.cueRec c).ackPolicy with
          | .all => e.targets.all fun x => x = .acked || x = .ackedLate
          | .any => e.targets.any fun x => x = .acked || x = .ackedLate
          | .none => true
        if e.state = .standby ∧ satisfied = true then reportCue 0xC0 c 0 0 0 (set .ready)
        else if e.state = .ready ∧ satisfied = false then reportCue 0xC1 c 0 0 0 (set .standby)
        else s)
  ∧ ∀ (s : State) (st : Station) (j : Lamp), CueListOk s →
    ((s.station st).enabled = false ∨ (s.station st).kind = .source ∨ s.homing[st].state = .isolated →
      ackEdge st j s = s)
    ∧ ((s.station st).enabled = true → (s.station st).kind ≠ .source → s.homing[st].state ≠ .isolated →
      ((∀ e ∈ s.cues, e.state ≠ .going → ∀ i : Nat, (s.cueRec e.cue).targets[i]? = some (st, j) →
          e.targets[i]? ≠ some .waiting ∧ e.targets[i]? ≠ some .late) →
        ackEdge st j s = cueReport (reportOf 0xC6 [0xFF, 0, 0, 0, 0, byteOf st.val, byteOf j.val, 0]) s)
      ∧ ∀ (before after : List CueEntry) (e : CueEntry) (i : Nat) (x : TargetState),
        s.cues = before ++ e :: after → e.state ≠ .going →
        (s.cueRec e.cue).targets[i]? = some (st, j) → e.targets[i]? = some x → (x = .waiting ∨ x = .late) →
        (∀ i' < i, (s.cueRec e.cue).targets[i']? = some (st, j) →
          e.targets[i']? ≠ some .waiting ∧ e.targets[i']? ≠ some .late) →
        (∀ e' ∈ before, e'.state ≠ .going → ∀ i' : Nat, (s.cueRec e'.cue).targets[i']? = some (st, j) →
          e'.targets[i']? ≠ some .waiting ∧ e'.targets[i']? ≠ some .late) →
        let y : TargetState := if x = .late then .ackedLate else .acked
        let t := ackEdge st j s
        let satisfied := (s.cueRec e.cue).ackPolicy.satisfied (e.targets.set i y)
        let told := reportCue 0xC2 e.cue st.val j.val (if x = .late then 4 else 2) s
        t.entry e.cue = some { e with
          targets := e.targets.set i y,
          state := if e.state = .standby ∧ satisfied = true then .ready
            else if e.state = .ready ∧ satisfied = false then .standby else e.state }
        ∧ (∀ d, d ≠ e.cue → t.entry d = s.entry d)
        ∧ (∃ c ∈ t.lamps.claims, c.cue = e.cue ∧ c.pos = i ∧ c.rank = .ready)
        ∧ (ClaimsOk s → ⟨e.cue, i, st, j, .ready⟩ ∈ t.lamps.claims)
        ∧ (∀ c : Claim, (c.cue ≠ e.cue ∨ c.pos ≠ i) → (c ∈ t.lamps.claims ↔ c ∈ s.lamps.claims))
        ∧ t.out = (if e.state = .standby ∧ satisfied = true then reportCue 0xC0 e.cue 0 0 0 told
            else if e.state = .ready ∧ satisfied = false then reportCue 0xC1 e.cue 0 0 0 told else told).out
        ∧ t = { s with cues := t.cues, out := t.out, lamps := { s.lamps with claims := t.lamps.claims } })

/-! Messages. -/

/-- R171, R172: a message joins a queue of fewer than 32; a full queue loses its oldest report to it and REPORT_LOST is
set; in a queue of 32 responses a report is discarded and REPORT_LOST set, a response waits, and an answer given at
arrival is discarded and REPORT_LOST set. A response placed ends its request's service, and one that waits holds it. R120, R154, R165: a
report to the management ports joins the queue of every port that is one, the active port of an enabled station with
management permitted or port 0 while there is none (R169), and whose link is UP (at its 20th silent completion a port is
not: notes/assumptions/20.md); R76: a cue report goes to the holder of cue authority alone. -/
def Obligations.MessagesAreQueued : Prop :=
  (∀ (o : Outbound) (m : Message),
    let added : Outbound := { o with queue := o.queue ++ [m] }
    (o.queue.length < 32 → o.putReport m = added ∧ o.putResponse m = some added ∧ o.putAnswer m = added)
    ∧ (∀ (before after : List Message) (r : Message), 32 ≤ o.queue.length → o.queue = before ++ r :: after →
        r.isReport = true → (∀ x ∈ before, x.isReport = false) →
        let swapped : Outbound := { queue := before ++ after ++ [m], lost := true }
        o.putReport m = swapped ∧ o.putResponse m = some swapped ∧ o.putAnswer m = swapped)
    ∧ (32 ≤ o.queue.length → (∀ x ∈ o.queue, x.isReport = false) →
        o.putReport m = { o with lost := true } ∧ o.putResponse m = none ∧ o.putAnswer m = { o with lost := true }))
  ∧ (∀ (q : QueuedRequest) (r : Result) (body : List Byte) (s : State),
    let m : Message := { kind := byteOf (q.req.kind + 0x80), tag := q.tag, code := byteOf r.code, body := body }
    (∀ o, s.out[q.port].putResponse m = some o →
      respond q r body s =
        { s with out := s.out.set q.port o,
                 mgmt := { s.mgmt with
                   queue := s.mgmt.queue.tail, service := .idle,
                   hold := judgeHold s.mgmt.settings.high s.mgmt.settings.low (s.mgmt.queue.length - 1) s.mgmt.hold } })
    ∧ (s.out[q.port].putResponse m = none →
      respond q r body s = { s with mgmt := { s.mgmt with service := .waiting q.port m false } }))
  ∧ (∀ (m : Message) (s : State), broadcast m s = { s with
    out := Vector.ofFn fun p : Port =>
      if s.isMgmt p && s.ports[p].up && s.ports[p].loss < 20 then s.out[p].putReport m else s.out[p] })
  ∧ (∀ (s : State) (p : Port),
    let manages (st : Station) : Prop := (s.station st).enabled = true ∧ (s.station st).mgmt = true
    s.isMgmt p = true ↔ (∃ st, manages st ∧ s.homing[st].active = some p) ∨ (p = 0 ∧ ∀ st, ¬ manages st))
  ∧ ∀ (m : Message) (s : State), cueReport m s = match s.auth.holder with
    | some p => { s with out := upd s.out p fun o => o.putReport m }
    | none => s

/-- R169: a message whose kind names no request or whose body does not suit it is answered BAD_FORM; from a port that is no
management port, NO_PERMISSION; with 16 requests queued, FULL; otherwise it joins the back of the request queue with its
port and tag, and HOLD is judged (R170). The messages of a taken
frame's area are judged one after another from its first byte; fewer than 4 bytes (notes/assumptions/31.md), or a declared
length below 4, above 60 or past the end of the area, end it. R183: the request that a kind and a body spell; a body of
another length, or of entries that are not the count times the length of a known entry type, suits no kind. That an answer
given at arrival has no body is notes/assumptions/9.md. -/
def Obligations.ArrivingRequestsAreJudged : Prop :=
  (∀ (s : State) (p : Port) (kind tag : Byte) (body : List Byte),
    let m (r : Result) : Message :=
      { kind := if 1 ≤ kind.toNat ∧ kind.toNat ≤ 0x18 then byteOf (kind.toNat + 0x80) else 0x80,
        tag := tag, code := byteOf r.code, body := [] }
    let answered (r : Result) : State := { s with out := upd s.out p fun o => o.putAnswer (m r) }
    (decodeRequest kind body = none → arrive p s (kind, tag, body) = answered .badForm)
    ∧ ∀ r, decodeRequest kind body = some r →
      (s.isMgmt p = false → arrive p s (kind, tag, body) = answered .noPermission)
      ∧ (s.isMgmt p = true → 16 ≤ s.mgmt.queue.length → arrive p s (kind, tag, body) = answered .full)
      ∧ (s.isMgmt p = true → s.mgmt.queue.length < 16 →
        arrive p s (kind, tag, body) = { s with mgmt := { s.mgmt with
          queue := s.mgmt.queue ++ [⟨p, tag, r⟩],
          hold := judgeHold s.mgmt.settings.high s.mgmt.settings.low (s.mgmt.queue.length + 1) s.mgmt.hold } }))
  ∧ (∀ (s : State) (p : Port) (area : List Byte),
    (area.length < 4 → arriveArea p area s = s)
    ∧ ∀ (kind tag len code : Byte) (rest : List Byte), area = kind :: tag :: len :: code :: rest →
      let n := len.toNat
      (n < 4 ∨ 60 < n ∨ area.length < n → arriveArea p area s = s)
      ∧ (4 ≤ n → n ≤ 60 → n ≤ area.length →
        arriveArea p area s = arriveArea p (rest.drop (n - 4)) (arrive p s (kind, tag, rest.take (n - 4)))))
  ∧ (∀ a b c d e f g h i j : Byte,
    let cue : CueRef := if b.getLsbD 0 then .next else .index a.toFin
    decodeRequest 0x01 [a, b, c, d, e, f] = some (.windowOpen a b c d e f)
    ∧ decodeRequest 0x03 [] = some .readEntries
    ∧ decodeRequest 0x04 [a, b, c]
        = some (.windowClose (if a.getLsbD 0 then some (BitVec.ofNat 16 (b.toNat + 256 * c.toNat)) else none))
    ∧ decodeRequest 0x05 [] = some .take ∧ decodeRequest 0x06 [] = some .revert
    ∧ decodeRequest 0x07 [a, b, c, d, e, f, g, h, i, j] = some (.settingsWrite a b c (d.toNat + 256 * e.toNat) f
        (g.toNat + 256 * h.toNat) (i.toNat + 256 * j.toNat))
    ∧ decodeRequest 0x08 [a, b] = some (.setMode a b) ∧ decodeRequest 0x09 [] = some .clearFaults
    ∧ decodeRequest 0x0A [a] = some (.claim (a.getLsbD 0))
    ∧ decodeRequest 0x0B [] = some .release ∧ decodeRequest 0x0C [] = some .heartbeat
    ∧ decodeRequest 0x0D [a, b] = some (.standby cue) ∧ decodeRequest 0x0E [a, b] = some (.go cue (b.getLsbD 1))
    ∧ decodeRequest 0x0F [a] = some (.cancel a.toFin) ∧ decodeRequest 0x10 [] = some .cancelAll
    ∧ decodeRequest 0x11 [a, b, c] = some (.setRegion a.toNat (b.toNat + 256 * c.toNat))
    ∧ decodeRequest 0x12 [a, b] = some (.setPointer
        (if b.getLsbD 0 then .toEnd else if b.getLsbD 1 then .next else .index a.toFin))
    ∧ decodeRequest 0x13 [a] = some (.restoreStation a) ∧ decodeRequest 0x14 [a] = some (.lampTest a)
    ∧ decodeRequest 0x15 [a, b, c] = some (.meterStart a b c) ∧ decodeRequest 0x16 [] = some .meterStop
    ∧ decodeRequest 0x17 [a, b] = some (.getStatus a b) ∧ decodeRequest 0x18 [] = some .softReset)
  ∧ (∀ (et cnt : Byte) (es : List Byte) (len : Nat),
    let known := (et = 1 ∧ len = 15) ∨ (et = 2 ∧ len = 4) ∨ (et = 3 ∧ len = 3) ∨ (et = 4 ∧ len = 32)
    (known → es.length = cnt.toNat * len → decodeRequest 0x02 (et :: cnt :: es) = some (.writeEntries et cnt.toNat es))
    ∧ (known → es.length ≠ cnt.toNat * len → decodeRequest 0x02 (et :: cnt :: es) = none)
    ∧ (et = 0 ∨ 4 < et.toNat → decodeRequest 0x02 (et :: cnt :: es) = none))
  ∧ ∀ (kind : Byte) (body : List Byte),
    let length : Option Nat := match kind.toNat with
      | 0x03 | 0x05 | 0x06 | 0x09 | 0x0B | 0x0C | 0x10 | 0x16 | 0x18 => some 0
      | 0x0A | 0x0F | 0x13 | 0x14 => some 1
      | 0x08 | 0x0D | 0x0E | 0x12 | 0x17 => some 2
      | 0x04 | 0x11 | 0x15 => some 3
      | 0x01 => some 6
      | 0x07 => some 10
      | _ => none
    (∀ n, length = some n → body.length ≠ n → decodeRequest kind body = none)
    ∧ (kind.toNat = 0 ∨ 0x18 < kind.toNat → decodeRequest kind body = none)
    ∧ (kind = 0x02 → body.length < 2 → decodeRequest kind body = none)

/-! Windows. -/

/-- R174, R176: a Window Open ends an open window and opens its own, or is refused with BAD_VALUE; a Window Close with no
window is refused with NO_WINDOW; one from another port ends the window and is then refused; one from the owner ends it
and answers with the running check: a mismatch sets the table's mark, a match over a whole table clears it. The empty
bodies of the refusals are the model's choice (notes/assumptions/8.md); that the second index bytes of a window on
STATIONS, NETS and CUES are ignored is notes/assumptions/31.md. -/
def Obligations.WindowOpenAndCloseServed : Prop :=
  ∀ (s : State) (q : QueuedRequest), Serves s q →
    (∀ t fl f0 f1 l0 l1, q.req = .windowOpen t fl f0 f1 l0 l1 →
      (tableOf? t.toNat = none → exec .windowOpen s = .next (respond q .badValue [] (windowEnded s)))
      ∧ ∀ T, tableOf? t.toNat = some T →
        let byNet : Bool := T = .matrix && fl.getLsbD 1
        let place (a b : Nat) : Nat := if T = .matrix then if byNet then 24 * b + a else 16 * a + b else a
        let inside (a b : Nat) : Prop := match T with
          | .stations => a < 24
          | .nets => a < 16
          | .matrix => a < 24 ∧ b < 16
          | .cues => a < 256
        let first := place f0.toNat f1.toNat
        let last := place l0.toNat l1.toNat
        let fits := inside f0.toNat f1.toNat ∧ inside l0.toNat l1.toNat ∧ first ≤ last
        let opened : Window := { owner := q.port, table := T, byNet := byNet, first := first, last := last,
                                 checkRequired := fl.getLsbD 0, advanced := 0, check := 0xFFFF }
        (fits → exec .windowOpen s = .next
          (respond q .ok [] { windowEnded s with mgmt := { s.mgmt with window := some opened } }))
        ∧ (¬ fits → exec .windowOpen s = .next (respond q .badValue [] (windowEnded s))))
    ∧ ∀ e, q.req = .windowClose e →
      (s.mgmt.window = none → exec .windowClose s = .next (respond q .noWindow [] s))
      ∧ ∀ w, s.mgmt.window = some w →
        (w.owner ≠ q.port → exec .windowClose s = .next (respond q .noWindow [] (windowEnded s)))
        ∧ (w.owner = q.port →
          let closed : State := { s with mgmt := { s.mgmt with window := none } }
          let mark (b : Bool) : State :=
            if w.table = .cues then { closed with table := { s.table with unverified := b } }
            else { closed with unverified := b }
          let whole := w.first = 0 ∧ w.last + 1 = w.table.size ∧ w.last < w.first + w.advanced
          exec .windowClose s = .next (match e with
            | none => if w.checkRequired then respond q .checkFail (le16 w.check.toNat) (mark true)
              else respond q .ok (le16 w.check.toNat) closed
            | some x => if x ≠ w.check then respond q .checkFail (le16 w.check.toNat) (mark true)
              else respond q .ok (le16 w.check.toNat) (if whole then mark false else closed)))

/-- R175, R177: Write Entries and Read Entries are refused with NO_WINDOW without a window of the requester's, and leave
the window as it is. Write Entries of the wrong type or with too many entries is refused with BAD_FORM. Otherwise each
entry in order is discarded past the last index, or is written at the next index by its table's rule, enters the running
check as sent, and advances the next index. A read streams from position 0 (notes/assumptions/11.md) and leaves the
window alone. The empty bodies of the refusals are the model's choice (notes/assumptions/8.md); that a Write Entries of no
entry is answered OK is notes/assumptions/10.md. R185: an entry is read field by field and is refused where a field lies
outside its range (R23, R26, R27, R58); the value bytes of an absent field, target pairs beyond the count and reserved bits
are ignored. An entry read back has its table's length and 00h there, and written again gives the same record. -/
def Obligations.WriteAndReadEntriesServed : Prop :=
  (∀ (s : State) (q : QueuedRequest), Serves s q →
    (∀ et n bs, q.req = .writeEntries et n bs →
      ((∀ w, s.mgmt.window = some w → w.owner ≠ q.port) → exec .writeEntries s = .next (respond q .noWindow [] s))
      ∧ ∀ w, s.mgmt.window = some w → w.owner = q.port →
        (et.toNat ≠ w.table.code ∨ (if w.table = .matrix then 8 else 1) < n →
          exec .writeEntries s = .next (respond q .badForm [] s))
        ∧ (et.toNat = w.table.code → n ≤ (if w.table = .matrix then 8 else 1) → ∀ len, entryLength et.toNat = some len →
          let r := writeAll len n bs w s
          exec .writeEntries s = .next (respond q .ok (byteOf n :: r.1.map fun x => byteOf x.code)
            { r.2.2 with mgmt := { s.mgmt with window := some r.2.1 } })))
    ∧ (q.req = .readEntries →
      ((∀ w, s.mgmt.window = some w → w.owner ≠ q.port) → exec .readEntries s = .next (respond q .noWindow [] s))
      ∧ ∀ w, s.mgmt.window = some w → w.owner = q.port →
        exec .readEntries s = .next
          (streamAll 256 { s with mgmt := { s.mgmt with service := .streaming q.port q.tag 0 } })))
  ∧ (∀ (len n : Nat) (bs : List Byte) (w : Window) (s : State),
    writeAll len 0 bs w s = ([], w, s)
    ∧ (w.last < w.first + w.advanced →
      writeAll len (n + 1) bs w s = (.windowEnd :: (writeAll len n (bs.drop len) w s).1, (writeAll len n (bs.drop len) w s).2))
    ∧ (w.first + w.advanced ≤ w.last →
      let e := writeEntry w.table w.byNet (w.first + w.advanced) (bs.take len) s
      let r := writeAll len n (bs.drop len) { w with advanced := w.advanced + 1, check := crc w.check (bs.take len) } e.2
      writeAll len (n + 1) bs w s = (e.1 :: r.1, r.2)))
  ∧ (∀ (byNet : Bool) (i : Nat) (bs : List Byte) (s : State),
    (∀ r, decodeStation bs = some r → i < 24 →
      ((r.enabled = true ∧ ∃ u : Station, u.val ≠ i ∧ s.edit.stations[u].enabled = true
          ∧ ∃ p, s.edit.stations[u].names p = true ∧ r.names p = true) →
        writeEntry .stations byNet i bs s = (.badValue, s))
      ∧ (¬ (r.enabled = true ∧ ∃ u : Station, u.val ≠ i ∧ s.edit.stations[u].enabled = true
          ∧ ∃ p, s.edit.stations[u].names p = true ∧ r.names p = true) →
        writeEntry .stations byNet i bs s =
          (.ok, { s with edit := { s.edit with stations := s.edit.stations.set (Fin.ofNat 24 i) r } })))
    ∧ (decodeStation bs = none → writeEntry .stations byNet i bs s = (.badValue, s))
    ∧ (∀ r, decodeNet bs = some r →
      writeEntry .nets byNet i bs s = (.ok, { s with edit := { s.edit with nets := s.edit.nets.set (Fin.ofNat 16 i) r } }))
    ∧ (decodeNet bs = none → writeEntry .nets byNet i bs s = (.badValue, s))
    ∧ (∀ c, decodeCell bs = some c →
      let st := (cellAt byNet i).1
      let n := (cellAt byNet i).2
      let refused := (0 < c.level ∧ 4 ≤ (allNets.filter fun m => m ≠ n ∧ 0 < (s.edit.cell st m).level).length)
        ∨ ∃ m k, m ≠ n ∧ c.key = some k ∧ (s.edit.cell st m).key = some k
      (refused → writeEntry .matrix byNet i bs s = (.badValue, s))
      ∧ (¬ refused → writeEntry .matrix byNet i bs s = (.ok, { s with edit := s.edit.setCell st n c })))
    ∧ (decodeCell bs = none → writeEntry .matrix byNet i bs s = (.badValue, s))
    ∧ (s.isActive (Fin.ofNat 256 i) = true → writeEntry .cues byNet i bs s = (.busy, s))
    ∧ (s.isActive (Fin.ofNat 256 i) = false → decodeCue (Fin.ofNat 256 i) bs = none →
      writeEntry .cues byNet i bs s = (.badValue, s))
    ∧ (s.isActive (Fin.ofNat 256 i) = false → ∀ r, decodeCue (Fin.ofNat 256 i) bs = some r →
      writeEntry .cues byNet i bs s =
        (.ok, { s with table := { s.table with records := s.table.records.set (Fin.ofNat 256 i) r } })))
  ∧ (∀ (byNet : Bool) (i : Nat) (s : State),
    readEntry .stations byNet i s = encodeStation s.edit.stations[Fin.ofNat 24 i]
    ∧ readEntry .nets byNet i s = encodeNet s.edit.nets[Fin.ofNat 16 i]
    ∧ readEntry .matrix byNet i s = encodeCell (s.edit.cell (cellAt byNet i).1 (cellAt byNet i).2)
    ∧ readEntry .cues byNet i s = encodeCue s.table.records[Fin.ofNat 256 i])
  ∧ (∀ fl kd pp sp cl g0 g1 p0 p1 d0 d1 m0 m1 lc th : Byte,
    let bs := [fl, kd, pp, sp, cl, g0, g1, p0, p1, d0, d1, m0, m1, lc, th]
    let spare : Option Port := if fl.getLsbD 4 then finOf? 24 sp.toNat else none
    let fits := pp.toNat < 24 ∧ (fl.getLsbD 4 = true → sp.toNat < 24 ∧ sp ≠ pp) ∧ cl.toNat ≤ 3 ∧ fromLe g0 g1 ≤ 256
      ∧ fromLe p0 p1 ≤ 256 ∧ fromLe d0 d1 ≤ 256 ∧ fromLe m0 m1 ≤ 256 ∧ lc.toNat ≤ 4
      ∧ 16 ≤ th.toNat ∧ th.toNat ≤ 248 ∧ th.toNat % 8 = 0
    (kindOf? kd.toNat = none ∨ ¬ fits → decodeStation bs = none)
    ∧ ∀ kind, kindOf? kd.toNat = some kind → fits → decodeStation bs = some
        { enabled := fl.getLsbD 0, mgmt := fl.getLsbD 1, annAllowed := fl.getLsbD 2, recvAnn := fl.getLsbD 3,
          kind := kind, primary := Fin.ofNat 24 pp.toNat, spare := spare, cls := cl.toNat, talkGain := fromLe g0 g1,
          progLevel := fromLe p0 p1, duckDepth := fromLe d0 d1, master := fromLe m0 m1, lampCount := lc.toNat,
          threshold := th.toNat })
  ∧ (∀ fl sl h0 h1 : Byte, decodeNet [fl, sl, h0, h1] =
      if 1 ≤ sl.toNat ∧ sl.toNat ≤ 8 ∧ fromLe h0 h1 ≤ 10000 ∧ fromLe h0 h1 % 100 = 0 then
        some { enabled := fl.getLsbD 0, progDuck := fl.getLsbD 1, slots := sl.toNat, callHold := fromLe h0 h1 }
      else none)
  ∧ (∀ l0 l1 k : Byte,
    (256 < fromLe l0 l1 ∨ (3 < k.toNat ∧ k.toNat < 255) → decodeCell [l0, l1, k] = none)
    ∧ (fromLe l0 l1 ≤ 256 → k = 255 → decodeCell [l0, l1, k] = some ⟨fromLe l0 l1, none⟩)
    ∧ ∀ j : Key, fromLe l0 l1 ≤ 256 → k.toNat = j.val → decodeCell [l0, l1, k] = some ⟨fromLe l0 l1, some j⟩)
  ∧ (∀ (own : CueIx) (fl w0 w1 pt dp ap gp a0 a1 h0 h1 fc f0 f1 cn tc : Byte) (pairs : List Byte),
    let bs := fl :: w0 :: w1 :: pt :: dp :: ap :: gp :: a0 :: a1 :: h0 :: h1 :: fc :: f0 :: f1 :: cn :: tc :: pairs
    let pair (i : Nat) : Option Byte × Option Byte := (pairs[2 * i]?, pairs[2 * i + 1]?)
    let fits := fromLe w0 w1 ≤ 9999 ∧ pt.toNat ≤ 9 ∧ dp.toNat ≤ 7 ∧ fromLe a0 a1 ≤ 30000
      ∧ 100 ≤ fromLe h0 h1 ∧ fromLe h0 h1 ≤ 5000
      ∧ (fl.getLsbD 2 = true → fc.toNat ≠ own.val ∧ fromLe f0 f1 ≤ 60000) ∧ (fl.getLsbD 3 = true → cn.toNat < 16)
      ∧ 1 ≤ tc.toNat ∧ tc.toNat ≤ 8
      ∧ (∀ i < tc.toNat, ∃ x y : Byte, pair i = (some x, some y) ∧ x.toNat < 24 ∧ y.toNat < 4)
      ∧ ∀ i j : Nat, i < j → j < tc.toNat → pair i ≠ pair j
    (ackPolicyOf? ap.toNat = none ∨ goPolicyOf? gp.toNat = none ∨ ¬ fits → decodeCue own bs = none)
    ∧ ∀ ack go, ackPolicyOf? ap.toNat = some ack → goPolicyOf? gp.toNat = some go → fits →
      ∃ targets, targets.length = tc.toNat
        ∧ (∀ (i : Nat) (x : Station × Lamp), targets[i]? = some x → pair i = (some (byteOf x.1.val), some (byteOf x.2.val)))
        ∧ decodeCue own bs = some
          { enabled := fl.getLsbD 0, takeOnGo := fl.getLsbD 1, showWhole := fromLe w0 w1, showPoint := pt.toNat,
            department := dp.toNat, targets := targets, ackPolicy := ack, goPolicy := go, ackDeadline := fromLe a0 a1,
            goHold := fromLe h0 h1, follow := if fl.getLsbD 2 then some (fc.toFin, fromLe f0 f1) else none,
            callNet := if fl.getLsbD 3 then some (Fin.ofNat 16 cn.toNat) else none })
  ∧ (∀ bs r, decodeStation bs = some r → decodeStation (encodeStation r) = some r ∧ (encodeStation r).length = 15
      ∧ (r.spare = none → (encodeStation r)[3]? = some 0))
  ∧ (∀ bs r, decodeNet bs = some r → decodeNet (encodeNet r) = some r ∧ (encodeNet r).length = 4)
  ∧ (∀ bs c, decodeCell bs = some c → decodeCell (encodeCell c) = some c ∧ (encodeCell c).length = 3)
  ∧ ∀ own bs r, decodeCue own bs = some r → decodeCue own (encodeCue r) = some r ∧ (encodeCue r).length = 32
      ∧ (r.follow = none → ((encodeCue r).drop 11).take 3 = [0, 0, 0]) ∧ (r.callNet = none → (encodeCue r)[14]? = some 0)
      ∧ (encodeCue r).drop (16 + 2 * r.targets.length) = List.replicate (16 - 2 * r.targets.length) 0

/-! Requests of the route banks, the settings and the fault supervisor. -/

/-- R31, R36: a Take ends an open window, is refused with UNVERIFIED while the mark is set and with BUSY while a Take is
pending, and otherwise sets Take pending with its port and tag, leaves the queue and is not answered yet. A Revert ends
an open window, is refused with BUSY while a Take is pending, and otherwise copies LIVE into EDIT and clears the mark. -/
def Obligations.TakeAndRevertServed : Prop :=
  ∀ (s : State) (q : QueuedRequest), Serves s q →
    let e := windowEnded s
    (q.req = .take →
      exec .take s = .next
        (if e.unverified then respond q .unverified [] e
         else if e.takePending.isSome then respond q .busy [] e
         else { e with takePending := some (.requester q.port q.tag),
                       mgmt := { e.mgmt with
                         queue := s.mgmt.queue.tail,
                         hold := judgeHold s.mgmt.settings.high s.mgmt.settings.low (s.mgmt.queue.length - 1) s.mgmt.hold } }))
    ∧ (q.req = .revert →
      exec .revert s = .next
        (if e.takePending.isSome then respond q .busy [] e
         else respond q .ok [] { e with edit := s.live, unverified := false }))

/-- R178, R121: a Settings Write with every field in range replaces the record; HOLD is judged against the new watermarks,
and supervision started, left running or stopped; any field out of range refuses the whole (that an enable byte above 1
is out of range is notes/assumptions/31.md). -/
def Obligations.SettingsWriteServed : Prop :=
  ∀ (s : State) (q : QueuedRequest) (pr hi lo en : Byte) (step mn mx : Nat), Serves s q →
    q.req = .settingsWrite pr hi lo step en mn mx →
    let e := windowEnded s
    let fits := (pr.toNat < 24 ∨ pr.toNat = 255) ∧ 2 ≤ hi.toNat ∧ hi.toNat ≤ 16 ∧ lo.toNat < hi.toNat
      ∧ 1 ≤ step ∧ step ≤ 256 ∧ en.toNat ≤ 1 ∧ 50 ≤ mn ∧ mn ≤ 1000 ∧ 200 ≤ mx ∧ mx ≤ 5000 ∧ mn < mx
    (¬ fits → exec .settingsWrite s = .next (respond q .badValue [] e))
    ∧ (fits → exec .settingsWrite s = .next (respond q .ok []
      { e with
        mgmt := { e.mgmt with
          settings := { progSource := finOf? 24 pr.toNat, high := hi.toNat, low := lo.toNat, duckStep := step,
                        supEnable := en.toNat = 1, supMin := mn, supMax := mx },
          hold := judgeHold hi.toNat lo.toNat s.mgmt.queue.length s.mgmt.hold },
        auth :=
          if s.auth.holder.isSome ∧ en.toNat = 1 ∧ (s.faults.modes.desk = .latched ∨ s.faults.modes.desk = .warn) then
            { s.auth with window := some (s.auth.window.getD ⟨0, false⟩) }
          else { s.auth with window := none, deskCond := false } }))

/-- R166, R167: a Set Mode with a class and a mode it permits takes the mode, is answered OK and evaluates the class's
condition afresh, leaving the other classes' modes, the RESET flag, the overload runs and every condition as they are; any
other is refused with BAD_VALUE. LINK: the warn flags and failed marks are cleared, the stations that lost a mark judge
their ports (before the fresh evaluation: notes/assumptions/43.md), and the mode is applied to each condition present, the
ports ascending. OVERLOAD: the mutes end and the warn flags clear, the mode is applied to each condition present, and a
mute not begun again is reported ended (notes/assumptions/30.md; the last byte of a FAULT_RAISED is
notes/assumptions/38.md). DESK, CUE and CLIP: their flags are cleared, and set again where WARN and the condition call for
it. A Clear Faults clears the failed marks whose condition is absent, the stations that had one judging their ports, ends
every LATCHED mute whose condition is absent, clears every latched DESK flag and warn flag whose condition is absent, and
RESET, and answers with the eight flags. Stations are taken ascending (notes/assumptions/29.md). -/
def Obligations.SetModeAndClearFaultsServed : Prop :=
  ∀ (s : State) (q : QueuedRequest), Serves s q →
    let e := windowEnded s
    let marked := allStations.filter fun st => e.homing[st].primFailed || e.homing[st].spareFailed
    let cond (st : Station) : Bool := e.faults.stations[st].overCond
    (∀ cb mb, q.req = .setMode cb mb →
      ((∀ c m, faultClassOf? cb.toNat = some c → modeOf? mb.toNat = some m → permits c m = false) →
        exec .setMode s = .next (respond q .badValue [] e))
      ∧ ∀ c m, faultClassOf? cb.toNat = some c → modeOf? mb.toNat = some m → permits c m = true →
        let e1 : State := { e with faults := { e.faults with modes := e.faults.modes.set c m } }
        ∃ t, exec .setMode s = .next (respond q .ok [] t)
          ∧ t.faults.modes.get c = m ∧ (∀ d, d ≠ c → t.faults.modes.get d = e.faults.modes.get d)
          ∧ t.faults.resetFlag = e.faults.resetFlag
          ∧ (∀ st : Station, t.faults.stations[st].setRun = e.faults.stations[st].setRun
            ∧ t.faults.stations[st].clearRun = e.faults.stations[st].clearRun
            ∧ t.faults.stations[st].overCond = e.faults.stations[st].overCond)
          ∧ (∀ p : Port, t.ports[p].cond = e.ports[p].cond ∧ t.faults.ports[p].linkCond = e.faults.ports[p].linkCond)
          ∧ (c = .link →
            let cleared : State := { e1 with
              homing := e.homing.map fun h => { h with primFailed := false, spareFailed := false },
              faults := { e1.faults with ports := e.faults.ports.map fun f => { f with linkWarn := false } } }
            t = allPorts.foldl (fun a p => match a.live.serves p with
                | some st => if a.faults.ports[p].linkCond then linkBegun p st a else a
                | none => a) (marked.foldl (fun a st => portsJudged st a) cleared)
            ∧ (∀ p : Port, t.faults.ports[p].linkWarn
                = (m = .warn && (e.live.serves p).isSome && e.faults.ports[p].linkCond))
            ∧ (m = .warn ∨ m = .off → ∀ st : Station,
                t.homing[st].primFailed = false ∧ t.homing[st].spareFailed = false))
          ∧ (c = .overload →
            let mutes (st : Station) : Bool :=
              cond st && (m = .latched || (m = .rekey && (e.station st).kind ≠ .source))
            (∀ st : Station, t.faults.stations[st] = { e.faults.stations[st] with
              mute := if mutes st then (if m = .latched then .latched else .rekey) else .none,
              overWarn := cond st && (m = .warn || (m = .rekey && (e.station st).kind = .source)) })
            ∧ t.arb = (allStations.filter mutes).foldl (fun a st => Arbiter.withdraw e.live st .mute a) e.arb
            ∧ t.out = ((allStations.filter fun st => e.faults.stations[st].mute ≠ .none && !mutes st).foldl
                (fun a st => broadcast (reportOf 0xE2 [byteOf st.val, 3]) a)
                ((allStations.filter fun st => cond st && m ≠ .off).foldl
                  (fun a st => broadcast (reportOf 0xE0 [2, 0xFF, byteOf st.val, byteOf m.code, 0]) a) e)).out
            ∧ t = { e1 with arb := t.arb, out := t.out, faults := { e1.faults with stations := t.faults.stations } })
          ∧ (c = .clip →
            (∀ st : Station, t.faults.stations[st]
              = { e.faults.stations[st] with clipWarn := m = .warn && e.mix.clip[st] })
            ∧ t.out = ((allStations.filter fun st => m = .warn && e.mix.clip[st]).foldl
                (fun a st => broadcast (reportOf 0xE4 [byteOf st.val]) a) e).out
            ∧ t = { e1 with out := t.out, faults := { e1.faults with stations := t.faults.stations } })
          ∧ (c = .cue → t = { e with faults := { e.faults with modes := e.faults.modes.set .cue m,
                                                               cueWarn := m = .warn && e.cueCond } })
          ∧ (c = .desk → t =
              { e with
                faults := { e.faults with modes := e.faults.modes.set .desk m,
                                          ports := e.faults.ports.map fun f => { f with deskLatched := false, deskWarn := false } },
                auth := { e.auth with
                  deskCond := false,
                  window := if e.auth.holder.isSome && e.mgmt.settings.supEnable && (m = .latched || m = .warn)
                    then some ⟨0, false⟩ else none } }))
    ∧ (q.req = .clearFaults →
      let cleared : State := { e with homing := Vector.ofFn fun st : Station => { e.homing[st] with
        primFailed := e.homing[st].primFailed && e.linkCond (e.station st).primary,
        spareFailed := e.homing[st].spareFailed && (e.station st).spare.any e.linkCond } }
      let judged := marked.foldl (fun a st => portsJudged st a) cleared
      let freed := (allStations.filter fun st => e.faults.stations[st].mute = .latched && !cond st).foldl
        (fun a st => broadcast (reportOf 0xE2 [byteOf st.val, 2])
          { a with faults := { a.faults with stations := upd a.faults.stations st fun f => { f with mute := .none } } })
        judged
      let t : State := { freed with faults := { freed.faults with
        ports := Vector.ofFn fun p : Port =>
          let f := freed.faults.ports[p]
          let desk : Bool := freed.auth.deskCond && freed.auth.holder = some p
          { f with deskLatched := f.deskLatched && desk, deskWarn := f.deskWarn && desk,
                   linkWarn := f.linkWarn && (e.live.serves p).isSome && f.linkCond },
        stations := Vector.ofFn fun st : Station =>
          let f := freed.faults.stations[st]
          { f with overWarn := f.overWarn && f.overCond, clipWarn := f.clipWarn && e.mix.clip[st] },
        cueWarn := freed.faults.cueWarn && freed.cueCond,
        resetFlag := false } }
      exec .clearFaults s = .next (respond q .ok [t.managementView q.port] t)
      ∧ t.faults.modes = e.faults.modes
      ∧ (∀ p : Port, t.ports[p].cond = e.ports[p].cond ∧ t.faults.ports[p] =
          { e.faults.ports[p] with
            deskLatched := e.faults.ports[p].deskLatched && t.deskCondOf p,
            deskWarn := e.faults.ports[p].deskWarn && t.deskCondOf p,
            linkWarn := e.faults.ports[p].linkWarn && t.supCond p })
      ∧ (∀ st : Station, t.faults.stations[st] =
          { e.faults.stations[st] with
            mute := if e.faults.stations[st].mute = .latched && !cond st then .none else e.faults.stations[st].mute,
            overWarn := e.faults.stations[st].overWarn && cond st,
            clipWarn := e.faults.stations[st].clipWarn && e.mix.clip[st] })
      ∧ (t.faults.cueWarn = true → t.cueCond = true))

/-! Requests of the authority unit. -/

/-- R115, R116: a Claim is judged in order: no management port, a DOWN link, a barred port, the holder itself, no holder,
FORCE against a holder whose DESK condition is present or whose link is DOWN, and otherwise HELD. A grant names the
port and its station, and starts the supervision window if supervision would run. That a refusal carries the holder,
HELD apart, is the model's choice (notes/assumptions/8.md); that a port at its 20th silent completion counts as DOWN is
notes/assumptions/20.md. -/
def Obligations.ClaimServed : Prop :=
  ∀ (s : State) (q : QueuedRequest) (force : Bool), Serves s q → q.req = .claim force →
    let e := windowEnded s
    let p := q.port
    let holding : Holding := match e.activeOf p with
      | some st => if (e.station st).mgmt then .station st else .commissioning
      | none => .commissioning
    let granted (forced : Bool) (a : State) : State :=
      broadcast (reportOf 0xD0 [byteOf p.val, holding.byte, byteOf (bit 0 forced)])
        { a with auth := { holder := some p, holding := some holding, deskCond := false,
                           window := if e.supervises then some ⟨0, false⟩ else none } }
    exec .claim s = .next
      (if e.isMgmt p = false then respond q .noPermission [portByte e.auth.holder] e
       else if e.linkUp p = false then respond q .notAvailable [portByte e.auth.holder] e
       else if e.faults.ports[p].deskLatched then respond q .barred [portByte e.auth.holder] e
       else match e.auth.holder with
        | none => respond q .ok [byteOf p.val] (granted false e)
        | some h =>
          if h = p then respond q .ok [byteOf p.val] e
          else if force && (e.auth.deskCond || !e.linkUp h) then
            respond q .ok [byteOf p.val] (granted true
              (broadcast (reportOf 0xD2 [byteOf h.val, 1]) { e with auth := ⟨none, none, none, false⟩ }))
          else respond q .held [byteOf h.val] e)

/-- R117, R122, R124: Release and Heartbeat from any port but the holder's are refused with NO_AUTHORITY. A Release gives
authority up. A Heartbeat with no window running changes nothing; at or above the min interval it restarts the window
and ends the DESK condition; below it it is early, which is a desk fault. -/
def Obligations.ReleaseAndHeartbeatServed : Prop :=
  ∀ (s : State) (q : QueuedRequest), Serves s q →
    let e := windowEnded s
    (e.auth.holder ≠ some q.port →
      (q.req = .release → exec .release s = .next (respond q .noAuthority [] e))
      ∧ (q.req = .heartbeat → exec .heartbeat s = .next (respond q .noAuthority [] e)))
    ∧ (e.auth.holder = some q.port →
      (q.req = .release → exec .release s = .next (respond q .ok []
        (broadcast (reportOf 0xD1 [byteOf q.port.val]) { e with auth := ⟨none, none, none, false⟩ })))
      ∧ (q.req = .heartbeat →
        (e.auth.window = none → exec .heartbeat s = .next (respond q .ok [] e))
        ∧ ∀ w, e.auth.window = some w →
          (e.mgmt.settings.supMin ≤ w.elapsed → exec .heartbeat s = .next (respond q .ok []
            { e with auth := { e.auth with window := some ⟨0, false⟩, deskCond := false } }))
          ∧ (w.elapsed < e.mgmt.settings.supMin → e.faults.modes.desk = .warn →
            exec .heartbeat s = .next (respond q .early []
              { e with auth := { e.auth with window := some ⟨0, false⟩, deskCond := true },
                       faults := { e.faults with ports := upd e.faults.ports q.port fun f => { f with deskWarn := true } },
                       out := (broadcast (reportOf 0xE3 [byteOf q.port.val, 1, 4]) e).out }))
          ∧ (w.elapsed < e.mgmt.settings.supMin → e.faults.modes.desk = .latched →
            exec .heartbeat s = .next (respond q .early []
              { e with auth := ⟨none, none, none, false⟩,
                       faults := { e.faults with ports := upd e.faults.ports q.port fun f => { f with deskLatched := true } },
                       out := (broadcast (reportOf 0xD2 [byteOf q.port.val, 5])
                         (broadcast (reportOf 0xE3 [byteOf q.port.val, 1, 1]) e)).out }))))

/-! Requests of the cue controller and the cue table. -/

/-- R77, R78: a Standby is judged in order: authority, CUE_UNVERIFIED, NEXT against END, the record enabled, the cue not in
the list, the list not full. Accepted, the cue stands at the end of the list: its targets in service WAITING with a
STANDBY claim and the others LOST, its deadline started, its cue call placed, READY at once if its policy is satisfied. A
TARGET_LOST report is made for each target out of service, in list order, then CUE_READY if it is ready; under WARN a target
out of service sets the CUE warn flag. The body of a refusal before NEXT is resolved is the model's choice (notes/assumptions/8.md). -/
def Obligations.StandbyServed : Prop :=
  ∀ (s : State) (q : QueuedRequest) (ref : CueRef), Serves s q → q.req = .standby ref →
    let e := windowEnded s
    (e.auth.holder ≠ some q.port → exec .standby s = .next (respond q .noAuthority (cueBody ref.named) e))
    ∧ (e.auth.holder = some q.port → e.table.unverified = true →
      exec .standby s = .next (respond q .unverified (cueBody ref.named) e))
    ∧ (e.auth.holder = some q.port → e.table.unverified = false → ref = .next → e.table.ended = true →
      exec .standby s = .next (respond q .badValue [] e))
    ∧ ∀ c : CueIx, e.auth.holder = some q.port → e.table.unverified = false →
      (ref = .index c ∨ (ref = .next ∧ e.table.ended = false ∧ e.table.pointer = c)) →
      ((e.cueRec c).enabled = false → exec .standby s = .next (respond q .badValue [byteOf c.val] e))
      ∧ ((e.cueRec c).enabled = true → (∃ x ∈ e.cues, x.cue = c) →
        exec .standby s = .next (respond q .active [byteOf c.val] e))
      ∧ ((e.cueRec c).enabled = true → (∀ x ∈ e.cues, x.cue ≠ c) → 16 ≤ e.cues.length →
        exec .standby s = .next (respond q .listFull [byteOf c.val] e))
      ∧ ((e.cueRec c).enabled = true → (∀ x ∈ e.cues, x.cue ≠ c) → e.cues.length < 16 →
        ∃ t, exec .standby s = .next (respond q .ok [byteOf c.val] t) ∧
          let r := e.cueRec c
          let targets : List TargetState := r.targets.map fun x => if e.inService x.1 x.2 then .waiting else .lost
          let told : State := (r.targets.filter fun x => !e.inService x.1 x.2).foldl
            (fun u x => reportCue 0xC4 c x.1.val x.2.val 0 u) e
          t.cues = e.cues ++ [{ cue := c, targets := targets, follow := none, goHold := 0, byFollow := false,
                                unready := false, forced := false,
                                state := if r.ackPolicy.satisfied targets then .ready else .standby,
                                deadline := if r.ackDeadline = 0 then .none else .running r.ackDeadline }]
          ∧ (∀ i : Nat, targets[i]? = some .waiting → ∃ x ∈ t.lamps.claims, x.cue = c ∧ x.pos = i ∧ x.rank = .standby)
          ∧ (ClaimsOk s → ∀ (i : Nat) (st : Station) (j : Lamp), targets[i]? = some .waiting →
              r.targets[i]? = some (st, j) → ⟨c, i, st, j, .standby⟩ ∈ t.lamps.claims)
          ∧ (∀ x : Claim, (x.cue ≠ c ∨ targets[x.pos]? ≠ some .waiting) → (x ∈ t.lamps.claims ↔ x ∈ e.lamps.claims))
          ∧ t.arb = (match r.callNet with
            | some n => e.arb.cueCall e.live n
            | none => e.arb)
          ∧ t.faults.cueWarn = (e.faults.cueWarn || (e.faults.modes.cue = .warn && targets.any (· = .lost)))
          ∧ t.out = (if r.ackPolicy.satisfied targets then reportCue 0xC0 c 0 0 0 told else told).out
          ∧ t = { e with cues := t.cues, arb := t.arb, out := t.out, lamps := { e.lamps with claims := t.lamps.claims },
                         faults := { e.faults with cueWarn := t.faults.cueWarn } })

/-- R84 to R87, R68: a GO is judged in order: authority, NEXT against END, the cue in the list, not GOING already, and not
in STANDBY under STRICT without FORCE. Accepted, the entry is GOING with its go hold and its two marks, its deadline
stopped and its countdown gone; its targets not LOST take GO claims; the pointer advances if it stood on the cue; a
record with take on GO sets Take pending unless UNVERIFIED is set or a Take is pending. Other entries and their claims are left
alone. The going report says whether it was forced, or unready, and whether its take was refused; then the record's
follow, if any, is started (Obligations.GoHoldAndFollowExpire says how). The body of a refusal is the model's choice (notes/assumptions/8.md). -/
def Obligations.GoServed : Prop :=
  ∀ (s : State) (q : QueuedRequest) (ref : CueRef) (force : Bool), Serves s q → CueListOk s → q.req = .go ref force →
    let e := windowEnded s
    (e.auth.holder ≠ some q.port → exec .go s = .next (respond q .noAuthority (cueBody ref.named) e))
    ∧ (e.auth.holder = some q.port → ref = .next → e.table.ended = true →
      exec .go s = .next (respond q .badValue [] e))
    ∧ ∀ c : CueIx, e.auth.holder = some q.port →
      (ref = .index c ∨ (ref = .next ∧ e.table.ended = false ∧ e.table.pointer = c)) →
      (e.entry c = none → exec .go s = .next (respond q .notActive [byteOf c.val] e))
      ∧ ∀ x, e.entry c = some x →
        let r := e.cueRec c
        let satisfied := r.ackPolicy.satisfied x.targets
        (x.state = .going → exec .go s = .next (respond q .alreadyGone [byteOf c.val] e))
        ∧ (x.state = .standby → r.goPolicy = .strict → force = false →
          exec .go s = .next (respond q .notReady [byteOf c.val] e))
        ∧ (x.state ≠ .going → (x.state = .standby → r.goPolicy = .strict → force = true) →
          ∃ t, exec .go s = .next (respond q .ok [byteOf c.val] (match r.follow with
              | some (b, d) => startFollow c b d t
              | none => t))
            ∧ t.entry c = some
              { x with state := .going, goHold := r.goHold, follow := none,
                       unready := !satisfied, forced := force && x.state = .standby,
                       deadline := match x.deadline with
                         | .running _ => .stopped
                         | d => d }
            ∧ t.cues.map (·.cue) = e.cues.map (·.cue) ∧ (∀ d, d ≠ c → t.entry d = e.entry d)
            ∧ (∀ i : Nat, ∀ y, x.targets[i]? = some y → y ≠ .lost →
                ∃ z ∈ t.lamps.claims, z.cue = c ∧ z.pos = i ∧ z.rank = .go)
            ∧ (ClaimsOk s → ∀ (i : Nat) (y : TargetState) (st : Station) (j : Lamp), x.targets[i]? = some y → y ≠ .lost →
                r.targets[i]? = some (st, j) → ⟨c, i, st, j, .go⟩ ∈ t.lamps.claims)
            ∧ (∀ z : Claim, z.cue ≠ c → (z ∈ t.lamps.claims ↔ z ∈ e.lamps.claims))
            ∧ (e.table.ended = true ∨ e.table.pointer ≠ c → t.table = e.table)
            ∧ (e.table.ended = false → e.table.pointer = c →
              (∀ d : CueIx, c < d → e.table.fixedSize ≤ d.val → d.val < e.table.fixedSize + e.table.seqSize →
                  (e.cueRec d).enabled = true →
                  (∀ d' : CueIx, c < d' → d' < d → e.table.fixedSize ≤ d'.val → (e.cueRec d').enabled = false) →
                t.table = { e.table with pointer := d })
              ∧ ((∀ d : CueIx, c < d → e.table.fixedSize ≤ d.val → d.val < e.table.fixedSize + e.table.seqSize →
                  (e.cueRec d).enabled = false) →
                t.table = { e.table with ended := true }))
            ∧ t.takePending = (if r.takeOnGo && !e.unverified && e.takePending.isNone then some (.cue c) else e.takePending)
            ∧ t.out = (reportCue (if force && x.state = .standby then 0xC9 else if satisfied then 0xC7 else 0xC8) c
                x.state.code (if r.takeOnGo && e.unverified then 1 else 0) 0 e).out
            ∧ t = { e with cues := t.cues, lamps := { e.lamps with claims := t.lamps.claims }, table := t.table,
                           takePending := t.takePending, out := t.out })

/-- R89, R90: a Cancel is judged in order: authority, the cue in the list, not GOING. Accepted, the entry and its claims go,
with a CANCELLED report that carries its state. Cancel All takes every entry that is not GOING so, earliest first, and
answers with their number. The bodies of refusals, the cue index and 0, are the model's choice
(notes/assumptions/8.md). -/
def Obligations.CancelAndCancelAllServed : Prop :=
  ∀ (s : State) (q : QueuedRequest), Serves s q →
    let e := windowEnded s
    let removed (c : CueIx) (x : CueEntry) (a : State) : State :=
      reportCue 0xCB c x.state.code 0 0
        { a with cues := a.cues.filter (fun y => y.cue ≠ c),
                 lamps := { a.lamps with claims := a.lamps.claims.filter fun y => y.cue ≠ c } }
    (∀ c, q.req = .cancel c →
      (e.auth.holder ≠ some q.port → exec .cancel s = .next (respond q .noAuthority [byteOf c.val] e))
      ∧ (e.auth.holder = some q.port → e.entry c = none →
        exec .cancel s = .next (respond q .notActive [byteOf c.val] e))
      ∧ ∀ x, e.auth.holder = some q.port → e.entry c = some x →
        (x.state = .going → exec .cancel s = .next (respond q .alreadyGone [byteOf c.val] e))
        ∧ (x.state ≠ .going → exec .cancel s = .next (respond q .ok [byteOf c.val] (removed c x e))))
    ∧ (q.req = .cancelAll →
      (e.auth.holder ≠ some q.port → exec .cancelAll s = .next (respond q .noAuthority [0] e))
      ∧ (e.auth.holder = some q.port → CueListOk s →
        let gone := e.cues.filter fun x => x.state ≠ .going
        exec .cancelAll s = .next (respond q .ok [byteOf gone.length] (gone.foldl (fun a x => removed x.cue x a) e))))

/-- R64, R69: Set Region is judged in order: authority, a legal split, an empty list; it sets the split, and the pointer to
the lowest enabled index of the new sequence region, or to its first index with END. Set Pointer is judged in order:
authority, END (which it sets), NEXT against END, an enabled index of the sequence region, to which it sets the pointer.
The responses carry the pointer and END as they then stand, which in a refusal is the model's choice
(notes/assumptions/8.md). -/
def Obligations.SetRegionAndSetPointerServed : Prop :=
  ∀ (s : State) (q : QueuedRequest), Serves s q →
    let e := windowEnded s
    let body (t : CueTable) : List Byte := [byteOf t.pointer.val, byteOf (bit 0 t.ended)]
    (∀ F L, q.req = .setRegion F L →
      (e.auth.holder ≠ some q.port → exec .setRegion s = .next (respond q .noAuthority (body e.table) e))
      ∧ (e.auth.holder = some q.port → (L < 1 ∨ 256 < F + L) →
        exec .setRegion s = .next (respond q .badValue (body e.table) e))
      ∧ (e.auth.holder = some q.port → 1 ≤ L → F + L ≤ 256 → e.cues ≠ [] →
        exec .setRegion s = .next (respond q .busy (body e.table) e))
      ∧ (e.auth.holder = some q.port → 1 ≤ L → F + L ≤ 256 → e.cues = [] →
        (∀ c : CueIx, F ≤ c.val → c.val < F + L → (e.cueRec c).enabled = true →
            (∀ d : CueIx, F ≤ d.val → d < c → (e.cueRec d).enabled = false) →
          let t : CueTable := { e.table with fixedSize := F, seqSize := L, pointer := c, ended := false }
          exec .setRegion s = .next (respond q .ok (body t) { e with table := t }))
        ∧ ((∀ c : CueIx, F ≤ c.val → c.val < F + L → (e.cueRec c).enabled = false) →
          let t : CueTable := { e.table with fixedSize := F, seqSize := L, pointer := Fin.ofNat 256 F, ended := true }
          exec .setRegion s = .next (respond q .ok (body t) { e with table := t }))))
    ∧ ∀ ref, q.req = .setPointer ref →
      let fits (c : CueIx) : Prop := e.table.fixedSize ≤ c.val ∧ c.val < e.table.fixedSize + e.table.seqSize
        ∧ (e.cueRec c).enabled = true
      let placed (c : CueIx) : CueTable := { e.table with pointer := c, ended := false }
      (e.auth.holder ≠ some q.port → exec .setPointer s = .next (respond q .noAuthority (body e.table) e))
      ∧ (e.auth.holder = some q.port → ref = .toEnd →
        exec .setPointer s = .next (respond q .ok (body { e.table with ended := true })
          { e with table := { e.table with ended := true } }))
      ∧ (e.auth.holder = some q.port → ref = .next → e.table.ended = true →
        exec .setPointer s = .next (respond q .badValue (body e.table) e))
      ∧ ∀ c, e.auth.holder = some q.port →
        (ref = .index c ∨ (ref = .next ∧ e.table.ended = false ∧ e.table.pointer = c)) →
        (¬ fits c → exec .setPointer s = .next (respond q .badValue (body e.table) e))
        ∧ (fits c → exec .setPointer s = .next (respond q .ok (body (placed c)) { e with table := placed c }))

/-! Requests of the homing controller and the lamp resolver. -/

/-- R151, R103, R102: Restore Station and Lamp Test are refused with BAD_VALUE for a number past 23 and with NOT_AVAILABLE
where their rules say so. An accepted restore is pending; an accepted test places TEST on every lamp below the count
and sets the timer to 3,000 ms. A lamp shows its highest-ranked claim: TEST, GO, LATE, STANDBY, READY, else OFF. -/
def Obligations.RestoreAndLampTestServed : Prop :=
  (∀ (s : State) (q : QueuedRequest), Serves s q →
    let e := windowEnded s
    (∀ b : Byte, 24 ≤ b.toNat →
      (q.req = .restoreStation b → exec .restoreStation s = .next (respond q .badValue [] e))
      ∧ (q.req = .lampTest b → exec .lampTest s = .next (respond q .badValue [] e)))
    ∧ ∀ (b : Byte) (st : Station), b.toNat = st.val →
      (q.req = .restoreStation b →
        let may := (e.station st).enabled = true ∧ e.homing[st].state = .onSpare ∧ e.clean st (e.station st).primary = true
        (¬ may → exec .restoreStation s = .next (respond q .notAvailable [] e))
        ∧ (may → exec .restoreStation s = .next (respond q .ok []
          { e with homing := e.homing.set st { e.homing[st] with restorePending := true } })))
      ∧ (q.req = .lampTest b →
        let r := e.station st
        let may := r.enabled = true ∧ r.kind ≠ .source ∧ r.lampCount ≠ 0
        (¬ may → exec .lampTest s = .next (respond q .notAvailable [] e))
        ∧ (may → ∃ t, exec .lampTest s = .next (respond q .ok [] t)
          ∧ t.lamps.timer = e.lamps.timer.set st (some 3000)
          ∧ (∀ j : Lamp, t.lamps.test[st][j] = (e.lamps.test[st][j] || j.val < r.lampCount))
          ∧ (∀ u : Station, u ≠ st → t.lamps.test[u] = e.lamps.test[u])
          ∧ t = { e with lamps := { e.lamps with test := t.lamps.test, timer := t.lamps.timer } })))
  ∧ ∀ (l : LampState) (st : Station) (j : Lamp),
    let claimed (r : Rank) : Prop := ∃ x ∈ l.claims, x.st = st ∧ x.lamp = j ∧ x.rank = r
    (l.test[st][j] = true → l.shown st j = .test)
    ∧ (l.test[st][j] = false →
      (claimed .go → l.shown st j = .go)
      ∧ (¬ claimed .go → claimed .late → l.shown st j = .late)
      ∧ (¬ claimed .go → ¬ claimed .late → claimed .standby → l.shown st j = .standby)
      ∧ (¬ claimed .go → ¬ claimed .late → ¬ claimed .standby → claimed .ready → l.shown st j = .ready)
      ∧ (¬ claimed .go → ¬ claimed .late → ¬ claimed .standby → ¬ claimed .ready → l.shown st j = .off))

/-! The meter, the status and the soft reset. -/

/-- R180: a Meter Start with a point in range aborts a running measurement, reported to its requester, and begins its own
in BLANK; with an index or a mode out of range it is refused and the measurement left as it is. A Meter Stop ends a
measurement without a report. -/
def Obligations.MeterRequestsServed : Prop :=
  ∀ (s : State) (q : QueuedRequest), Serves s q →
    let e := windowEnded s
    (∀ pt ix md, q.req = .meterStart pt ix md →
      ((meterPointOf? pt.toNat ix.toNat = none ∨ (md.toNat ≠ 1 ∧ md.toNat ≠ 2)) →
        exec .meterStart s = .next (respond q .badValue [] e))
      ∧ ∀ x, meterPointOf? pt.toNat ix.toNat = some x → (md.toNat = 1 ∨ md.toNat = 2) →
        let m : Meter := { port := q.port, tag := q.tag, point := x, repeats := md.toNat = 2, measuring := false,
                           count := 0, peak := 0, blocks := 0, noSignal := false }
        exec .meterStart s = .next (respond q .ok [] (match e.mgmt.meter with
          | none => { e with mgmt := { e.mgmt with meter := some m } }
          | some o => placeReport o.port
              { kind := 0xE9, tag := o.tag, code := 0, body := [byteOf o.point.codes.1, byteOf o.point.codes.2] }
              { e with mgmt := { e.mgmt with meter := some m } })))
    ∧ (q.req = .meterStop →
      exec .meterStop s = .next (respond q .ok [] { e with mgmt := { e.mgmt with meter := none } }))

/-- R179, R172, R181: a Get Status out of range is refused with BAD_VALUE (with no body, which is notes/assumptions/8.md),
and otherwise carries the named item's state as it stands, laid out as R184 gives; the number of the device is ignored
(notes/assumptions/31.md); one for the device then clears the reader's REPORT_LOST (before its response is placed, which is
the model's choice, notes/assumptions/32.md). R168, R111, R186: the flags of the management view and of the station view. A
Soft Reset is answered OK and then holds the head until the frame that carries the OK has been sent, when the reset is
due. -/
def Obligations.GetStatusAndSoftResetServed : Prop :=
  (∀ (s : State) (q : QueuedRequest), Serves s q →
    let e := windowEnded s
    (∀ it num, q.req = .getStatus it num → NoneDue s →
      (statusItemOf? it.toNat num.toNat = none → exec .getStatus s = .next (respond q .badValue [] e))
      ∧ (it.toNat = 0 → exec .getStatus s = .next (respond q .ok (e.deviceStatus q.port)
          { e with out := upd e.out q.port fun o => { o with lost := false } }))
      ∧ ∀ x, it.toNat ≠ 0 → statusItemOf? it.toNat num.toNat = some x →
        exec .getStatus s = .next (respond q .ok (e.statusBytes q.port x) e))
    ∧ (q.req = .softReset →
      let m : Message := { kind := 0x98, tag := q.tag, code := 0, body := [] }
      exec .softReset s = .next (match placeResponse q.port m e with
        | some t => { t with mgmt := { e.mgmt with service := .resetOk q.port } }
        | none => { e with mgmt := { e.mgmt with service := .waiting q.port m true } })))
  ∧ (∀ (s : State) (p : Port), Calm s → s.composed.mgmt.service = .resetOk p →
    ∃ t, exec .blockCompletion s = .next t
      ∧ t.mgmt.service =
        if (fillArea 64 s.composed.out[p].queue).1.any (fun m => m.kind = 0x98 && m.code = 0) then .resetDue else .resetOk p)
  ∧ (∀ (s : State) (p : Port) (st : Station),
    let v := s.managementView p
    let w := s.stationView st
    let link (u : Station) : Prop := (s.station u).enabled = true ∧ (s.homing[u].state = .isolated
      ∨ ∃ a, s.homing[u].active = some a ∧ (s.live.serves a).isSome = true ∧ s.faults.ports[a].linkCond = true)
    let fault : Prop := (∃ u : Station, s.homing[u].primFailed = true ∨ s.homing[u].spareFailed = true
        ∨ ((s.station u).enabled = true ∧ (s.homing[u].state = .switching ∨ s.homing[u].state = .isolated))
        ∨ s.faults.stations[u].mute ≠ .none)
      ∨ ∃ a : Port, s.faults.ports[a].deskLatched = true
    let warn : Prop := (∃ a : Port, s.faults.ports[a].linkWarn = true ∨ s.faults.ports[a].deskWarn = true)
      ∨ (∃ u : Station, s.faults.stations[u].overWarn = true ∨ s.faults.stations[u].clipWarn = true)
      ∨ s.faults.cueWarn = true
    (v.getLsbD 0 = true ↔ fault) ∧ (v.getLsbD 1 = true ↔ warn) ∧ (v.getLsbD 2 = true ↔ ∃ u, link u)
    ∧ (v.getLsbD 3 = true ↔ ∃ e ∈ s.cues, .late ∈ e.targets ∨ .lost ∈ e.targets)
    ∧ v.getLsbD 4 = s.mgmt.hold ∧ (v.getLsbD 5 = true ↔ s.auth.holder = some p) ∧ v.getLsbD 6 = s.faults.resetFlag
    ∧ v.getLsbD 7 = s.out[p].lost
    ∧ (w.getLsbD 0 = true ↔ fault) ∧ (w.getLsbD 1 = true ↔ s.faults.stations[st].mute ≠ .none)
    ∧ (w.getLsbD 2 = true ↔ link st)
    ∧ (w.getLsbD 3 = true ↔ s.homing[st].state = .switching ∨ s.homing[st].state = .onSpare)
    ∧ ∀ i, 4 ≤ i → w.getLsbD i = false)
  ∧ (∀ (s : State) (reader p : Port),
    let u := s.ports[p]
    let f := s.faults.ports[p]
    s.statusBytes reader (.port p) = [byteOf (bit 0 u.up + bit 1 ((s.live.serves p).isSome && u.cond) + bit 2 f.linkWarn
        + bit 3 f.deskWarn + bit 4 f.deskLatched), byteOf u.acquire, byteOf u.loss, byteOf u.bucket,
      (match u.conceal with
        | .fresh => 1
        | .halved => 2
        | .silent => 3),
      (match s.live.serves p with
        | some st => byteOf st.val
        | none => 0xFF)])
  ∧ (∀ (s : State) (reader : Port) (st : Station),
    let h := s.homing[st]
    let f := s.faults.stations[st]
    let talk (k : Key) : Byte := match s.arb.talk[st][k] with
      | .off => 0
      | .live => 1
      | .wait => 2
      | .refused => 3
      | .muted => 4
      | .dropped => 5
    s.statusBytes reader (.station st) = encodeStation (s.station st)
      ++ [(match h.state with
          | .onPrimary => 1
          | .switching => 2
          | .onSpare => 3
          | .isolated => 4),
        portByte h.active, byteOf (bit 0 h.primFailed + bit 1 h.spareFailed + bit 2 h.restorePending),
        byteOf (h.switchRem.getD 0)]
      ++ le16 s.mix.duck[st]
      ++ [byteOf (bit 0 s.mix.clip[st] + bit 1 (s.stationLink st) + bit 2 f.overCond + bit 3 f.overWarn + bit 4 f.clipWarn),
        byteOf f.setRun, byteOf f.clearRun,
        (match f.mute with
          | .none => 0
          | .latched => 1
          | .rekey => 2),
        talk 0, talk 1, talk 2, talk 3,
        (match s.arb.ann[st] with
          | .none => 0
          | .inChannel => 1
          | .refused => 2
          | .dropped => 3)])
  ∧ (∀ (s : State) (reader : Port) (n : Net),
    let eight (l : List Hold) : List Byte :=
      let bs := (l.map fun h => [byteOf h.st.val, byteOf h.key.val]).flatten
      byteOf l.length :: (bs ++ List.replicate (16 - bs.length) 0)
    s.statusBytes reader (.net n) = encodeNet (s.net n) ++ eight s.arb.holders[n] ++ eight s.arb.waits[n]
      ++ (match s.arb.calls[n] with
        | .idle => ([0, 0, 0, 0, 0] : List Byte)
        | .calling st k => [1, byteOf st.val, byteOf k.val, 0, 0]
        | .holding (some st) r => [2, byteOf st.val, 0] ++ le16 r
        | .holding none r => [2, 0xFF, 0] ++ le16 r))
  ∧ (∀ (s : State) (reader : Port) (c : CueIx),
    (s.entry c = none → s.statusBytes reader (.cue c) = encodeCue (s.cueRec c) ++ List.replicate 18 0)
    ∧ ∀ (before after : List CueEntry) (e : CueEntry), s.cues = before ++ e :: after → e.cue = c →
      (∀ x ∈ before, x.cue ≠ c) →
      s.statusBytes reader (.cue c) = encodeCue (s.cueRec c) ++ [byteOf e.state.code, byteOf before.length]
        ++ ((e.targets.map fun t => byteOf t.code) ++ List.replicate (8 - e.targets.length) (0 : Byte))
        ++ (match e.deadline with
          | .none => ([0, 0, 0] : List Byte)
          | .running r => (1 : Byte) :: le16 r
          | .expired => ([2, 0, 0] : List Byte)
          | .stopped => ([3, 0, 0] : List Byte))
        ++ [byteOf (bit 0 e.follow.isSome + bit 1 e.byFollow + bit 2 e.unready + bit 3 e.forced)]
        ++ le16 (match e.follow with
          | some f => f.remaining
          | none => 0)
        ++ le16 (if e.state = .going then e.goHold else 0))
  ∧ ∀ (s : State) (reader : Port),
    let m := s.faults.modes
    let v := s.mgmt.settings
    let index (w : Window) (i : Nat) : List Byte := match w.table with
      | .matrix => [byteOf (cellAt w.byNet i).1.val, byteOf (cellAt w.byNet i).2.val]
      | _ => [byteOf i, 0]
    s.statusBytes reader .device =
      [byteOf (bit 0 s.unverified + bit 1 s.takePending.isSome + bit 2 s.table.unverified + bit 3 s.table.ended
          + bit 4 s.faults.cueWarn + bit 5 s.faults.resetFlag + bit 6 s.mgmt.hold + bit 7 s.auth.window.isSome),
        byteOf s.table.fixedSize] ++ le16 s.table.seqSize
      ++ [byteOf s.table.pointer.val, portByte s.auth.holder,
        (match s.auth.holding with
          | some (.station st) => byteOf st.val
          | some .commissioning => 0xFF
          | none => 0)]
      ++ le16 (match s.auth.window with
        | some w => w.elapsed
        | none => 0)
      ++ [byteOf m.link.code, byteOf m.overload.code, byteOf m.desk.code, byteOf m.cue.code, byteOf m.clip.code,
        byteOf s.mgmt.queue.length]
      ++ (match s.mgmt.window with
        | some w => [byteOf (1 + bit 1 w.checkRequired + bit 2 w.byNet), byteOf w.table.code, byteOf w.owner.val]
            ++ index w w.first ++ index w w.last ++ le16 w.advanced ++ le16 w.check.toNat
        | none => List.replicate 11 (0 : Byte))
      ++ (match s.mgmt.meter with
        | some x => [byteOf (1 + bit 1 x.repeats + bit 2 x.measuring + bit 3 x.noSignal), byteOf x.port.val, x.tag,
              byteOf x.point.codes.1, byteOf x.point.codes.2, byteOf x.count] ++ le16 x.peak ++ [byteOf x.blocks]
        | none => List.replicate 9 (0 : Byte))
      ++ [(match v.progSource with
          | some st => byteOf st.val
          | none => 0xFF), byteOf v.high, byteOf v.low] ++ le16 v.duckStep ++ [byteOf (bit 0 v.supEnable)]
      ++ le16 v.supMin ++ le16 v.supMax ++ [s.managementView reader]

/-! Invariants. -/

/-- The request queue holds at most 16 requests and every outbound queue at most 32 messages; the settings record stays in
its ranges, and HOLD is set at or above the high watermark and clear at or below the low. Every step keeps it. -/
def Obligations.QueuesKeepTheirBounds : Prop :=
  ∀ s t : State, RequestRoom s ∧ OutboundRoom s ∧ HoldOk s → step s = .next t → RequestRoom t ∧ OutboundRoom t ∧ HoldOk t

/-- The active cue list holds at most 16 entries, no cue twice, and one state for each target; the split is legal and the
sequence pointer lies in the sequence region; the cue claims are those of the active entries' targets that are not LOST,
each with the rank that R75 gives it. Every step keeps it. -/
def Obligations.CueListAndPointerAreKept : Prop :=
  (∀ s t : State, CueListOk s ∧ PointerOk s → step s = .next t → CueListOk t ∧ PointerOk t)
    ∧ ∀ s t : State, CueListOk s ∧ ClaimsOk s → step s = .next t → ClaimsOk t

/-- Every port unit's counts stay in their ranges (the loss count may stand at 20 until LINK_DOWN is taken, where R125's
range ends at 19: notes/assumptions/1.md), and so do every duck gain and duck depth; only a holder has a holding station, a
supervision window or a DESK condition; and every link threshold stays in its range and every served port's link condition
as its link state and bucket give it, held alike by the fault supervisor. Every step keeps it, and so does what a
completion forms its frames from. -/
def Obligations.RangesAreKept : Prop :=
  (∀ s t : State, PortsOk s ∧ DucksOk s ∧ AuthorityOk s → step s = .next t → PortsOk t ∧ DucksOk t ∧ AuthorityOk t)
    ∧ ∀ s : State, CondsOk s → CondsOk s.composed ∧ ∀ t, step s = .next t → CondsOk t

/-- In both banks no port is named by two enabled records, no row has more than four cells above listen level 0, and no
talk key stands in two cells of a row. Every step keeps it. -/
def Obligations.BanksKeepTheirRules : Prop := ∀ s t : State, BanksOk s → step s = .next t → BanksOk t

/-- Every station's active port, marks and switchover timer agree with its homing state and its LIVE record. Every step
keeps it. R113: authority held through a station is held on its active port, and COMMISSIONING on port 0; every step keeps
this too, in states whose banks, homing and authority are in order. -/
def Obligations.HomingFollowsTheRecords : Prop :=
  (∀ s t : State, HomingOk s → step s = .next t → HomingOk t)
    ∧ ∀ s t : State, BanksOk s ∧ HomingOk s ∧ AuthorityOk s ∧ HolderOk s → step s = .next t → HolderOk t

/-- R2, R3, R9: no net has more holders than slots or more than 8 waiters, or waiters while a slot is free. R2, R4: a
station stands at most once in the lists of a net, on the net whose cell carries the key, and a talk standing is LIVE or
WAIT exactly while a list has its entry (that a second press of such a key changes nothing is notes/assumptions/39.md).
Every step keeps both; so does the arbiter's part of a Take, from the bank before to the bank after. -/
def Obligations.TalkListsKeepTheirBounds : Prop :=
  (∀ s t : State, TalkListsOk s → step s = .next t → TalkListsOk t)
    ∧ (∀ s t : State, s.arb.Agrees s.live → step s = .next t → t.arb.Agrees t.live)
    ∧ ∀ (old new : Bank) (a : Arbiter), a.Agrees old → (a.applyTake old new).Agrees new

/-- The state after power-on has every invariant. -/
def Obligations.ResetStateHasTheInvariants : Prop :=
  RequestRoom State.reset ∧ OutboundRoom State.reset ∧ HoldOk State.reset ∧ CueListOk State.reset ∧ PointerOk State.reset
    ∧ PortsOk State.reset ∧ DucksOk State.reset ∧ AuthorityOk State.reset ∧ BanksOk State.reset ∧ HomingOk State.reset
    ∧ TalkListsOk State.reset ∧ ClaimsOk State.reset ∧ CondsOk State.reset ∧ State.reset.arb.Agrees State.reset.live
    ∧ HolderOk State.reset
end

