-- ==== Sys2Proof/Laws/State.lean ====
section
/-! SUPPORT. One lemma per field per update of State: the field written has its new value, every other field is
unchanged. -/

namespace Sys2Proof.Machine

variable (s : State)

/-! Vectors: one component changed. -/

theorem upd_nat {α : Type} {n : Nat} (v : Vector α n) (i : Fin n) (f : α → α) (j : Nat) (hj : j < n) :
    (upd v i f)[j] = if i.val = j then f v[j] else v[j] := by
  rcases eq_or_ne i.val j with h | h
  · subst h; simp [upd]
  · simp [upd, h]

theorem upd_get {α : Type} {n : Nat} (v : Vector α n) (i j : Fin n) (f : α → α) :
    (upd v i f)[j] = if i = j then f v[j] else v[j] := by
  rw [Fin.getElem_fin, upd_nat]
  simp [Fin.ext_iff]

theorem upd_same {α : Type} {n : Nat} (v : Vector α n) (i : Fin n) (f : α → α) : (upd v i f)[i] = f v[i] := by
  rw [upd_get, if_pos rfl]

theorem upd_other {α : Type} {n : Nat} (v : Vector α n) (i j : Fin n) (f : α → α) (h : i ≠ j) :
    (upd v i f)[j] = v[j] := by
  rw [upd_get, if_neg h]

/-! modPort. -/

@[simp] theorem State.modPort_pending (p : Port) (f : PortUnit → PortUnit) : (s.modPort p f).pending = s.pending := rfl
@[simp] theorem State.modPort_resetLine (p : Port) (f : PortUnit → PortUnit) : (s.modPort p f).resetLine = s.resetLine := rfl
@[simp] theorem State.modPort_opened (p : Port) (f : PortUnit → PortUnit) : (s.modPort p f).opened = s.opened := rfl
@[simp] theorem State.modPort_freeCount (p : Port) (f : PortUnit → PortUnit) : (s.modPort p f).freeCount = s.freeCount := rfl
@[simp] theorem State.modPort_live (p : Port) (f : PortUnit → PortUnit) : (s.modPort p f).live = s.live := rfl
@[simp] theorem State.modPort_edit (p : Port) (f : PortUnit → PortUnit) : (s.modPort p f).edit = s.edit := rfl
@[simp] theorem State.modPort_unverified (p : Port) (f : PortUnit → PortUnit) : (s.modPort p f).unverified = s.unverified := rfl
@[simp] theorem State.modPort_takePending (p : Port) (f : PortUnit → PortUnit) : (s.modPort p f).takePending = s.takePending := rfl
@[simp] theorem State.modPort_takeDue (p : Port) (f : PortUnit → PortUnit) : (s.modPort p f).takeDue = s.takeDue := rfl
@[simp] theorem State.modPort_takeWaiting (p : Port) (f : PortUnit → PortUnit) : (s.modPort p f).takeWaiting = s.takeWaiting := rfl
@[simp] theorem State.modPort_arb (p : Port) (f : PortUnit → PortUnit) : (s.modPort p f).arb = s.arb := rfl
@[simp] theorem State.modPort_mix (p : Port) (f : PortUnit → PortUnit) : (s.modPort p f).mix = s.mix := rfl
@[simp] theorem State.modPort_table (p : Port) (f : PortUnit → PortUnit) : (s.modPort p f).table = s.table := rfl
@[simp] theorem State.modPort_cues (p : Port) (f : PortUnit → PortUnit) : (s.modPort p f).cues = s.cues := rfl
@[simp] theorem State.modPort_lamps (p : Port) (f : PortUnit → PortUnit) : (s.modPort p f).lamps = s.lamps := rfl
@[simp] theorem State.modPort_auth (p : Port) (f : PortUnit → PortUnit) : (s.modPort p f).auth = s.auth := rfl
@[simp] theorem State.modPort_ports (p : Port) (f : PortUnit → PortUnit) : (s.modPort p f).ports = upd s.ports p f := rfl
@[simp] theorem State.modPort_out (p : Port) (f : PortUnit → PortUnit) : (s.modPort p f).out = s.out := rfl
@[simp] theorem State.modPort_homing (p : Port) (f : PortUnit → PortUnit) : (s.modPort p f).homing = s.homing := rfl
@[simp] theorem State.modPort_faults (p : Port) (f : PortUnit → PortUnit) : (s.modPort p f).faults = s.faults := rfl
@[simp] theorem State.modPort_mgmt (p : Port) (f : PortUnit → PortUnit) : (s.modPort p f).mgmt = s.mgmt := rfl
@[simp] theorem State.modPort_sent (p : Port) (f : PortUnit → PortUnit) : (s.modPort p f).sent = s.sent := rfl

/-! modOut. -/

@[simp] theorem State.modOut_pending (p : Port) (f : Outbound → Outbound) : (s.modOut p f).pending = s.pending := rfl
@[simp] theorem State.modOut_resetLine (p : Port) (f : Outbound → Outbound) : (s.modOut p f).resetLine = s.resetLine := rfl
@[simp] theorem State.modOut_opened (p : Port) (f : Outbound → Outbound) : (s.modOut p f).opened = s.opened := rfl
@[simp] theorem State.modOut_freeCount (p : Port) (f : Outbound → Outbound) : (s.modOut p f).freeCount = s.freeCount := rfl
@[simp] theorem State.modOut_live (p : Port) (f : Outbound → Outbound) : (s.modOut p f).live = s.live := rfl
@[simp] theorem State.modOut_edit (p : Port) (f : Outbound → Outbound) : (s.modOut p f).edit = s.edit := rfl
@[simp] theorem State.modOut_unverified (p : Port) (f : Outbound → Outbound) : (s.modOut p f).unverified = s.unverified := rfl
@[simp] theorem State.modOut_takePending (p : Port) (f : Outbound → Outbound) : (s.modOut p f).takePending = s.takePending := rfl
@[simp] theorem State.modOut_takeDue (p : Port) (f : Outbound → Outbound) : (s.modOut p f).takeDue = s.takeDue := rfl
@[simp] theorem State.modOut_takeWaiting (p : Port) (f : Outbound → Outbound) : (s.modOut p f).takeWaiting = s.takeWaiting := rfl
@[simp] theorem State.modOut_arb (p : Port) (f : Outbound → Outbound) : (s.modOut p f).arb = s.arb := rfl
@[simp] theorem State.modOut_mix (p : Port) (f : Outbound → Outbound) : (s.modOut p f).mix = s.mix := rfl
@[simp] theorem State.modOut_table (p : Port) (f : Outbound → Outbound) : (s.modOut p f).table = s.table := rfl
@[simp] theorem State.modOut_cues (p : Port) (f : Outbound → Outbound) : (s.modOut p f).cues = s.cues := rfl
@[simp] theorem State.modOut_lamps (p : Port) (f : Outbound → Outbound) : (s.modOut p f).lamps = s.lamps := rfl
@[simp] theorem State.modOut_auth (p : Port) (f : Outbound → Outbound) : (s.modOut p f).auth = s.auth := rfl
@[simp] theorem State.modOut_ports (p : Port) (f : Outbound → Outbound) : (s.modOut p f).ports = s.ports := rfl
@[simp] theorem State.modOut_out (p : Port) (f : Outbound → Outbound) : (s.modOut p f).out = upd s.out p f := rfl
@[simp] theorem State.modOut_homing (p : Port) (f : Outbound → Outbound) : (s.modOut p f).homing = s.homing := rfl
@[simp] theorem State.modOut_faults (p : Port) (f : Outbound → Outbound) : (s.modOut p f).faults = s.faults := rfl
@[simp] theorem State.modOut_mgmt (p : Port) (f : Outbound → Outbound) : (s.modOut p f).mgmt = s.mgmt := rfl
@[simp] theorem State.modOut_sent (p : Port) (f : Outbound → Outbound) : (s.modOut p f).sent = s.sent := rfl

/-! modHoming. -/

@[simp] theorem State.modHoming_pending (st : Station) (f : Homing → Homing) : (s.modHoming st f).pending = s.pending := rfl
@[simp] theorem State.modHoming_resetLine (st : Station) (f : Homing → Homing) : (s.modHoming st f).resetLine = s.resetLine := rfl
@[simp] theorem State.modHoming_opened (st : Station) (f : Homing → Homing) : (s.modHoming st f).opened = s.opened := rfl
@[simp] theorem State.modHoming_freeCount (st : Station) (f : Homing → Homing) : (s.modHoming st f).freeCount = s.freeCount := rfl
@[simp] theorem State.modHoming_live (st : Station) (f : Homing → Homing) : (s.modHoming st f).live = s.live := rfl
@[simp] theorem State.modHoming_edit (st : Station) (f : Homing → Homing) : (s.modHoming st f).edit = s.edit := rfl
@[simp] theorem State.modHoming_unverified (st : Station) (f : Homing → Homing) : (s.modHoming st f).unverified = s.unverified := rfl
@[simp] theorem State.modHoming_takePending (st : Station) (f : Homing → Homing) : (s.modHoming st f).takePending = s.takePending := rfl
@[simp] theorem State.modHoming_takeDue (st : Station) (f : Homing → Homing) : (s.modHoming st f).takeDue = s.takeDue := rfl
@[simp] theorem State.modHoming_takeWaiting (st : Station) (f : Homing → Homing) : (s.modHoming st f).takeWaiting = s.takeWaiting := rfl
@[simp] theorem State.modHoming_arb (st : Station) (f : Homing → Homing) : (s.modHoming st f).arb = s.arb := rfl
@[simp] theorem State.modHoming_mix (st : Station) (f : Homing → Homing) : (s.modHoming st f).mix = s.mix := rfl
@[simp] theorem State.modHoming_table (st : Station) (f : Homing → Homing) : (s.modHoming st f).table = s.table := rfl
@[simp] theorem State.modHoming_cues (st : Station) (f : Homing → Homing) : (s.modHoming st f).cues = s.cues := rfl
@[simp] theorem State.modHoming_lamps (st : Station) (f : Homing → Homing) : (s.modHoming st f).lamps = s.lamps := rfl
@[simp] theorem State.modHoming_auth (st : Station) (f : Homing → Homing) : (s.modHoming st f).auth = s.auth := rfl
@[simp] theorem State.modHoming_ports (st : Station) (f : Homing → Homing) : (s.modHoming st f).ports = s.ports := rfl
@[simp] theorem State.modHoming_out (st : Station) (f : Homing → Homing) : (s.modHoming st f).out = s.out := rfl
@[simp] theorem State.modHoming_homing (st : Station) (f : Homing → Homing) : (s.modHoming st f).homing = upd s.homing st f := rfl
@[simp] theorem State.modHoming_faults (st : Station) (f : Homing → Homing) : (s.modHoming st f).faults = s.faults := rfl
@[simp] theorem State.modHoming_mgmt (st : Station) (f : Homing → Homing) : (s.modHoming st f).mgmt = s.mgmt := rfl
@[simp] theorem State.modHoming_sent (st : Station) (f : Homing → Homing) : (s.modHoming st f).sent = s.sent := rfl

/-! modPortFaults. -/

@[simp] theorem State.modPortFaults_pending (p : Port) (f : PortFaults → PortFaults) : (s.modPortFaults p f).pending = s.pending := rfl
@[simp] theorem State.modPortFaults_resetLine (p : Port) (f : PortFaults → PortFaults) : (s.modPortFaults p f).resetLine = s.resetLine := rfl
@[simp] theorem State.modPortFaults_opened (p : Port) (f : PortFaults → PortFaults) : (s.modPortFaults p f).opened = s.opened := rfl
@[simp] theorem State.modPortFaults_freeCount (p : Port) (f : PortFaults → PortFaults) : (s.modPortFaults p f).freeCount = s.freeCount := rfl
@[simp] theorem State.modPortFaults_live (p : Port) (f : PortFaults → PortFaults) : (s.modPortFaults p f).live = s.live := rfl
@[simp] theorem State.modPortFaults_edit (p : Port) (f : PortFaults → PortFaults) : (s.modPortFaults p f).edit = s.edit := rfl
@[simp] theorem State.modPortFaults_unverified (p : Port) (f : PortFaults → PortFaults) : (s.modPortFaults p f).unverified = s.unverified := rfl
@[simp] theorem State.modPortFaults_takePending (p : Port) (f : PortFaults → PortFaults) : (s.modPortFaults p f).takePending = s.takePending := rfl
@[simp] theorem State.modPortFaults_takeDue (p : Port) (f : PortFaults → PortFaults) : (s.modPortFaults p f).takeDue = s.takeDue := rfl
@[simp] theorem State.modPortFaults_takeWaiting (p : Port) (f : PortFaults → PortFaults) : (s.modPortFaults p f).takeWaiting = s.takeWaiting := rfl
@[simp] theorem State.modPortFaults_arb (p : Port) (f : PortFaults → PortFaults) : (s.modPortFaults p f).arb = s.arb := rfl
@[simp] theorem State.modPortFaults_mix (p : Port) (f : PortFaults → PortFaults) : (s.modPortFaults p f).mix = s.mix := rfl
@[simp] theorem State.modPortFaults_table (p : Port) (f : PortFaults → PortFaults) : (s.modPortFaults p f).table = s.table := rfl
@[simp] theorem State.modPortFaults_cues (p : Port) (f : PortFaults → PortFaults) : (s.modPortFaults p f).cues = s.cues := rfl
@[simp] theorem State.modPortFaults_lamps (p : Port) (f : PortFaults → PortFaults) : (s.modPortFaults p f).lamps = s.lamps := rfl
@[simp] theorem State.modPortFaults_auth (p : Port) (f : PortFaults → PortFaults) : (s.modPortFaults p f).auth = s.auth := rfl
@[simp] theorem State.modPortFaults_ports (p : Port) (f : PortFaults → PortFaults) : (s.modPortFaults p f).ports = s.ports := rfl
@[simp] theorem State.modPortFaults_out (p : Port) (f : PortFaults → PortFaults) : (s.modPortFaults p f).out = s.out := rfl
@[simp] theorem State.modPortFaults_homing (p : Port) (f : PortFaults → PortFaults) : (s.modPortFaults p f).homing = s.homing := rfl
@[simp] theorem State.modPortFaults_faults (p : Port) (f : PortFaults → PortFaults) : (s.modPortFaults p f).faults = { s.faults with ports := upd s.faults.ports p f } := rfl
@[simp] theorem State.modPortFaults_mgmt (p : Port) (f : PortFaults → PortFaults) : (s.modPortFaults p f).mgmt = s.mgmt := rfl
@[simp] theorem State.modPortFaults_sent (p : Port) (f : PortFaults → PortFaults) : (s.modPortFaults p f).sent = s.sent := rfl

/-! modStFaults. -/

@[simp] theorem State.modStFaults_pending (st : Station) (f : StationFaults → StationFaults) : (s.modStFaults st f).pending = s.pending := rfl
@[simp] theorem State.modStFaults_resetLine (st : Station) (f : StationFaults → StationFaults) : (s.modStFaults st f).resetLine = s.resetLine := rfl
@[simp] theorem State.modStFaults_opened (st : Station) (f : StationFaults → StationFaults) : (s.modStFaults st f).opened = s.opened := rfl
@[simp] theorem State.modStFaults_freeCount (st : Station) (f : StationFaults → StationFaults) : (s.modStFaults st f).freeCount = s.freeCount := rfl
@[simp] theorem State.modStFaults_live (st : Station) (f : StationFaults → StationFaults) : (s.modStFaults st f).live = s.live := rfl
@[simp] theorem State.modStFaults_edit (st : Station) (f : StationFaults → StationFaults) : (s.modStFaults st f).edit = s.edit := rfl
@[simp] theorem State.modStFaults_unverified (st : Station) (f : StationFaults → StationFaults) : (s.modStFaults st f).unverified = s.unverified := rfl
@[simp] theorem State.modStFaults_takePending (st : Station) (f : StationFaults → StationFaults) : (s.modStFaults st f).takePending = s.takePending := rfl
@[simp] theorem State.modStFaults_takeDue (st : Station) (f : StationFaults → StationFaults) : (s.modStFaults st f).takeDue = s.takeDue := rfl
@[simp] theorem State.modStFaults_takeWaiting (st : Station) (f : StationFaults → StationFaults) : (s.modStFaults st f).takeWaiting = s.takeWaiting := rfl
@[simp] theorem State.modStFaults_arb (st : Station) (f : StationFaults → StationFaults) : (s.modStFaults st f).arb = s.arb := rfl
@[simp] theorem State.modStFaults_mix (st : Station) (f : StationFaults → StationFaults) : (s.modStFaults st f).mix = s.mix := rfl
@[simp] theorem State.modStFaults_table (st : Station) (f : StationFaults → StationFaults) : (s.modStFaults st f).table = s.table := rfl
@[simp] theorem State.modStFaults_cues (st : Station) (f : StationFaults → StationFaults) : (s.modStFaults st f).cues = s.cues := rfl
@[simp] theorem State.modStFaults_lamps (st : Station) (f : StationFaults → StationFaults) : (s.modStFaults st f).lamps = s.lamps := rfl
@[simp] theorem State.modStFaults_auth (st : Station) (f : StationFaults → StationFaults) : (s.modStFaults st f).auth = s.auth := rfl
@[simp] theorem State.modStFaults_ports (st : Station) (f : StationFaults → StationFaults) : (s.modStFaults st f).ports = s.ports := rfl
@[simp] theorem State.modStFaults_out (st : Station) (f : StationFaults → StationFaults) : (s.modStFaults st f).out = s.out := rfl
@[simp] theorem State.modStFaults_homing (st : Station) (f : StationFaults → StationFaults) : (s.modStFaults st f).homing = s.homing := rfl
@[simp] theorem State.modStFaults_faults (st : Station) (f : StationFaults → StationFaults) : (s.modStFaults st f).faults = { s.faults with stations := upd s.faults.stations st f } := rfl
@[simp] theorem State.modStFaults_mgmt (st : Station) (f : StationFaults → StationFaults) : (s.modStFaults st f).mgmt = s.mgmt := rfl
@[simp] theorem State.modStFaults_sent (st : Station) (f : StationFaults → StationFaults) : (s.modStFaults st f).sent = s.sent := rfl

/-! modArb. -/

@[simp] theorem State.modArb_pending (f : Arbiter → Arbiter) : (s.modArb f).pending = s.pending := rfl
@[simp] theorem State.modArb_resetLine (f : Arbiter → Arbiter) : (s.modArb f).resetLine = s.resetLine := rfl
@[simp] theorem State.modArb_opened (f : Arbiter → Arbiter) : (s.modArb f).opened = s.opened := rfl
@[simp] theorem State.modArb_freeCount (f : Arbiter → Arbiter) : (s.modArb f).freeCount = s.freeCount := rfl
@[simp] theorem State.modArb_live (f : Arbiter → Arbiter) : (s.modArb f).live = s.live := rfl
@[simp] theorem State.modArb_edit (f : Arbiter → Arbiter) : (s.modArb f).edit = s.edit := rfl
@[simp] theorem State.modArb_unverified (f : Arbiter → Arbiter) : (s.modArb f).unverified = s.unverified := rfl
@[simp] theorem State.modArb_takePending (f : Arbiter → Arbiter) : (s.modArb f).takePending = s.takePending := rfl
@[simp] theorem State.modArb_takeDue (f : Arbiter → Arbiter) : (s.modArb f).takeDue = s.takeDue := rfl
@[simp] theorem State.modArb_takeWaiting (f : Arbiter → Arbiter) : (s.modArb f).takeWaiting = s.takeWaiting := rfl
@[simp] theorem State.modArb_arb (f : Arbiter → Arbiter) : (s.modArb f).arb = f s.arb := rfl
@[simp] theorem State.modArb_mix (f : Arbiter → Arbiter) : (s.modArb f).mix = s.mix := rfl
@[simp] theorem State.modArb_table (f : Arbiter → Arbiter) : (s.modArb f).table = s.table := rfl
@[simp] theorem State.modArb_cues (f : Arbiter → Arbiter) : (s.modArb f).cues = s.cues := rfl
@[simp] theorem State.modArb_lamps (f : Arbiter → Arbiter) : (s.modArb f).lamps = s.lamps := rfl
@[simp] theorem State.modArb_auth (f : Arbiter → Arbiter) : (s.modArb f).auth = s.auth := rfl
@[simp] theorem State.modArb_ports (f : Arbiter → Arbiter) : (s.modArb f).ports = s.ports := rfl
@[simp] theorem State.modArb_out (f : Arbiter → Arbiter) : (s.modArb f).out = s.out := rfl
@[simp] theorem State.modArb_homing (f : Arbiter → Arbiter) : (s.modArb f).homing = s.homing := rfl
@[simp] theorem State.modArb_faults (f : Arbiter → Arbiter) : (s.modArb f).faults = s.faults := rfl
@[simp] theorem State.modArb_mgmt (f : Arbiter → Arbiter) : (s.modArb f).mgmt = s.mgmt := rfl
@[simp] theorem State.modArb_sent (f : Arbiter → Arbiter) : (s.modArb f).sent = s.sent := rfl

/-! modAuth. -/

@[simp] theorem State.modAuth_pending (f : Authority → Authority) : (s.modAuth f).pending = s.pending := rfl
@[simp] theorem State.modAuth_resetLine (f : Authority → Authority) : (s.modAuth f).resetLine = s.resetLine := rfl
@[simp] theorem State.modAuth_opened (f : Authority → Authority) : (s.modAuth f).opened = s.opened := rfl
@[simp] theorem State.modAuth_freeCount (f : Authority → Authority) : (s.modAuth f).freeCount = s.freeCount := rfl
@[simp] theorem State.modAuth_live (f : Authority → Authority) : (s.modAuth f).live = s.live := rfl
@[simp] theorem State.modAuth_edit (f : Authority → Authority) : (s.modAuth f).edit = s.edit := rfl
@[simp] theorem State.modAuth_unverified (f : Authority → Authority) : (s.modAuth f).unverified = s.unverified := rfl
@[simp] theorem State.modAuth_takePending (f : Authority → Authority) : (s.modAuth f).takePending = s.takePending := rfl
@[simp] theorem State.modAuth_takeDue (f : Authority → Authority) : (s.modAuth f).takeDue = s.takeDue := rfl
@[simp] theorem State.modAuth_takeWaiting (f : Authority → Authority) : (s.modAuth f).takeWaiting = s.takeWaiting := rfl
@[simp] theorem State.modAuth_arb (f : Authority → Authority) : (s.modAuth f).arb = s.arb := rfl
@[simp] theorem State.modAuth_mix (f : Authority → Authority) : (s.modAuth f).mix = s.mix := rfl
@[simp] theorem State.modAuth_table (f : Authority → Authority) : (s.modAuth f).table = s.table := rfl
@[simp] theorem State.modAuth_cues (f : Authority → Authority) : (s.modAuth f).cues = s.cues := rfl
@[simp] theorem State.modAuth_lamps (f : Authority → Authority) : (s.modAuth f).lamps = s.lamps := rfl
@[simp] theorem State.modAuth_auth (f : Authority → Authority) : (s.modAuth f).auth = f s.auth := rfl
@[simp] theorem State.modAuth_ports (f : Authority → Authority) : (s.modAuth f).ports = s.ports := rfl
@[simp] theorem State.modAuth_out (f : Authority → Authority) : (s.modAuth f).out = s.out := rfl
@[simp] theorem State.modAuth_homing (f : Authority → Authority) : (s.modAuth f).homing = s.homing := rfl
@[simp] theorem State.modAuth_faults (f : Authority → Authority) : (s.modAuth f).faults = s.faults := rfl
@[simp] theorem State.modAuth_mgmt (f : Authority → Authority) : (s.modAuth f).mgmt = s.mgmt := rfl
@[simp] theorem State.modAuth_sent (f : Authority → Authority) : (s.modAuth f).sent = s.sent := rfl

/-! modMgmt. -/

@[simp] theorem State.modMgmt_pending (f : Management → Management) : (s.modMgmt f).pending = s.pending := rfl
@[simp] theorem State.modMgmt_resetLine (f : Management → Management) : (s.modMgmt f).resetLine = s.resetLine := rfl
@[simp] theorem State.modMgmt_opened (f : Management → Management) : (s.modMgmt f).opened = s.opened := rfl
@[simp] theorem State.modMgmt_freeCount (f : Management → Management) : (s.modMgmt f).freeCount = s.freeCount := rfl
@[simp] theorem State.modMgmt_live (f : Management → Management) : (s.modMgmt f).live = s.live := rfl
@[simp] theorem State.modMgmt_edit (f : Management → Management) : (s.modMgmt f).edit = s.edit := rfl
@[simp] theorem State.modMgmt_unverified (f : Management → Management) : (s.modMgmt f).unverified = s.unverified := rfl
@[simp] theorem State.modMgmt_takePending (f : Management → Management) : (s.modMgmt f).takePending = s.takePending := rfl
@[simp] theorem State.modMgmt_takeDue (f : Management → Management) : (s.modMgmt f).takeDue = s.takeDue := rfl
@[simp] theorem State.modMgmt_takeWaiting (f : Management → Management) : (s.modMgmt f).takeWaiting = s.takeWaiting := rfl
@[simp] theorem State.modMgmt_arb (f : Management → Management) : (s.modMgmt f).arb = s.arb := rfl
@[simp] theorem State.modMgmt_mix (f : Management → Management) : (s.modMgmt f).mix = s.mix := rfl
@[simp] theorem State.modMgmt_table (f : Management → Management) : (s.modMgmt f).table = s.table := rfl
@[simp] theorem State.modMgmt_cues (f : Management → Management) : (s.modMgmt f).cues = s.cues := rfl
@[simp] theorem State.modMgmt_lamps (f : Management → Management) : (s.modMgmt f).lamps = s.lamps := rfl
@[simp] theorem State.modMgmt_auth (f : Management → Management) : (s.modMgmt f).auth = s.auth := rfl
@[simp] theorem State.modMgmt_ports (f : Management → Management) : (s.modMgmt f).ports = s.ports := rfl
@[simp] theorem State.modMgmt_out (f : Management → Management) : (s.modMgmt f).out = s.out := rfl
@[simp] theorem State.modMgmt_homing (f : Management → Management) : (s.modMgmt f).homing = s.homing := rfl
@[simp] theorem State.modMgmt_faults (f : Management → Management) : (s.modMgmt f).faults = s.faults := rfl
@[simp] theorem State.modMgmt_mgmt (f : Management → Management) : (s.modMgmt f).mgmt = f s.mgmt := rfl
@[simp] theorem State.modMgmt_sent (f : Management → Management) : (s.modMgmt f).sent = s.sent := rfl

/-! modTable. -/

@[simp] theorem State.modTable_pending (f : CueTable → CueTable) : (s.modTable f).pending = s.pending := rfl
@[simp] theorem State.modTable_resetLine (f : CueTable → CueTable) : (s.modTable f).resetLine = s.resetLine := rfl
@[simp] theorem State.modTable_opened (f : CueTable → CueTable) : (s.modTable f).opened = s.opened := rfl
@[simp] theorem State.modTable_freeCount (f : CueTable → CueTable) : (s.modTable f).freeCount = s.freeCount := rfl
@[simp] theorem State.modTable_live (f : CueTable → CueTable) : (s.modTable f).live = s.live := rfl
@[simp] theorem State.modTable_edit (f : CueTable → CueTable) : (s.modTable f).edit = s.edit := rfl
@[simp] theorem State.modTable_unverified (f : CueTable → CueTable) : (s.modTable f).unverified = s.unverified := rfl
@[simp] theorem State.modTable_takePending (f : CueTable → CueTable) : (s.modTable f).takePending = s.takePending := rfl
@[simp] theorem State.modTable_takeDue (f : CueTable → CueTable) : (s.modTable f).takeDue = s.takeDue := rfl
@[simp] theorem State.modTable_takeWaiting (f : CueTable → CueTable) : (s.modTable f).takeWaiting = s.takeWaiting := rfl
@[simp] theorem State.modTable_arb (f : CueTable → CueTable) : (s.modTable f).arb = s.arb := rfl
@[simp] theorem State.modTable_mix (f : CueTable → CueTable) : (s.modTable f).mix = s.mix := rfl
@[simp] theorem State.modTable_table (f : CueTable → CueTable) : (s.modTable f).table = f s.table := rfl
@[simp] theorem State.modTable_cues (f : CueTable → CueTable) : (s.modTable f).cues = s.cues := rfl
@[simp] theorem State.modTable_lamps (f : CueTable → CueTable) : (s.modTable f).lamps = s.lamps := rfl
@[simp] theorem State.modTable_auth (f : CueTable → CueTable) : (s.modTable f).auth = s.auth := rfl
@[simp] theorem State.modTable_ports (f : CueTable → CueTable) : (s.modTable f).ports = s.ports := rfl
@[simp] theorem State.modTable_out (f : CueTable → CueTable) : (s.modTable f).out = s.out := rfl
@[simp] theorem State.modTable_homing (f : CueTable → CueTable) : (s.modTable f).homing = s.homing := rfl
@[simp] theorem State.modTable_faults (f : CueTable → CueTable) : (s.modTable f).faults = s.faults := rfl
@[simp] theorem State.modTable_mgmt (f : CueTable → CueTable) : (s.modTable f).mgmt = s.mgmt := rfl
@[simp] theorem State.modTable_sent (f : CueTable → CueTable) : (s.modTable f).sent = s.sent := rfl

/-! modLamps. -/

@[simp] theorem State.modLamps_pending (f : LampState → LampState) : (s.modLamps f).pending = s.pending := rfl
@[simp] theorem State.modLamps_resetLine (f : LampState → LampState) : (s.modLamps f).resetLine = s.resetLine := rfl
@[simp] theorem State.modLamps_opened (f : LampState → LampState) : (s.modLamps f).opened = s.opened := rfl
@[simp] theorem State.modLamps_freeCount (f : LampState → LampState) : (s.modLamps f).freeCount = s.freeCount := rfl
@[simp] theorem State.modLamps_live (f : LampState → LampState) : (s.modLamps f).live = s.live := rfl
@[simp] theorem State.modLamps_edit (f : LampState → LampState) : (s.modLamps f).edit = s.edit := rfl
@[simp] theorem State.modLamps_unverified (f : LampState → LampState) : (s.modLamps f).unverified = s.unverified := rfl
@[simp] theorem State.modLamps_takePending (f : LampState → LampState) : (s.modLamps f).takePending = s.takePending := rfl
@[simp] theorem State.modLamps_takeDue (f : LampState → LampState) : (s.modLamps f).takeDue = s.takeDue := rfl
@[simp] theorem State.modLamps_takeWaiting (f : LampState → LampState) : (s.modLamps f).takeWaiting = s.takeWaiting := rfl
@[simp] theorem State.modLamps_arb (f : LampState → LampState) : (s.modLamps f).arb = s.arb := rfl
@[simp] theorem State.modLamps_mix (f : LampState → LampState) : (s.modLamps f).mix = s.mix := rfl
@[simp] theorem State.modLamps_table (f : LampState → LampState) : (s.modLamps f).table = s.table := rfl
@[simp] theorem State.modLamps_cues (f : LampState → LampState) : (s.modLamps f).cues = s.cues := rfl
@[simp] theorem State.modLamps_lamps (f : LampState → LampState) : (s.modLamps f).lamps = f s.lamps := rfl
@[simp] theorem State.modLamps_auth (f : LampState → LampState) : (s.modLamps f).auth = s.auth := rfl
@[simp] theorem State.modLamps_ports (f : LampState → LampState) : (s.modLamps f).ports = s.ports := rfl
@[simp] theorem State.modLamps_out (f : LampState → LampState) : (s.modLamps f).out = s.out := rfl
@[simp] theorem State.modLamps_homing (f : LampState → LampState) : (s.modLamps f).homing = s.homing := rfl
@[simp] theorem State.modLamps_faults (f : LampState → LampState) : (s.modLamps f).faults = s.faults := rfl
@[simp] theorem State.modLamps_mgmt (f : LampState → LampState) : (s.modLamps f).mgmt = s.mgmt := rfl
@[simp] theorem State.modLamps_sent (f : LampState → LampState) : (s.modLamps f).sent = s.sent := rfl

/-! modEntry. -/

@[simp] theorem State.modEntry_pending (c : CueIx) (f : CueEntry → CueEntry) : (s.modEntry c f).pending = s.pending := rfl
@[simp] theorem State.modEntry_resetLine (c : CueIx) (f : CueEntry → CueEntry) : (s.modEntry c f).resetLine = s.resetLine := rfl
@[simp] theorem State.modEntry_opened (c : CueIx) (f : CueEntry → CueEntry) : (s.modEntry c f).opened = s.opened := rfl
@[simp] theorem State.modEntry_freeCount (c : CueIx) (f : CueEntry → CueEntry) : (s.modEntry c f).freeCount = s.freeCount := rfl
@[simp] theorem State.modEntry_live (c : CueIx) (f : CueEntry → CueEntry) : (s.modEntry c f).live = s.live := rfl
@[simp] theorem State.modEntry_edit (c : CueIx) (f : CueEntry → CueEntry) : (s.modEntry c f).edit = s.edit := rfl
@[simp] theorem State.modEntry_unverified (c : CueIx) (f : CueEntry → CueEntry) : (s.modEntry c f).unverified = s.unverified := rfl
@[simp] theorem State.modEntry_takePending (c : CueIx) (f : CueEntry → CueEntry) : (s.modEntry c f).takePending = s.takePending := rfl
@[simp] theorem State.modEntry_takeDue (c : CueIx) (f : CueEntry → CueEntry) : (s.modEntry c f).takeDue = s.takeDue := rfl
@[simp] theorem State.modEntry_takeWaiting (c : CueIx) (f : CueEntry → CueEntry) : (s.modEntry c f).takeWaiting = s.takeWaiting := rfl
@[simp] theorem State.modEntry_arb (c : CueIx) (f : CueEntry → CueEntry) : (s.modEntry c f).arb = s.arb := rfl
@[simp] theorem State.modEntry_mix (c : CueIx) (f : CueEntry → CueEntry) : (s.modEntry c f).mix = s.mix := rfl
@[simp] theorem State.modEntry_table (c : CueIx) (f : CueEntry → CueEntry) : (s.modEntry c f).table = s.table := rfl
@[simp] theorem State.modEntry_cues (c : CueIx) (f : CueEntry → CueEntry) : (s.modEntry c f).cues = s.cues.map fun e => if e.cue = c then f e else e := rfl
@[simp] theorem State.modEntry_lamps (c : CueIx) (f : CueEntry → CueEntry) : (s.modEntry c f).lamps = s.lamps := rfl
@[simp] theorem State.modEntry_auth (c : CueIx) (f : CueEntry → CueEntry) : (s.modEntry c f).auth = s.auth := rfl
@[simp] theorem State.modEntry_ports (c : CueIx) (f : CueEntry → CueEntry) : (s.modEntry c f).ports = s.ports := rfl
@[simp] theorem State.modEntry_out (c : CueIx) (f : CueEntry → CueEntry) : (s.modEntry c f).out = s.out := rfl
@[simp] theorem State.modEntry_homing (c : CueIx) (f : CueEntry → CueEntry) : (s.modEntry c f).homing = s.homing := rfl
@[simp] theorem State.modEntry_faults (c : CueIx) (f : CueEntry → CueEntry) : (s.modEntry c f).faults = s.faults := rfl
@[simp] theorem State.modEntry_mgmt (c : CueIx) (f : CueEntry → CueEntry) : (s.modEntry c f).mgmt = s.mgmt := rfl
@[simp] theorem State.modEntry_sent (c : CueIx) (f : CueEntry → CueEntry) : (s.modEntry c f).sent = s.sent := rfl

end Sys2Proof.Machine
end

