-- ==== Sys2Proof/Laws/Frames.lean ====
section
/-! SUPPORT. What the events of the blocks leave alone, said once: `Stays s t` holds of every event that is no request, no
Take, no completion and no reset. One lemma per operation. -/

namespace Sys2Proof.Machine

/-- The link-level part of a port unit: what frames and completions alone change (R129 to R132, R136, R140). -/
def PortUnit.link (u : PortUnit) : Bool × Nat × Nat × Nat × Option Byte × Block × Byte × Bool :=
  (u.up, u.acquire, u.loss, u.bucket, u.lastSeq, u.slot, u.downSeq, u.validSeen)

/-- `t` has everything of `s` that an event of the blocks leaves alone, and keeps the bounds that `s` keeps. -/
structure Stays (s t : State) : Prop where
  pending : t.pending = s.pending
  resetLine : t.resetLine = s.resetLine
  opened : t.opened = s.opened
  live : t.live = s.live
  edit : t.edit = s.edit
  unverified : t.unverified = s.unverified
  takeDue : t.takeDue = s.takeDue
  takeWaiting : t.takeWaiting = s.takeWaiting
  mix : t.mix = s.mix
  sent : t.sent = s.sent
  mgmt : t.mgmt = s.mgmt
  records : t.table.records = s.table.records
  fixedSize : t.table.fixedSize = s.table.fixedSize
  seqSize : t.table.seqSize = s.table.seqSize
  cueMark : t.table.unverified = s.table.unverified
  links : ∀ p : Port, t.ports[p].link = s.ports[p].link
  room : OutboundRoom s → OutboundRoom t
  pointer : PointerOk s → PointerOk t
  cueList : CueListOk s → CueListOk t

namespace Stays

theorem refl (s : State) : Stays s s := by constructor <;> first | rfl | exact id | exact fun _ => rfl

theorem trans {s t u : State} (h : Stays s t) (k : Stays t u) : Stays s u where
  pending := k.pending.trans h.pending
  resetLine := k.resetLine.trans h.resetLine
  opened := k.opened.trans h.opened
  live := k.live.trans h.live
  edit := k.edit.trans h.edit
  unverified := k.unverified.trans h.unverified
  takeDue := k.takeDue.trans h.takeDue
  takeWaiting := k.takeWaiting.trans h.takeWaiting
  mix := k.mix.trans h.mix
  sent := k.sent.trans h.sent
  mgmt := k.mgmt.trans h.mgmt
  records := k.records.trans h.records
  fixedSize := k.fixedSize.trans h.fixedSize
  seqSize := k.seqSize.trans h.seqSize
  cueMark := k.cueMark.trans h.cueMark
  links := fun p => (k.links p).trans (h.links p)
  room := k.room ∘ h.room
  pointer := k.pointer ∘ h.pointer
  cueList := k.cueList ∘ h.cueList

/-- A fold of operations that all leave these alone leaves them alone. -/
theorem foldl {α : Type} {f : State → α → State} (h : ∀ s a, Stays s (f s a)) (l : List α) (s : State) :
    Stays s (l.foldl f s) := by
  induction l generalizing s with
  | nil => exact refl s
  | cons a l ih => exact (h s a).trans (ih (f s a))

end Stays

/-- The record of a cue where the records are unchanged. -/
theorem Stays.cueRec {s t : State} (h : Stays s t) (c : CueIx) : t.cueRec c = s.cueRec c := by
  unfold State.cueRec; rw [h.records]

/-! Updates that touch none of it. -/

theorem modArb_stays (f : Arbiter → Arbiter) (s : State) : Stays s (s.modArb f) := by
  constructor <;> first | rfl | exact id | exact fun _ => rfl

theorem modAuth_stays (f : Authority → Authority) (s : State) : Stays s (s.modAuth f) := by
  constructor <;> first | rfl | exact id | exact fun _ => rfl

theorem setAuth_stays (a : Authority) (s : State) : Stays s { s with auth := a } := by
  constructor <;> first | rfl | exact id | exact fun _ => rfl

theorem modHoming_stays (st : Station) (f : Homing → Homing) (s : State) : Stays s (s.modHoming st f) := by
  constructor <;> first | rfl | exact id | exact fun _ => rfl

theorem setHoming_stays (v : Vector Homing 24) (s : State) : Stays s { s with homing := v } := by
  constructor <;> first | rfl | exact id | exact fun _ => rfl

theorem setFaults_stays (f : Faults) (s : State) : Stays s { s with faults := f } := by
  constructor <;> first | rfl | exact id | exact fun _ => rfl

theorem modPortFaults_stays (p : Port) (f : PortFaults → PortFaults) (s : State) : Stays s (s.modPortFaults p f) := by
  constructor <;> first | rfl | exact id | exact fun _ => rfl

theorem modStFaults_stays (st : Station) (f : StationFaults → StationFaults) (s : State) :
    Stays s (s.modStFaults st f) := by
  constructor <;> first | rfl | exact id | exact fun _ => rfl

theorem modLamps_stays (f : LampState → LampState) (s : State) : Stays s (s.modLamps f) := by
  constructor <;> first | rfl | exact id | exact fun _ => rfl

theorem setTakePending_stays (o : Option TakeOrigin) (s : State) : Stays s { s with takePending := o } := by
  constructor <;> first | rfl | exact id | exact fun _ => rfl

theorem spend_stays (n : Nat) (s : State) : Stays s (s.spend n) := by
  unfold State.spend
  split
  · exact Stays.refl s
  · constructor <;> first | rfl | exact id | exact fun _ => rfl

/-- A port unit changed where its link-level part is not. -/
theorem modPort_stays (p : Port) (f : PortUnit → PortUnit) (s : State) (h : ∀ u, (f u).link = u.link) :
    Stays s (s.modPort p f) := by
  constructor
  case links =>
    intro q
    rw [State.modPort_ports, upd_get]
    split
    · exact h _
    · rfl
  all_goals first | rfl | exact id

/-! Outbound queues (R171, R172): never more than 32 messages. -/

theorem dropOldestReport_length (l : List Message) (h : l.any Message.isReport = true) :
    (dropOldestReport l).length + 1 = l.length := by
  induction l with
  | nil => simp at h
  | cons m ms ih =>
    unfold dropOldestReport
    split
    · simp
    · rename_i hm
      have h' : ms.any Message.isReport = true := by simpa [hm] using h
      simp [ih h']

theorem putReport_room (o : Outbound) (m : Message) (h : o.queue.length ≤ Config.outboundLimit) :
    (o.putReport m).queue.length ≤ Config.outboundLimit := by
  unfold Outbound.putReport
  split
  · simp; omega
  · split
    · rename_i hr
      have := dropOldestReport_length _ hr
      simp; omega
    · exact h

theorem putResponse_room (o o' : Outbound) (m : Message) (h : o.queue.length ≤ Config.outboundLimit)
    (e : o.putResponse m = some o') : o'.queue.length ≤ Config.outboundLimit := by
  unfold Outbound.putResponse at e
  split at e
  · cases e; simp; omega
  · split at e
    · rename_i hr
      have := dropOldestReport_length _ hr
      cases e; simp; omega
    · cases e

theorem putAnswer_room (o : Outbound) (m : Message) (h : o.queue.length ≤ Config.outboundLimit) :
    (o.putAnswer m).queue.length ≤ Config.outboundLimit := by
  unfold Outbound.putAnswer
  cases e : o.putResponse m with
  | none => exact h
  | some o' => exact putResponse_room o o' m h e

/-- The outbound queues replaced, within their bounds. -/
theorem setOut_stays (v : Vector Outbound 24) (s : State)
    (h : OutboundRoom s → ∀ p : Port, v[p].queue.length ≤ Config.outboundLimit) : Stays s { s with out := v } := by
  constructor
  case room => exact h
  all_goals first | rfl | exact id | exact fun _ => rfl

theorem modOut_stays (p : Port) (f : Outbound → Outbound) (s : State)
    (h : ∀ o, o.queue.length ≤ Config.outboundLimit → (f o).queue.length ≤ Config.outboundLimit) :
    Stays s (s.modOut p f) := by
  apply setOut_stays
  intro hs q
  rw [upd_get]
  split
  · exact h _ (hs q)
  · exact hs q

theorem placeReport_stays (p : Port) (m : Message) (s : State) : Stays s (placeReport p m s) :=
  modOut_stays p _ s fun o h => putReport_room o m h

theorem broadcast_stays (m : Message) (s : State) : Stays s (broadcast m s) := by
  apply setOut_stays
  intro hs q
  rw [Fin.getElem_fin, Vector.getElem_ofFn]
  split
  · exact putReport_room _ _ (hs q)
  · exact hs q

theorem cueReport_stays (m : Message) (s : State) : Stays s (cueReport m s) := by
  unfold cueReport
  split
  · exact placeReport_stays _ _ s
  · exact Stays.refl s

/-! The free order. -/

theorem inAnyOrder_stays {α : Type} (f : α → State → State) (h : ∀ a s, Stays s (f a s)) (n : Nat) (l : List α)
    (s : State) : Stays s (inAnyOrder f n l s) := by
  induction n generalizing l s with
  | zero => unfold inAnyOrder; exact Stays.refl s
  | succ n ih =>
    cases l with
    | nil => unfold inAnyOrder; exact Stays.refl s
    | cons a l =>
      unfold inAnyOrder
      exact ((spend_stays _ s).trans (h _ _)).trans (ih _ _)

/-! Talk (chapter 1). -/

theorem endMute_stays (st : Station) (c : MuteEnd) (s : State) : Stays s (endMute st c s) :=
  (modStFaults_stays st _ s).trans (broadcast_stays _ _)

theorem talkPress_stays (st : Station) (k : Key) (s : State) : Stays s (talkPress st k s) := by
  unfold talkPress
  split
  · exact Stays.refl s
  · split
    · exact Stays.refl s
    · split
      · exact (endMute_stays st _ s).trans (modArb_stays _ _)
      · split <;> exact modArb_stays _ s

theorem callPress_stays (st : Station) (k : Key) (s : State) : Stays s (callPress st k s) := by
  unfold callPress
  split
  · exact Stays.refl s
  · split
    · exact modArb_stays _ s
    · exact Stays.refl s

theorem announcePress_stays (st : Station) (s : State) : Stays s (announcePress st s) := by
  unfold announcePress
  split
  · split
    · exact (endMute_stays st _ s).trans (modArb_stays _ _)
    · split <;> exact modArb_stays _ s
  · exact Stays.refl s

/-! Cues (chapter 5). -/

theorem reportCue_stays (k : Nat) (c : CueIx) (d1 d2 d3 : Nat) (s : State) : Stays s (reportCue k c d1 d2 d3 s) :=
  cueReport_stays _ s

theorem cueEvent_stays (s : State) : Stays s (cueEvent s) := by
  unfold cueEvent
  split
  · exact setFaults_stays _ s
  · exact Stays.refl s

theorem placeClaim_stays (c : CueIx) (i : Nat) (st : Station) (l : Lamp) (r : Rank) (s : State) :
    Stays s (placeClaim c i st l r s) := modLamps_stays _ s

/-- The cue list replaced, within its bounds. -/
theorem setCues_stays (v : List CueEntry) (s : State) (h : CueListOk s → CueListOk { s with cues := v }) :
    Stays s { s with cues := v } := by
  constructor
  case cueList => exact h
  all_goals first | rfl | exact id | exact fun _ => rfl

/-- An entry changed where its cue and the number of its targets are not. -/
theorem modEntry_stays (c : CueIx) (f : CueEntry → CueEntry) (s : State)
    (h : CueListOk s → ∀ e ∈ s.cues, e.cue = c → (f e).cue = e.cue ∧ (f e).targets.length = e.targets.length) :
    Stays s (s.modEntry c f) := by
  apply setCues_stays
  intro hs
  have key : ∀ e ∈ s.cues, ((if e.cue = c then f e else e).cue = e.cue)
      ∧ (if e.cue = c then f e else e).targets.length = e.targets.length := by
    intro e he
    split
    · rename_i hc; exact h hs e he hc
    · exact ⟨rfl, rfl⟩
  obtain ⟨h1, h2, h3⟩ := hs
  refine ⟨by simpa using h1, ?_, ?_⟩
  · rw [List.map_map]
    rw [List.map_congr_left (g := (·.cue))]
    · exact h2
    · intro e he; exact (key e he).1
  · intro e he
    obtain ⟨e', he', rfl⟩ := List.mem_map.1 he
    rw [(key e' he').2, (key e' he').1]
    exact h3 e' he'

theorem setTarget_stays (c : CueIx) (i : Nat) (t : TargetState) (s : State) : Stays s (setTarget c i t s) :=
  modEntry_stays c _ s (by intros; exact ⟨rfl, by simp⟩)

theorem recompute_stays (c : CueIx) (s : State) : Stays s (recompute c s) := by
  unfold recompute
  split
  · dsimp only
    split
    · exact (modEntry_stays c _ s (by intros; exact ⟨rfl, rfl⟩)).trans (reportCue_stays _ _ _ _ _ _)
    · split
      · exact (modEntry_stays c _ s (by intros; exact ⟨rfl, rfl⟩)).trans (reportCue_stays _ _ _ _ _ _)
      · exact Stays.refl s
  · exact Stays.refl s

theorem enterTarget_stays (c : CueIx) (s : State) (x : Nat × Station × Lamp × TargetState) :
    Stays s (enterTarget c s x) := by
  unfold enterTarget
  dsimp only
  split
  · exact (reportCue_stays _ _ _ _ _ s).trans (cueEvent_stays _)
  · exact placeClaim_stays _ _ _ _ _ s

theorem placeCueCall_stays (c : CueIx) (s : State) : Stays s (placeCueCall c s) := by
  unfold placeCueCall
  split
  · exact modArb_stays _ s
  · exact Stays.refl s

/-- A cue that is not in a list that is not full enters it (R78, R91). -/
theorem enterList_stays (c : CueIx) (es : EntryState) (fo : Option Countdown) (b : Bool) (s : State)
    (hc : s.isActive c = false) (hl : s.cues.length < Config.activeLimit) : Stays s (enterList c es fo b s) := by
  unfold enterList
  refine Stays.trans ?_ ((Stays.foldl (enterTarget_stays c) _ _).trans (placeCueCall_stays c _))
  apply setCues_stays
  rintro ⟨-, h2, h3⟩
  refine ⟨by simp; omega, ?_, ?_⟩
  · rw [List.map_append, List.nodup_append]
    refine ⟨h2, by simp, ?_⟩
    intro a ha b hb
    simp only [State.isActive, List.any_eq_false, decide_eq_true_eq] at hc
    obtain ⟨e, he, rfl⟩ := List.mem_map.1 ha
    simp [newEntry] at hb
    subst hb
    exact hc e he
  · intro e he
    rcases List.mem_append.1 he with he | he
    · exact h3 e he
    · simp only [List.mem_singleton] at he
      subst he
      simp [newEntry, State.cueRec]

theorem placeInStandby_stays (c : CueIx) (s : State) (hc : s.isActive c = false)
    (hl : s.cues.length < Config.activeLimit) : Stays s (placeInStandby c s) :=
  (enterList_stays c _ _ _ s hc hl).trans (recompute_stays c _)

theorem acknowledge_stays (c : CueIx) (i : Nat) (st : Station) (l : Lamp) (t : TargetState) (s : State) :
    Stays s (acknowledge c i st l t s) :=
  (((setTarget_stays c i _ s).trans (placeClaim_stays _ _ _ _ _ _)).trans (reportCue_stays _ _ _ _ _ _)).trans
    (recompute_stays c _)

theorem ackEdge_stays (st : Station) (l : Lamp) (s : State) : Stays s (ackEdge st l s) := by
  unfold ackEdge
  split
  · exact Stays.refl s
  · split
    · exact acknowledge_stays _ _ _ _ _ s
    · exact cueReport_stays _ s

theorem lateTarget_stays (c : CueIx) (s : State) (x : Nat × Station × Lamp × TargetState) :
    Stays s (lateTarget c s x) := by
  unfold lateTarget
  dsimp only
  split
  · exact (((setTarget_stays c _ _ s).trans (placeClaim_stays _ _ _ _ _ _)).trans
      (reportCue_stays _ _ _ _ _ _)).trans (cueEvent_stays _)
  · exact Stays.refl s

theorem expireDeadline_stays (c : CueIx) (s : State) : Stays s (expireDeadline c s) :=
  (modEntry_stays c _ s (by intros; exact ⟨rfl, rfl⟩)).trans (Stays.foldl (lateTarget_stays c) _ _)

theorem recordTake_stays (c : CueIx) (s : State) : Stays s (recordTake c s).2 := by
  unfold recordTake takeFromGo
  split
  · split
    · exact Stays.refl s
    · split
      · exact Stays.refl s
      · exact setTakePending_stays _ s
  · exact Stays.refl s

theorem entry_none_isActive {s : State} {c : CueIx} (h : s.entry c = none) : s.isActive c = false := by
  simp only [State.entry, List.find?_eq_none, decide_eq_true_eq] at h
  simpa [State.isActive] using h

theorem entry_cue {s : State} {c : CueIx} {e : CueEntry} (h : s.entry c = some e) : e.cue = c := by
  simpa using List.find?_some h

theorem entry_mem {s : State} {c : CueIx} {e : CueEntry} (h : s.entry c = some e) : e ∈ s.cues :=
  List.mem_of_find?_eq_some h

theorem startFollow_stays (a b : CueIx) (d : Nat) (s : State) : Stays s (startFollow a b d s) := by
  unfold startFollow
  dsimp only
  split
  · rename_i he
    split
    · exact reportCue_stays _ _ _ _ _ s
    · split
      · exact reportCue_stays _ _ _ _ _ s
      · rename_i hl
        exact (enterList_stays b _ _ _ s (entry_none_isActive he) (by omega)).trans (reportCue_stays _ _ _ _ _ _)
  · split
    · exact reportCue_stays _ _ _ _ _ s
    · exact (modEntry_stays b _ s (by intros; exact ⟨rfl, rfl⟩)).trans (reportCue_stays _ _ _ _ _ _)

theorem startRecordFollow_stays (c : CueIx) (s : State) : Stays s (startRecordFollow c s) := by
  unfold startRecordFollow
  split
  · exact startFollow_stays _ _ _ s
  · exact Stays.refl s

theorem goTarget_stays (c : CueIx) (s : State) (x : Nat × Station × Lamp × TargetState) : Stays s (goTarget c s x) := by
  unfold goTarget
  dsimp only
  split
  · exact Stays.refl s
  · exact placeClaim_stays _ _ _ _ _ s

theorem nextEnabled_inSequence {t : CueTable} {lo : Nat} {c : CueIx} (h : t.nextEnabled lo = some c) :
    t.fixedSize ≤ c.val ∧ c.val < t.fixedSize + t.seqSize := by
  have := List.find?_some h
  simp [CueTable.inSequence] at this
  exact this.1.2

/-- R68: the pointer's advance. -/
theorem advance_stays (c : CueIx) (s : State) : Stays s (s.modTable (·.advance c)) := by
  have hk : ∀ t : CueTable, (t.advance c).records = t.records ∧ (t.advance c).fixedSize = t.fixedSize
      ∧ (t.advance c).seqSize = t.seqSize ∧ (t.advance c).unverified = t.unverified := by
    intro t; unfold CueTable.advance; split
    · split <;> simp
    · simp
  obtain ⟨h1, h2, h3, h4⟩ := hk s.table
  constructor
  case records => exact h1
  case fixedSize => exact h2
  case seqSize => exact h3
  case cueMark => exact h4
  case pointer =>
    rintro ⟨p1, p2, p3, p4⟩
    unfold PointerOk
    rw [State.modTable_table, h2, h3]
    refine ⟨p1, p2, ?_⟩
    unfold CueTable.advance
    split
    · split
      · rename_i p hp; exact nextEnabled_inSequence hp
      · exact ⟨p3, p4⟩
    · exact ⟨p3, p4⟩
  case cueList =>
    rintro ⟨l1, l2, l3⟩
    refine ⟨l1, l2, fun e he => ?_⟩
    have : (s.modTable (·.advance c)).cueRec e.cue = s.cueRec e.cue := by
      unfold State.cueRec; rw [State.modTable_table, h1]
    rw [this]; exact l3 e he
  all_goals first | rfl | exact id | exact fun _ => rfl

theorem entryGoes_stays (c : CueIx) (f : Bool) (s : State) : Stays s (entryGoes c f s) := by
  unfold entryGoes
  split
  · exact Stays.refl s
  · rename_i e he
    dsimp only
    refine (modEntry_stays c _ s ?_).trans (((((Stays.foldl (goTarget_stays c) _ _).trans (advance_stays c _)).trans
      (recordTake_stays c _)).trans (reportCue_stays _ _ _ _ _ _)).trans (startRecordFollow_stays c _))
    intro hs x hx hxc
    refine ⟨(entry_cue he).trans hxc.symm, ?_⟩
    have h1 := hs.2.2 x hx
    have h2 := hs.2.2 e (entry_mem he)
    rw [h1, hxc, ← entry_cue he]
    exact h2

theorem removeEntry_stays (c : CueIx) (s : State) : Stays s (removeEntry c s) := by
  refine Stays.trans (t := { s with cues := s.cues.filter (fun e => e.cue ≠ c) }) ?_ (modLamps_stays (·.withdrawCue c) _)
  apply setCues_stays
  rintro ⟨h1, h2, h3⟩
  refine ⟨le_trans (List.length_filter_le _ _) h1, h2.sublist (List.filter_sublist.map _), ?_⟩
  exact fun e he => h3 e (List.mem_of_mem_filter he)

theorem expireGoHold_stays (c : CueIx) (s : State) : Stays s (expireGoHold c s) := by
  unfold expireGoHold
  split
  · exact (removeEntry_stays c s).trans (reportCue_stays _ _ _ _ _ _)
  · exact Stays.refl s

theorem cancelEntry_stays (c : CueIx) (s : State) : Stays s (cancelEntry c s) := by
  unfold cancelEntry
  split
  · exact (removeEntry_stays c s).trans (reportCue_stays _ _ _ _ _ _)
  · exact Stays.refl s

theorem expireFollow_stays (c : CueIx) (s : State) : Stays s (expireFollow c s) := by
  unfold expireFollow
  split
  · split
    · dsimp only
      split
      · exact (modEntry_stays c _ s (by intros; exact ⟨rfl, rfl⟩)).trans (reportCue_stays _ _ _ _ _ _)
      · exact (modEntry_stays c _ s (by intros; exact ⟨rfl, rfl⟩)).trans (entryGoes_stays c _ _)
    · exact Stays.refl s
  · exact Stays.refl s

theorem loseTarget_stays (c : CueIx) (s : State) (x : Nat × Station × Lamp × TargetState) :
    Stays s (loseTarget c s x) :=
  ((((setTarget_stays c _ _ s).trans (modLamps_stays _ _)).trans (reportCue_stays _ _ _ _ _ _)).trans
    (cueEvent_stays _)).trans (recompute_stays c _)

theorem loseInEntry_stays (p : Station → Lamp → Bool) (s : State) (c : CueIx) : Stays s (loseInEntry p s c) :=
  Stays.foldl (loseTarget_stays c) _ _

theorem loseTargets_stays (p : Station → Lamp → Bool) (s : State) : Stays s (loseTargets p s) :=
  Stays.foldl (loseInEntry_stays p) _ s

theorem restoreTarget_stays (c : CueIx) (e : CueEntry) (s : State) (x : Nat × Station × Lamp × TargetState) :
    Stays s (restoreTarget c e s x) := by
  unfold restoreTarget
  dsimp only
  have h := setTarget_stays c x.1 (restoredState e.deadline) s
  cases claimRank e.state (restoredState e.deadline) <;> dsimp only <;> split
  · exact (h.trans (reportCue_stays _ _ _ _ _ _)).trans (cueEvent_stays _)
  · exact h.trans (reportCue_stays _ _ _ _ _ _)
  · exact ((h.trans (placeClaim_stays _ _ _ _ _ _)).trans (reportCue_stays _ _ _ _ _ _)).trans (cueEvent_stays _)
  · exact (h.trans (placeClaim_stays _ _ _ _ _ _)).trans (reportCue_stays _ _ _ _ _ _)

theorem restoreInEntry_stays (st : Station) (s : State) (c : CueIx) : Stays s (restoreInEntry st s c) := by
  unfold restoreInEntry
  split
  · exact Stays.foldl (restoreTarget_stays c _) _ s
  · exact Stays.refl s

theorem cueReturned_stays (st : Station) (s : State) : Stays s (cueReturned st s) :=
  Stays.foldl (restoreInEntry_stays st) _ s

/-! Authority (chapter 7). -/

theorem grant_stays (p : Port) (f : Bool) (s : State) : Stays s (grant p f s) :=
  (setAuth_stays _ s).trans (broadcast_stays _ _)

theorem loseAuthority_stays (r : LossReason) (s : State) : Stays s (loseAuthority r s) := by
  unfold loseAuthority
  split
  · exact (setAuth_stays _ s).trans (broadcast_stays _ _)
  · exact Stays.refl s

theorem releaseAuthority_stays (s : State) : Stays s (releaseAuthority s) := by
  unfold releaseAuthority
  split
  · exact (setAuth_stays _ s).trans (broadcast_stays _ _)
  · exact Stays.refl s

theorem forceAuthority_stays (p : Port) (s : State) : Stays s (forceAuthority p s) :=
  (loseAuthority_stays _ s).trans (grant_stays p _ _)

theorem authMoved_stays (st : Station) (p : Port) (s : State) : Stays s (authMoved st p s) := by
  unfold authMoved
  split
  · split
    · exact (modAuth_stays _ s).trans (broadcast_stays _ _)
    · exact Stays.refl s
  · exact Stays.refl s

theorem authIsolated_stays (st : Station) (s : State) : Stays s (authIsolated st s) := by
  unfold authIsolated
  split
  · exact loseAuthority_stays _ s
  · exact Stays.refl s

theorem authPortDown_stays (p : Port) (s : State) : Stays s (authPortDown p s) := by
  unfold authPortDown
  split
  · exact loseAuthority_stays _ s
  · exact Stays.refl s

theorem deskFault_stays (k : DeskKind) (s : State) : Stays s (deskFault k s) := by
  unfold deskFault
  split
  · exact Stays.refl s
  · dsimp only
    have h := modAuth_stays (fun a => { a with deskCond := true }) s
    split
    · exact ((h.trans (modPortFaults_stays _ _ _)).trans (broadcast_stays _ _)).trans (modAuth_stays _ _)
    · exact ((h.trans (modPortFaults_stays _ _ _)).trans (broadcast_stays _ _)).trans (loseAuthority_stays _ _)
    · exact h
    · exact h
    · exact h

theorem expireSupervision_stays (s : State) : Stays s (expireSupervision s) :=
  (modAuth_stays _ s).trans (deskFault_stays _ _)

theorem authTake_stays (o n : Bank) (h : Vector Homing 24) (s : State) : Stays s (authTake o n h s) := by
  unfold authTake
  split
  · exact Stays.refl s
  · split
    · exact modAuth_stays _ s
    · exact loseAuthority_stays _ s

theorem restartSupervision_stays (s : State) : Stays s (restartSupervision s) := modAuth_stays _ s

/-! Homing (chapter 9). -/

theorem reportHoming_stays (k : Nat) (st : Station) (r : List Byte) (s : State) : Stays s (reportHoming k st r s) :=
  broadcast_stays _ s

theorem setAwaiting_stays (p : Port) (b : Bool) (s : State) : Stays s (setAwaiting p b s) :=
  modPort_stays p _ s fun _ => rfl

theorem clearAwaiting_stays (r : StationRecord) (s : State) : Stays s (clearAwaiting r s) := by
  unfold clearAwaiting
  split
  · exact (setAwaiting_stays _ _ s).trans (setAwaiting_stays _ _ _)
  · exact setAwaiting_stays _ _ s

theorem restartInput_stays (p : Port) (s : State) : Stays s (restartInput p s) := modPort_stays p _ s fun _ => rfl

theorem returnOn_stays (st : Station) (p : Port) (h : HomingState) (s : State) : Stays s (returnOn st p h s) :=
  (((modHoming_stays st _ s).trans (setAwaiting_stays p _ _)).trans (cueReturned_stays st _)).trans
    (reportHoming_stays _ _ _ _)

theorem tryReturn_stays (st : Station) (s : State) : Stays s (tryReturn st s) := by
  unfold tryReturn
  split
  · split
    · exact returnOn_stays _ _ _ s
    · split
      · split
        · exact returnOn_stays _ _ _ s
        · exact Stays.refl s
      · exact Stays.refl s
  · exact Stays.refl s

theorem isoPart_stays (st : Station) (r : IsoReason) (c : Option Port) (x : IsoPart) (s : State) :
    Stays s (x.take st r c s) := by
  cases x
  · exact loseTargets_stays _ s
  · exact authIsolated_stays _ s
  · exact reportHoming_stays _ _ _ s

theorem isolateState_stays (st : Station) (s : State) : Stays s (isolateState st s) :=
  (modHoming_stays st _ s).trans (clearAwaiting_stays _ _)

theorem enterIsolated_stays (st : Station) (r : IsoReason) (c : Option Port) (s : State) :
    Stays s (enterIsolated st r c s) :=
  (((isolateState_stays st s).trans (modArb_stays _ _)).trans
    (inAnyOrder_stays _ (isoPart_stays st r c) _ _ _)).trans (tryReturn_stays st _)

theorem startSwitchover_stays (st : Station) (sp : Port) (s : State) : Stays s (startSwitchover st sp s) :=
  (((((modHoming_stays st _ s).trans (setAwaiting_stays _ _ _)).trans (setAwaiting_stays _ _ _)).trans
    (restartInput_stays _ _)).trans (authMoved_stays _ _ _)).trans (reportHoming_stays _ _ _ _)

theorem isolatePrimary_stays (st : Station) (s : State) : Stays s (isolatePrimary st s) :=
  (modHoming_stays st _ s).trans (enterIsolated_stays _ _ _ _)

theorem isolateSpare_stays (st : Station) (s : State) : Stays s (isolateSpare st s) :=
  (modHoming_stays st _ s).trans (enterIsolated_stays _ _ _ _)

theorem linkFault_stays (st : Station) (s : State) : Stays s (linkFault st s) := by
  unfold linkFault
  split
  · split
    · split
      · exact startSwitchover_stays _ _ s
      · exact isolatePrimary_stays _ s
    · exact isolatePrimary_stays _ s
  · exact isolateSpare_stays _ s
  · exact isolateSpare_stays _ s
  · exact Stays.refl s

theorem otherPortJudged_stays (st : Station) (s : State) : Stays s (otherPortJudged st s) := by
  unfold otherPortJudged
  split
  · split
    · exact linkFault_stays _ s
    · exact Stays.refl s
  · exact Stays.refl s

theorem portsJudged_stays (st : Station) (s : State) : Stays s (portsJudged st s) := by
  unfold portsJudged
  split
  · exact tryReturn_stays _ s
  · exact otherPortJudged_stays _ s

theorem homingCondEnded_stays (st : Station) (p : Port) (s : State) : Stays s (homingCondEnded st p s) := by
  unfold homingCondEnded
  have h : Stays s (if s.faults.modes.link = .auto then clearMark st p s else s) := by
    split
    · exact modHoming_stays _ _ s
    · exact Stays.refl s
  dsimp only
  generalize (if s.faults.modes.link = .auto then clearMark st p s else s) = t at h ⊢
  split
  · exact h
  · exact h.trans (portsJudged_stays _ _)

theorem homingClearFaults_stays (s : State) : Stays s (homingClearFaults s) :=
  (setHoming_stays _ s).trans (Stays.foldl (fun t st => portsJudged_stays st t) _ _)

theorem homingSetMode_stays (s : State) : Stays s (homingSetMode s) :=
  (setHoming_stays _ s).trans (Stays.foldl (fun t st => portsJudged_stays st t) _ _)

theorem failOver_stays (st : Station) (p : Port) (s : State) : Stays s (failOver st p s) :=
  (modHoming_stays st _ s).trans (reportHoming_stays _ _ _ _)

theorem applyRestore_stays (st : Station) (s : State) : Stays s (applyRestore st s) := by
  unfold applyRestore
  dsimp only
  split
  · exact (modHoming_stays st _ s).trans (((((modHoming_stays st _ _).trans (clearAwaiting_stays _ _)).trans
      (setAwaiting_stays _ _ _)).trans (authMoved_stays _ _ _)).trans (reportHoming_stays _ _ _ _))
  · exact (modHoming_stays st _ s).trans (reportHoming_stays _ _ _ _)

theorem takeResetStation_stays (o n : StationRecord) (s : State) (st : Station) :
    Stays s (takeResetStation o n s st) :=
  ((modHoming_stays st _ s).trans (clearAwaiting_stays _ _)).trans (clearAwaiting_stays _ _)

theorem takeLinkFault_stays (s : State) (st : Station) : Stays s (takeLinkFault s st) := by
  unfold takeLinkFault
  split
  · exact linkFault_stays _ s
  · exact Stays.refl s

theorem homingTake_stays (o n : Bank) (s : State) : Stays s (homingTake o n s) :=
  (Stays.foldl (fun t st => takeResetStation_stays _ _ t st) _ s).trans (Stays.foldl takeLinkFault_stays _ _)

/-! Fault supervision (chapter 10). -/

theorem linkRaised_stays (p : Port) (st : Station) (s : State) : Stays s (linkRaised p st s) := by
  unfold linkRaised
  dsimp only
  split
  · exact broadcast_stays _ s
  · exact broadcast_stays _ s
  · exact (modPortFaults_stays _ _ s).trans (broadcast_stays _ _)
  · exact Stays.refl s
  · exact Stays.refl s

theorem linkBegun_stays (p : Port) (st : Station) (s : State) : Stays s (linkBegun p st s) := by
  unfold linkBegun
  split
  · exact (linkRaised_stays p st s).trans (linkFault_stays _ _)
  · exact linkRaised_stays p st s

theorem linkEnded_stays (p : Port) (st : Station) (s : State) : Stays s (linkEnded p st s) := by
  unfold linkEnded
  split
  · exact Stays.refl s
  · exact broadcast_stays _ s

theorem handCond_stays (p : Port) (st : Station) (c : Bool) (s : State) : Stays s (handCond p st c s) := by
  unfold handCond
  dsimp only
  split
  · exact (modPortFaults_stays _ _ s).trans (linkBegun_stays _ _ _)
  · exact ((modPortFaults_stays _ _ s).trans (linkEnded_stays _ _ _)).trans (homingCondEnded_stays _ _ _)

theorem superviseCond_stays (p : Port) (st : Station) (c : Bool) (s : State) : Stays s (superviseCond p st c s) := by
  unfold superviseCond
  dsimp only
  split
  · exact (modPortFaults_stays _ _ s).trans (linkRaised_stays _ _ _)
  · exact (modPortFaults_stays _ _ s).trans (linkEnded_stays _ _ _)

theorem beginMute_stays (st : Station) (m : Mute) (s : State) : Stays s (beginMute st m s) :=
  (modStFaults_stays _ _ s).trans (modArb_stays _ _)

theorem overloadAct_stays (st : Station) (m : Mode) (s : State) : Stays s (overloadAct st m s) := by
  unfold overloadAct
  split
  · split
    · exact beginMute_stays _ _ s
    · exact Stays.refl s
  · split
    · exact modStFaults_stays _ _ s
    · split
      · exact beginMute_stays _ _ s
      · exact Stays.refl s
  · exact modStFaults_stays _ _ s
  · exact Stays.refl s
  · exact Stays.refl s

theorem overloadBegun_stays (st : Station) (s : State) : Stays s (overloadBegun st s) := by
  unfold overloadBegun
  dsimp only
  split
  · exact Stays.refl s
  · exact (overloadAct_stays _ _ s).trans (broadcast_stays _ _)

theorem overloadEnded_stays (st : Station) (s : State) : Stays s (overloadEnded st s) := by
  unfold overloadEnded
  split
  · exact Stays.refl s
  · exact broadcast_stays _ s

theorem countMark_stays (st : Station) (m : Bool) (s : State) : Stays s (countMark st m s) := by
  unfold countMark
  dsimp only
  have h := modStFaults_stays st (fun _ => (s.faults.stations[st]).count m) s
  split
  · exact h
  · split
    · exact h.trans (overloadBegun_stays _ _)
    · exact h.trans (overloadEnded_stays _ _)

theorem clipPresent_stays (st : Station) (s : State) : Stays s (clipPresent st s) := by
  unfold clipPresent
  split
  · exact (modStFaults_stays _ _ s).trans (broadcast_stays _ _)
  · exact Stays.refl s

theorem clearMute_stays (s : State) (st : Station) : Stays s (clearMute s st) := by
  unfold clearMute
  split
  · exact endMute_stays _ _ s
  · exact Stays.refl s

theorem clearFaults_stays (s : State) : Stays s (clearFaults s) :=
  ((homingClearFaults_stays s).trans (Stays.foldl clearMute_stays _ _)).trans (setFaults_stays _ _)

theorem relink_stays (s : State) (p : Port) : Stays s (relink s p) := by
  unfold relink
  split
  · split
    · exact linkBegun_stays _ _ s
    · exact Stays.refl s
  · exact Stays.refl s

theorem evalLink_stays (s : State) : Stays s (evalLink s) :=
  ((setFaults_stays _ s).trans (homingSetMode_stays _)).trans (Stays.foldl relink_stays _ _)

theorem reoverload_stays (s : State) (st : Station) : Stays s (reoverload s st) := by
  unfold reoverload
  split
  · exact overloadBegun_stays _ s
  · exact Stays.refl s

theorem reportUnmuted_stays (v : Vector StationFaults 24) (s : State) (st : Station) :
    Stays s (reportUnmuted v s st) := by
  unfold reportUnmuted
  split
  · exact broadcast_stays _ s
  · exact Stays.refl s

theorem evalOverload_stays (s : State) : Stays s (evalOverload s) :=
  ((setFaults_stays _ s).trans (Stays.foldl reoverload_stays _ _)).trans (Stays.foldl (reportUnmuted_stays _) _ _)

theorem reclip_stays (s : State) (st : Station) : Stays s (reclip s st) := by
  unfold reclip
  split
  · exact clipPresent_stays _ s
  · exact Stays.refl s

theorem setMode_stays (c : FaultClass) (m : Mode) (s : State) : Stays s (setMode c m s) := by
  unfold setMode
  dsimp only
  have h := setFaults_stays { s.faults with modes := s.faults.modes.set c m } s
  split
  · exact h.trans (evalLink_stays _)
  · exact h.trans (evalOverload_stays _)
  · exact h.trans ((setFaults_stays _ _).trans (restartSupervision_stays _))
  · exact h.trans (setFaults_stays _ _)
  · exact h.trans ((setFaults_stays _ _).trans (Stays.foldl reclip_stays _ _))

/-! Links (chapter 8). -/

theorem judgeWith_stays {hand : Port → Station → Bool → State → State} (h : ∀ p st c s, Stays s (hand p st c s)) (p : Port)
    (s : State) : Stays s (judgeWith hand p s) := by
  unfold judgeWith
  split
  · exact Stays.refl s
  · dsimp only
    split
    · exact Stays.refl s
    · exact (modPort_stays p _ s fun _ => by rfl).trans (h _ _ _ _)

theorem judgePort_stays (p : Port) (s : State) : Stays s (judgePort p s) := judgeWith_stays handCond_stays p s

theorem talkEdges_stays (st : Station) (o n : Levels) (s : State) : Stays s (talkEdges st o n s) := by
  unfold talkEdges
  apply Stays.foldl
  intro t k
  split
  · exact Stays.refl t
  · split
    · exact talkPress_stays _ _ t
    · exact modArb_stays _ t

theorem callEdges_stays (st : Station) (o n : Levels) (s : State) : Stays s (callEdges st o n s) := by
  unfold callEdges
  split
  · exact Stays.refl s
  · cases o.call <;> cases n.call <;> dsimp only
    · exact Stays.refl s
    · exact callPress_stays _ _ s
    · exact modArb_stays _ s
    · exact (modArb_stays _ s).trans (callPress_stays _ _ _)

theorem announceEdges_stays (st : Station) (o n : Levels) (s : State) : Stays s (announceEdges st o n s) := by
  unfold announceEdges
  split
  · exact Stays.refl s
  · split
    · exact announcePress_stays _ s
    · exact modArb_stays _ s

theorem ackEdges_stays (st : Station) (o n : Levels) (s : State) : Stays s (ackEdges st o n s) := by
  unfold ackEdges
  apply Stays.foldl
  intro t j
  split
  · exact ackEdge_stays _ _ t
  · exact Stays.refl t

theorem edges_stays (st : Station) (o n : Levels) (s : State) : Stays s (edges st o n s) :=
  (((talkEdges_stays st o n s).trans (callEdges_stays st o n _)).trans (announceEdges_stays st o n _)).trans
    (ackEdges_stays st o n _)

theorem reconcile_stays (p : Port) (n : Levels) (s : State) : Stays s (reconcile p n s) := by
  unfold reconcile
  split
  · dsimp only
    split
    · exact (modArb_stays _ s).trans (failOver_stays _ _ _)
    · exact modArb_stays _ s
  · exact Stays.refl s

theorem takeLevels_stays (p : Port) (n : Levels) (b : Bool) (s : State) : Stays s (takeLevels p n b s) := by
  unfold takeLevels
  dsimp only
  have h := modPort_stays p (fun u => { u with held := n, awaiting := false }) s fun _ => by rfl
  split
  · exact h.trans (reconcile_stays _ _ _)
  · split
    · exact h
    · split
      · exact h.trans (edges_stays _ _ _ _)
      · exact h

/-! The parts of a Take (R35). -/

theorem portTake_stays (b : State) (due : Bool) (p : Port) (s : State) : Stays s (portTake b due p s) := by
  unfold portTake
  split
  · split
    · exact linkEnded_stays _ _ s
    · exact Stays.refl s
  · exact Stays.refl s
  · split
    · exact judgeWith_stays superviseCond_stays p s
    · exact judgePort_stays p s

theorem takePart_stays (b : State) (due : Bool) (x : TakePart) (s : State) : Stays s (x.take b due s) := by
  cases x with
  | arbiter => exact modArb_stays _ s
  | homing => exact homingTake_stays _ _ s
  | cue => exact loseTargets_stays _ s
  | lamps => exact modLamps_stays _ s
  | authority => exact authTake_stays _ _ _ s
  | faults => exact setFaults_stays _ s
  | port p => exact portTake_stays b due p s

/-- The blocks' parts of a Take, in whatever order they come, leave these alone. -/
theorem takeParts_stays (b : State) (n : Nat) (l : List TakePart) (s : State) : Stays s (takeParts b n l s) := by
  induction n generalizing l s with
  | zero => exact Stays.refl s
  | succ n ih =>
    unfold takeParts
    dsimp only
    split
    · exact ((spend_stays _ s).trans (takePart_stays b _ _ _)).trans (ih _ _)
    · exact Stays.refl s

theorem handTake_stays (b s : State) : Stays s (handTake b s) := takeParts_stays b _ _ s

end Sys2Proof.Machine
end

