-- ==== Sys2Proof/Laws/Commands.lean ====
section
/-! SUPPORT. How a command reaches its effect: the asserted line, the response that waits, the request at the head of the
queue, the window that ends first, and the event that is due. One lemma each. -/

namespace Sys2Proof.Machine

/-! The line and the waiting response. -/

theorem running_free {f : State → State} {s : State} (h : s.resetLine = false) : running f s = .next (f s) := by
  simp [running, h]

theorem running_held {f : State → State} {s : State} (h : s.resetLine = true) : running f s = .next s := by
  simp [running, h]

theorem settleService_calm {s : State} (h : s.mgmt.service.waits = false) : settleService s = s := by
  unfold settleService
  cases e : s.mgmt.service <;> simp_all [Service.waits]

theorem settled_calm {f : State → State} {s : State} (h : Calm s) : settled f s = .next (f s) := by
  unfold settled
  rw [running_free h.line, settleService_calm h.noWait]

/-! The window that ends first (R174). -/

theorem endWindow_eq (s : State) : endWindow s = windowEnded s := by
  unfold endWindow windowEnded State.bankCheckOpen State.cueCheckOpen closeWindow
  cases e : s.mgmt.window with
  | none =>
    obtain ⟨⟩ := s
    rename_i m _
    obtain ⟨⟩ := m
    simp_all
  | some w =>
    obtain ⟨o, T, y, fi, la, cr, ad, ch⟩ := w
    cases T <;> cases cr <;> simp [setUnverified, State.modTable, State.modMgmt]

/-! Requests (R170). -/

theorem Serves.calm {s : State} {q : QueuedRequest} (h : Serves s q) : Calm s :=
  ⟨h.line, by rw [h.idle]; rfl⟩

theorem settleEvents_eq {s : State} {q : QueuedRequest} (h : Serves s q) : settleEvents s = s := by
  have h1 : settleSupervision s = s := by
    unfold settleSupervision Due.isDue
    cases e : s.auth.window with
    | none => simp
    | some w => simp [h.window w e]
  have h2 : settleMeter s = s := by
    unfold settleMeter Due.isDue
    cases e : s.mgmt.meter with
    | none => simp
    | some m => simp [(h.meter m e).1, (h.meter m e).2]
  unfold settleEvents
  rw [h1, h2]

theorem head_eq {s : State} {q : QueuedRequest} (h : Serves s q) : s.head = some q := by
  unfold State.head
  rw [if_pos h.idle, h.first]

/-- A request command serves the head that its selection picks. -/
theorem serving_eq {s : State} {q : QueuedRequest} {sel : QueuedRequest → Option (State → State)} {f : State → State}
    (h : Serves s q) (hf : sel q = some f) : serving sel s = .next (f s) := by
  unfold serving
  rw [settled_calm h.calm]
  unfold serveHead
  rw [settleEvents_eq h, head_eq h]
  simp [hf]

/-! Events (notes/assumptions/1.md). -/

theorem atCompletion_due {d : Due} {s : State} (h : d.isDue s = true) : atCompletion d s = d.take s := by
  simp [atCompletion, h]

theorem takeMark_none {s : State} {st : Station} (h : s.faults.stations[st].mark = none) : takeMark st s = s := by
  simp only [takeMark, h]

/-- With nothing due there is nothing to take. -/
theorem flush_eq {s : State} (h : NoneDue s) : flush s = s := by
  have hm : ∀ st : Station, s.faults.stations[st].mark = none := by
    intro st
    have := h (.overload st)
    simpa [Due.isDue] using this
  have hc : ∀ l : List Station, l.foldl (fun t st => takeMark st t) s = s := by
    intro l
    induction l with
    | nil => rfl
    | cons a l ih => rw [List.foldl_cons, takeMark_none (hm a), ih]
  have hd : dueNow s = [] := by
    unfold dueNow
    rw [List.filter_eq_nil_iff]
    intro d _
    rw [h d]; simp
  unfold flush countQuiet
  rw [hc]
  simp only [hd, takeDues, List.length_nil, inAnyOrder]

theorem ensureOpen_opened {s : State} (h : s.opened = true) : ensureOpen s = s := by simp [ensureOpen, h]

theorem ensureOpen_closed {s : State} (h : s.opened = false) (hn : NoneDue s) : ensureOpen s = openCompletion s := by
  simp [ensureOpen, h, flush_eq hn]

end Sys2Proof.Machine
end

