-- ==== Sys2Proof/Laws/PerInstr.lean ====
section
/-! SUPPORT. What is said of every command as syntax: no table word spells it (notes/assumptions/28.md). -/

namespace Sys2Proof.Laws.WordFree

/-- No word of the table spells the command. -/
def Statement (i : Instr) : Prop := ∀ nbits w : Nat, decodeTableWord nbits w ≠ some i

theorem powerOn : Statement .powerOn := nofun
theorem resetLineAssert : Statement .resetLineAssert := nofun
theorem resetLineRelease : Statement .resetLineRelease := nofun
theorem blockCompletion : Statement .blockCompletion := nofun
theorem overloadCount (st : Station) : Statement (.overloadCount st) := nofun
theorem uplinkFrame (p : Port) (bytes : List Byte) : Statement (.uplinkFrame p bytes) := nofun
theorem linkUp (p : Port) (bytes : List Byte) : Statement (.linkUp p bytes) := nofun
theorem linkDown (p : Port) : Statement (.linkDown p) := nofun
theorem callHoldExpiry (n : Net) : Statement (.callHoldExpiry n) := nofun
theorem ackDeadlineExpiry (c : CueIx) : Statement (.ackDeadlineExpiry c) := nofun
theorem goHoldExpiry (c : CueIx) : Statement (.goHoldExpiry c) := nofun
theorem followCountdownExpiry (c : CueIx) : Statement (.followCountdownExpiry c) := nofun
theorem switchoverTimeout (st : Station) : Statement (.switchoverTimeout st) := nofun
theorem supervisionWindowExpiry : Statement .supervisionWindowExpiry := nofun
theorem lampTestExpiry (st : Station) : Statement (.lampTestExpiry st) := nofun
theorem meterBlankEnd : Statement .meterBlankEnd := nofun
theorem meterResult : Statement .meterResult := nofun
theorem takeApply : Statement .takeApply := nofun
theorem restoreApply (st : Station) : Statement (.restoreApply st) := nofun
theorem softResetEffect : Statement .softResetEffect := nofun
theorem responsePlacedAfterWait : Statement .responsePlacedAfterWait := nofun
theorem readEntriesContinue : Statement .readEntriesContinue := nofun
theorem windowOpen : Statement .windowOpen := nofun
theorem writeEntries : Statement .writeEntries := nofun
theorem readEntries : Statement .readEntries := nofun
theorem windowClose : Statement .windowClose := nofun
theorem take : Statement .take := nofun
theorem revert : Statement .revert := nofun
theorem settingsWrite : Statement .settingsWrite := nofun
theorem setMode : Statement .setMode := nofun
theorem clearFaults : Statement .clearFaults := nofun
theorem claim : Statement .claim := nofun
theorem release : Statement .release := nofun
theorem heartbeat : Statement .heartbeat := nofun
theorem standby : Statement .standby := nofun
theorem go : Statement .go := nofun
theorem cancel : Statement .cancel := nofun
theorem cancelAll : Statement .cancelAll := nofun
theorem setRegion : Statement .setRegion := nofun
theorem setPointer : Statement .setPointer := nofun
theorem restoreStation : Statement .restoreStation := nofun
theorem lampTest : Statement .lampTest := nofun
theorem meterStart : Statement .meterStart := nofun
theorem meterStop : Statement .meterStop := nofun
theorem getStatus : Statement .getStatus := nofun
theorem softReset : Statement .softReset := nofun

end Sys2Proof.Laws.WordFree
end

