-- ==== Sys2Proof/WellFormed.lean ====
section
/-! DEFINITION. Well-formed commands. A command whose operands do not fit is not refused by exec; it has no effect
(notes/assumptions/3.md). -/

namespace Sys2Proof

/-- R127, R130: LINK_UP is the arrival of an undamaged frame. Every other command's operands are bounded by their
types, and an uplink frame may be any bytes. -/
def Instr.wellFormed : Instr → Bool
  | .linkUp _ bytes => (Machine.parseUplink bytes).isSome
  | _ => true

end Sys2Proof
end

