-- ==== Sys2Proof/Tests/Slice0.lean ====
section
/-! SUPPORT. Tests: the smoke test of the well-formedness check; sequences the manual works out in numbers; and, for every
statement of the certificates that has hypotheses, a state and operands that meet all of them, clause by clause
(test_meets_<the statement's name>). -/

namespace Sys2Proof.Tests

open Sys2Proof Sys2Proof.Machine

-- One after another: each kernel evaluation would else hold a thread while it waits for those before it.
set_option Elab.async false

/-! States built for the tests. -/

/-- The state a command answers. -/
def after (o : Outcome) : State :=
  match o with
  | .next s => s
  | .fault _ => State.reset
  | .refused _ => State.reset

/-- A request alone in the queue, from port 0 with tag 11h. -/
def asked (r : Request) (s : State) : State := { s with mgmt := { s.mgmt with queue := [⟨0, 0x11, r⟩] } }

/-- The queued request of `asked`. -/
def req (r : Request) : QueuedRequest := ⟨0, 0x11, r⟩

/-- Port 0 holds authority. -/
def holding (s : State) : State := { s with auth := ⟨some 0, some .commissioning, none, false⟩ }

/-- Station `st` enabled in both banks on port `p`, whose link is UP and clean; `f` changes its record. -/
def onAir (st : Station) (p : Port) (f : StationRecord → StationRecord) (s : State) : State :=
  let r := f { StationRecord.powerOn with enabled := true, kind := .panel, primary := p, talkGain := 256, master := 256 }
  { s with live := { s.live with stations := s.live.stations.set st r },
           edit := { s.edit with stations := s.edit.stations.set st r },
           homing := upd s.homing st fun h => { h with active := some p },
           ports := upd s.ports p fun u => { u with up := true, cond := false, bucket := 0 },
           faults := { s.faults with ports := upd s.faults.ports p fun f => { f with linkCond := false } } }

/-- Key `k` of station `st` on net `n`, enabled, at a listen level. -/
def patch (st : Station) (n : Net) (k : Key) (level : Nat) (s : State) : State :=
  let c (b : Bank) : Bank := (b.setCell st n ⟨level, some k⟩)
  let on (b : Bank) : Bank := { b with nets := upd b.nets n fun r => { r with enabled := true } }
  { s with live := on (c s.live), edit := on (c s.edit) }

/-- Station 5 with key 1 on net 4, of two slots. -/
def panel5 : State := patch 5 4 1 0 (onAir 5 5 (fun r => { r with annAllowed := true }) State.reset)

/-- Cue `c` enabled, its record changed by `f`. -/
def cueOn (c : CueIx) (f : CueRecord → CueRecord) (s : State) : State :=
  s.modTable fun t => { t with records := upd t.records c fun r => f { r with enabled := true } }

/-- An entry of the active list. -/
def entryOf (c : CueIx) (st : EntryState) (ts : List TargetState) : CueEntry :=
  ⟨c, st, ts, .none, none, 0, false, false, false⟩

/-- ClaimsOk, as far as it can be decided. -/
theorem claimsOk_of {s : State} (h1 : (s.lamps.claims.map fun x => (x.cue, x.pos)).Nodup)
    (h2 : ∀ x ∈ s.lamps.claims, ∃ e ∈ s.cues, e.cue = x.cue ∧ (s.cueRec e.cue).targets[x.pos]? = some (x.st, x.lamp)
      ∧ (e.targets[x.pos]?).bind (claimRank e.state) = some x.rank)
    (h3 : ∀ e ∈ s.cues, (∀ i < e.targets.length, e.targets[i]? ≠ some .lost →
      ∃ x ∈ s.lamps.claims, x.cue = e.cue ∧ x.pos = i) ∧ (e.state = .going → e.deadline = .none ∨ e.deadline = .stopped)) :
    ClaimsOk s := by
  refine ⟨h1, fun x hx => ?_, fun e he => ⟨fun i y hy hl => ?_, fun hg r hr => ?_⟩⟩
  · obtain ⟨e, he, hc, ht, hr⟩ := h2 x hx
    cases hy : e.targets[x.pos]? with
    | none => simp [hy] at hr
    | some y => exact ⟨e, he, hc, ht, y, hy, by simpa [hy] using hr⟩
  · refine (h3 e he).1 i (List.getElem?_eq_some_iff.1 hy).1 ?_
    rw [hy]
    simpa using hl
  · rcases (h3 e he).2 hg with h | h <;> rw [h] at hr <;> cases hr

/-- A frame with its check. -/
def framed (body : List Byte) : List Byte := body ++ crcBytes (crc crcStart body)

/-- The frame with sequence `n` and nothing pressed. -/
def idleFrame (n : Byte) : List Byte := framed [n, 0, 0, 0, 0]

/-- Fault modes with one changed. -/
def inMode (c : FaultClass) (m : Mode) (s : State) : State :=
  { s with faults := { s.faults with modes := s.faults.modes.set c m } }

/-! Well-formedness. -/

/-- A frame whose check does not match is no LINK_UP; the check refuses it. -/
theorem test_ill_formed_link_up : (Instr.linkUp 3 [1, 0, 0, 0, 0, 0, 0]).wellFormed = false := by decide +kernel

theorem test_well_formed_link_up : (Instr.linkUp 3 (idleFrame 1)).wellFormed = true := by decide +kernel

/-! Encodings (chapter 12), as the manual writes them out. -/

/-- R182: the CRC-16 that begins at FFFFh, most significant bit first, without inversion. -/
theorem test_crc : crc crcStart [0x31, 0x32, 0x33, 0x34, 0x35, 0x36, 0x37, 0x38, 0x39] = 0x29B1 := by decide +kernel

/-- R23: a station record with every field at a value of its own, written and read back (R185). -/
theorem test_station_entry :
    (decodeStation [0x1F, 2, 5, 6, 3, 0x00, 0x01, 0x40, 0x00, 0x20, 0x00, 0xE0, 0x00, 4, 64]).map encodeStation
      = some [0x1F, 2, 5, 6, 3, 0x00, 0x01, 0x40, 0x00, 0x20, 0x00, 0xE0, 0x00, 4, 64] := by decide +kernel

/-- R182, R183: a frame that carries a Take with tag 7 hands one message; two pressed keys are levels. -/
theorem test_frame :
    ((parseUplink (framed [9, 0x13, 0x62, 0, 4, 0x05, 7, 4, 0])).any fun f =>
        f.seq = 9 && f.levels.talk.toList = [true, true, false, false] && f.levels.call = some 2 && f.levels.announce
          && f.levels.acks.toList = [false, true, false, false] && f.area = [0x05, 7, 4, 0]) = true
    ∧ parseArea 4 [0x05, 7, 4, 0] = [(0x05, 7, [])] ∧ decodeRequest 0x05 [] = some .take := by decide +kernel

/-! The commands of the supply and the line, and the queue. -/

theorem test_step_idle : step State.reset = .next State.reset := rfl

theorem test_meets_StepRunsTheFrontCommand :
    ({ State.reset with pending := [.take, .go] } : State).pending = .take :: [.go] ∧ State.reset.pending = [] := ⟨rfl, rfl⟩

theorem test_meets_AssertedLineHoldsThePart :
    ({ State.reset with resetLine := true } : State).resetLine = true ∧ Instr.blockCompletion ≠ .powerOn
      ∧ Instr.blockCompletion ≠ .resetLineRelease := by decide

theorem test_meets_ResetLineKeepsTheTables :
    State.reset.resetLine = false ∧ ({ State.reset with resetLine := true } : State).resetLine = true := ⟨rfl, rfl⟩

/-- A part whose soft reset is due. -/
def dueReset : State := { State.reset with mgmt := { State.reset.mgmt with service := .resetDue } }

theorem test_meets_SoftResetKeepsWhatItSays : dueReset.resetLine = false ∧ dueReset.mgmt.service = .resetDue := ⟨rfl, rfl⟩

theorem test_meets_EveryResetEmptiesTheArbiter :
    (Instr.powerOn = .powerOn) ∧ ({ State.reset with resetLine := true } : State).resetLine = true
      ∧ dueReset.resetLine = false ∧ dueReset.mgmt.service = .resetDue := by decide

/-- R30, R173: the line released with a check-required window open on NETS sets the bank's mark, not the cue table's. -/
theorem test_line_release_marks :
    let w : Window := ⟨0, .nets, false, 0, 15, true, 3, 0⟩
    let t := after (exec .resetLineRelease
      { State.reset with resetLine := true, mgmt := { State.reset.mgmt with window := some w } })
    t.unverified = true ∧ t.table.unverified = false ∧ t.mgmt.window = none ∧ t.resetLine = false := by decide +kernel

/-! The block completion. -/

theorem noneDue_reset : NoneDue State.reset := by
  intro d
  cases d with
  | callHold n => revert n; decide +kernel
  | switchover st => revert st; decide +kernel
  | lamp st => revert st; decide +kernel
  | restore st => revert st; decide +kernel
  | linkDown p => revert p; decide +kernel
  | overload st => revert st; decide +kernel
  | _ => rfl

/-- The part free to take a command. -/
theorem calm_reset : Calm State.reset := ⟨rfl, rfl⟩

theorem test_meets_CompletionIsOneComputation :
    Calm State.reset ∧ State.reset.opened = false ∧ NoneDue State.reset
      ∧ Calm { State.reset with opened := true } ∧ ({ State.reset with opened := true } : State).opened = true
      ∧ (Arbiter.init.setCall 3 (.holding none 1)).calls[(3 : Net)] = .holding none 1
      ∧ ∀ c r, State.reset.arb.calls[(3 : Net)] ≠ .holding c r := by
  refine ⟨calm_reset, rfl, noneDue_reset, ⟨rfl, rfl⟩, rfl, by decide +kernel, ?_⟩
  intro c r h
  have e : State.reset.arb.calls[(3 : Net)] = .idle := by decide +kernel
  rw [e] at h
  cases h

/-- A call hold of 1 ms on net 3. -/
def heldCall (r : Nat) : State := State.reset.modArb (·.setCall 3 (.holding none r))

theorem test_meets_EventCommandsTakeWhatIsDue :
    eventOf (.callHoldExpiry 3) = some (.callHold 3) ∧ Calm (heldCall 0) ∧ (Due.callHold 3).isDue (heldCall 0) = true
      ∧ (Due.callHold 3).isDue State.reset = false ∧ Calm { State.reset with opened := true }
      ∧ State.reset.opened = false ∧ NoneDue State.reset
      ∧ (Due.callHold 3).isDue (heldCall 1) = false ∧ (Due.callHold 3).isDue (openCompletion (heldCall 1)) = true := by
  refine ⟨rfl, ⟨rfl, rfl⟩, by decide +kernel, by decide +kernel, ⟨rfl, rfl⟩, rfl, noneDue_reset, ?_⟩
  decide +kernel

/-- 3.13: station 12 hears station 3 at full level; every sample saturates, so its block is 7FFFh and its flag is set. -/
def loudPair : State :=
  let hear (s : State) : State := { s with live := s.live.setCell 12 2 ⟨256, none⟩ }
  let play (p : Port) (s : State) : State :=
    s.modPort p fun u => { u with latest := Vector.replicate 24 (30000#16), fresh := true }
  (hear (play 3 (play 9 (onAir 12 12 id (onAir 3 3 id (onAir 9 9 id State.reset)))))).modArb
    (·.setHolders 2 [⟨3, 0⟩, ⟨9, 0⟩])

theorem test_meets_CompletionMovesTheDuckGains_and_ListenBlocks :
    Calm loudPair ∧ (setSlots loudPair).activeOf 12 = some 12 ∧ (setSlots loudPair).listener 12 = true
      ∧ (setSlots loudPair).activeOf 20 = none := by
  refine ⟨⟨rfl, rfl⟩, ?_⟩
  decide +kernel

theorem test_saturated_block :
    ((setSlots loudPair).computeMix.listen[(12 : Station)]).map (fun b => (b[0], b[23])) = some (0x7FFF, 0x7FFF)
      ∧ (setSlots loudPair).computeMix.clip[(12 : Station)] = true := by decide +kernel

/-- R182: a listener's frame is 132 bytes with its block from byte 17, and any other 84. -/
theorem test_frame_lengths :
    let d := setSlots loudPair
    let f := d.frame d.computeMix.listen 12
    f.length = 132 ∧ (f.drop 17).take 3 = [24, 0xFF, 0x7F] ∧ (d.frame d.computeMix.listen 20).length = 84 := by
  decide +kernel

theorem test_meets_CompletionSendsEveryPortAFrame :
    Calm loudPair ∧ (setSlots loudPair).live.serves 12 = some 12 ∧ (setSlots loudPair).live.serves 20 = none :=
  ⟨⟨rfl, rfl⟩, by decide +kernel, by decide +kernel⟩

/-- R107: a SOURCE shows TALK_OFF on a key that stands MUTED; a PANEL shows the mute. -/
theorem test_source_shows_no_talk :
    let key (k : Kind) : Nat := State.talkShown ((onAir 5 5 (fun r => { r with kind := k }) State.reset).modArb
      (·.setTalk 5 1 .muted)) (some 5) 1
    key .source = 0 ∧ key .panel = 4 := by decide +kernel

/-- Station 8 on ports 8 and 9, both UP, its primary's bucket 8 below the threshold and about to rise. -/
def rising : State :=
  { (onAir 8 8 (fun r => { r with spare := some 9 }) (onAir 8 9 id State.reset)).modPort 8 fun u => { u with bucket := 56 } with
    opened := true }

theorem condsOk_rising : CondsOk rising := by
  unfold CondsOk ThresholdsOk; decide +kernel

/-- R132, R145: the port that rises to the threshold begins a switchover at this completion, and its spare's input is
restarted. -/
theorem test_meets_CompletionOfThePortUnits :
    Calm rising ∧ rising.composed = rising ∧ CondsOk rising ∧ rising.homing[(8 : Station)].state = .onPrimary
      ∧ (composeCompletion rising).homing[(8 : Station)].state = .switching
      ∧ (composeCompletion rising).homing[(8 : Station)].active = some 9 :=
  ⟨⟨rfl, rfl⟩, rfl, condsOk_rising, by decide +kernel, by decide +kernel, by decide +kernel⟩

/-- R141: of 60, 4 and 4 bytes the first two leave, and the third closes the area. -/
theorem test_meets_MessageAreaTakesFromTheHead :
    let m (k : Nat) : Message := ⟨0xC0, 0, 0, List.replicate k 0⟩
    (fillArea 64 [m 56, m 0, m 0]).2 = [m 0] ∧ (fillArea 64 [m 57]).2 = [] ∧ (fillArea 4 [m 1]).2 = [m 1] := by
  decide +kernel

/-! Events. -/

/-- A bank with station 5 of a kind and a lamp count. -/
def lampBank (k : Kind) (n : Nat) : Bank := (onAir 5 5 (fun r => { r with kind := k, lampCount := n }) State.reset).live

theorem test_meets_CallHoldAndLampTestEnd :
    Calm (heldCall 0) ∧ (heldCall 0).arb.calls[(3 : Net)] = .holding none 0
      ∧ Calm (State.reset.modLamps fun l => { l with timer := l.timer.set 5 (some 0) })
      ∧ (State.reset.modLamps fun l => { l with timer := l.timer.set 5 (some 0) }).lamps.timer[(5 : Station)] = some 0
      ∧ (lampBank .panel 0).stations[(4 : Station)].enabled = false ∧ (lampBank .source 3).stations[(5 : Station)].kind = .source
      ∧ (lampBank .panel 2).stations[(5 : Station)].enabled = true ∧ (lampBank .panel 2).stations[(5 : Station)].kind ≠ .source
      ∧ (lampBank .panel 0).stations[(5 : Station)].lampCount < (lampBank .panel 2).stations[(5 : Station)].lampCount
      ∧ (lampBank .panel 2).stations[(5 : Station)].lampCount ≤ (lampBank .panel 2).stations[(5 : Station)].lampCount := by
  refine ⟨⟨rfl, rfl⟩, by decide +kernel, ⟨rfl, rfl⟩, ?_⟩
  decide +kernel

/-- R105: at a count of 1 a test keeps lamp 0 and its timer; at a count of 0 it ends. -/
theorem test_lamps_at_a_take :
    let l := LampState.init.startTest 5 3
    let t (n : Nat) := l.applyTake (lampBank .panel 3) (lampBank .panel n)
    ((t 1).test[(5 : Station)].toList, (t 1).timer[(5 : Station)]) = ([true, false, false, false], some 3000)
      ∧ ((t 0).test[(5 : Station)].toList, (t 0).timer[(5 : Station)]) = ([false, false, false, false], none) := by
  decide +kernel

/-- Cue 30 with two targets, one acknowledged, its deadline run out, and cue 31 behind it. -/
def lateCue : State :=
  { cueOn 30 (fun r => { r with targets := [(5, 0), (14, 1)] }) State.reset with
    cues := [{ entryOf 30 .standby [.waiting, .acked] with deadline := .running 0 }, entryOf 31 .ready [.acked]],
    lamps := { LampState.init with claims := [⟨30, 0, 5, 0, .standby⟩, ⟨30, 1, 14, 1, .ready⟩, ⟨31, 0, 0, 0, .ready⟩] } }

theorem claimsOk_lateCue : ClaimsOk lateCue :=
  claimsOk_of (by decide +kernel) (by decide +kernel) (by decide +kernel)

/-- Cue 30 with both targets of station 5 LOST, its deadline run out; station 5 in service with one lamp. -/
def lostCue : State :=
  { cueOn 30 (fun r => { r with targets := [(5, 0), (5, 1)] }) (onAir 5 5 (fun r => { r with lampCount := 1 }) State.reset) with
    cues := [{ entryOf 30 .standby [.lost, .lost] with deadline := .expired }] }

theorem test_meets_DeadlineMakesWaitingTargetsLate :
    Calm lateCue ∧ CueListOk lateCue ∧ ClaimsOk lateCue
      ∧ (lateCue.entry 30).map (fun e => (e.deadline, e.targets)) = some (.running 0, [.waiting, .acked])
      ∧ (31 : CueIx) ≠ 30 ∧ lateCue.auth.holder = none
      ∧ (lateCue.cueRec 30).targets[0]? = some (5, 0) ∧ lateCue.auth.holder ≠ some 3
      ∧ CueListOk lostCue ∧ ClaimsOk lostCue
      ∧ (lostCue.cueRec 30).targets[0]? = some (5, 0) ∧ lostCue.inService 5 0 = true ∧ lostCue.inService 5 1 = false := by
  refine ⟨⟨rfl, rfl⟩, ?_, claimsOk_lateCue, ?_, by decide, by decide, by decide +kernel, by decide, ?_,
    claimsOk_of (by decide +kernel) (by decide +kernel) (by decide +kernel), ?_⟩
  · unfold CueListOk; decide +kernel
  · decide +kernel
  · unfold CueListOk; decide +kernel
  · decide +kernel

/-- R97: the target in service comes back LATE with a LATE claim; the one on no lamp stays LOST. -/
theorem test_return :
    let t := cueReturned 5 lostCue
    t.cues.map (·.targets) = [[.late, .lost]] ∧ t.lamps.claims = [⟨30, 0, 5, 0, .late⟩] := by decide +kernel

/-- R81, R96: a READY entry under ALL that loses two targets at once reports UNREADY after the first loss. -/
theorem test_unready_between_losses :
    let s : State := { cueOn 30 (fun r => { r with targets := [(5, 0), (5, 1)] }) (holding State.reset) with
      cues := [entryOf 30 .ready [.acked, .acked]] }
    (cueIsolated 5 s).out[(0 : Port)].queue.map (·.kind) = [0xC4, 0xC1, 0xC4] := by decide +kernel

/-- R83: the first target is LATE and shows it; the second keeps its claim. -/
theorem test_deadline :
    let t := after (exec (.ackDeadlineExpiry 30) lateCue)
    (t.entry 30).map (·.targets) = some [.late, .acked] ∧ t.lamps.shown 5 0 = .late ∧ t.lamps.shown 14 1 = .ready := by
  decide +kernel

/-- Cue 30 GOING with its go hold run out; cue 31, of policy STRICT, in standby, and cue 32 ready, their follows due. -/
def running3 : State :=
  let due : Option Countdown := some ⟨0, true, 30⟩
  { State.reset with
    cues := [entryOf 30 .going [], { entryOf 31 .standby [] with follow := due }, { entryOf 32 .ready [] with follow := due }] }

theorem test_meets_GoHoldAndFollowExpire :
    ((running3.entry 30).map (fun e => (e.state, e.goHold)) = some (.going, 0)
      ∧ (running3.entry 31).map (fun e => (e.state, e.follow)) = some (.standby, some ⟨0, true, 30⟩)
      ∧ (running3.cueRec 31).goPolicy = .strict
      ∧ (running3.entry 32).map (fun e => (e.state, e.follow)) = some (.ready, some ⟨0, true, 30⟩)
      ∧ running3.entry 33 = none ∧ (running3.cueRec 33).enabled = false
      ∧ (let f := cueOn 33 id { running3 with cues := List.replicate 16 (entryOf 30 .ready []) }
         f.entry 33 = none ∧ (f.cueRec 33).enabled = true ∧ 16 ≤ f.cues.length)
      ∧ lateCue.entry 33 = none ∧ ((cueOn 33 id lateCue).cueRec 33).enabled = true ∧ (cueOn 33 id lateCue).cues.length < 16)
      ∧ Calm running3 ∧ CueListOk (cueOn 33 id lateCue) ∧ ClaimsOk (cueOn 33 id lateCue) := by
  refine ⟨by decide +kernel, ⟨rfl, rfl⟩, ?_, claimsOk_of ?_ ?_ ?_⟩
  · unfold CueListOk; decide +kernel
  all_goals decide +kernel

/-- Station 8 on ports 8 and 9; `f` changes its homing. -/
def paired (f : Homing → Homing) : State :=
  (onAir 8 8 (fun r => { r with spare := some 9, mgmt := true }) State.reset).modHoming 8 f

/-- Station 8 in ON_SPARE with a restore due; its primary clean, or marked failed. -/
def restoring (failed : Bool) : State :=
  paired fun h =>
    { h with state := .onSpare, active := some 9, primFailed := failed, restorePending := true, restoreDue := true }

/-- Station 8 in SWITCHING, its timer run out. -/
def switching : State :=
  paired fun h => { h with state := .switching, active := some 9, switchRem := some 0, primFailed := true }

theorem test_meets_SwitchoverTimeoutIsolates :
    let held : State := { switching with auth := ⟨some 9, some (.station 8), none, false⟩ }
    (Calm switching ∧ Calm held)
      ∧ switching.homing[(8 : Station)].state = .switching ∧ switching.homing[(8 : Station)].switchRem = some 0
      ∧ switching.holds 8 = false ∧ held.holds 8 = true ∧ held.auth.holder.isSome = true ∧ (4 : Station) ≠ 8 := by
  refine ⟨⟨⟨rfl, rfl⟩, rfl, rfl⟩, ?_⟩
  decide +kernel

/-- Station 8 on ports 8 and 9, port 9 UP and clean or not, in a homing state. -/
def linkedPair (spareUp : Bool) (f : Homing → Homing) : State :=
  let s := onAir 8 8 (fun r => { r with spare := some 9 }) State.reset
  (if spareUp then { s.modPort 9 fun u => { u with up := true, cond := false } with
    faults := { s.faults with ports := upd s.faults.ports 9 fun g => { g with linkCond := false } } } else s).modHoming 8 f

/-- The clauses of a LINK fault, an isolation and a return. -/
theorem test_meets_SwitchoverTimeoutIsolates_faults :
    let iso (a b : Bool) : State :=
      linkedPair b fun h => { h with state := .isolated, active := none, primFailed := a, spareFailed := false }
    (linkedPair true id).homing[(8 : Station)].state = .onPrimary ∧ ((linkedPair true id).station 8).spare = some 9
      ∧ (linkedPair true id).clean 8 9 = true ∧ (linkedPair false id).clean 8 9 = false
      ∧ (panel5.station 5).spare = none ∧ panel5.homing[(5 : Station)].state = .onPrimary
      ∧ (restoring true).homing[(8 : Station)].state = .onSpare ∧ (iso false true).homing[(8 : Station)].state = .isolated
      ∧ (iso false true).clean 8 8 = true ∧ (iso true true).clean 8 8 = false ∧ (iso true true).clean 8 9 = true
      ∧ (iso true false).clean 8 9 = false
      ∧ ({ switching with auth := ⟨some 9, some (.station 8), none, false⟩ } : State).auth.holding = some (.station 8) := by
  decide +kernel

/-- R145, R149: a LINK fault in ON_PRIMARY moves to a clean spare, and without one isolates the station. -/
theorem test_link_fault :
    let t (b : Bool) := linkFault 8 (linkedPair b id)
    ((t true).homing[(8 : Station)].state, (t true).homing[(8 : Station)].switchRem) = (.switching, some 50)
      ∧ ((t false).homing[(8 : Station)].state, (t false).homing[(8 : Station)].active) = (.isolated, none) := by
  decide +kernel

/-- Port 0 holds authority and its supervision window has run out. -/
def lateDesk (m : Mode) : State :=
  inMode .desk m { State.reset with auth := ⟨some 0, some .commissioning, some ⟨2000, true⟩, false⟩ }

theorem test_meets_LateDeskFaultByMode :
    Calm (lateDesk .warn) ∧ Calm (lateDesk .latched) ∧ (lateDesk .warn).auth.window = some ⟨2000, true⟩
      ∧ (lateDesk .latched).auth.holder = some 0 ∧ (lateDesk .warn).faults.modes.desk = .warn
      ∧ (lateDesk .latched).faults.modes.desk = .latched := ⟨⟨rfl, rfl⟩, ⟨rfl, rfl⟩, rfl, rfl, rfl, rfl⟩

/-- A bank in which station 0 or 5 is enabled with management, on a port. -/
def managing (l : List (Station × Port)) : Bank :=
  (l.foldl (fun s x => onAir x.1 x.2 (fun r => { r with mgmt := true }) s) State.reset).live

/-- R118: the holding station kept, moved or gone; a COMMISSIONING holder kept, taken over at port 0, or gone. -/
theorem test_meets_LateDeskFaultByMode_takes :
    let held (h : Holding) : State := { State.reset with auth := ⟨some 5, some h, none, false⟩ }
    let takes (old new : Bank) (h : Holding) : Option Holding := (authTake old new State.reset.homing (held h)).auth.holding
    takes (managing [(5, 5)]) (managing [(5, 5)]) (.station 5) = some (.station 5)
      ∧ takes (managing [(5, 5)]) (managing [(5, 6)]) (.station 5) = none ∧ takes (managing [(5, 5)]) (managing []) (.station 5) = none
      ∧ takes (managing []) (managing []) .commissioning = some .commissioning
      ∧ takes (managing []) (managing [(0, 0)]) .commissioning = some (.station 0)
      ∧ takes (managing []) (managing [(5, 5)]) .commissioning = none
      ∧ State.reset.auth.holding = none := by decide +kernel

/-- A running measurement at a count. -/
def metering (measuring : Bool) (count : Nat) : State :=
  State.reset.modMgmt fun g => { g with meter := some ⟨0, 7, .programme, true, measuring, count, 900, 3, false⟩ }

theorem test_meets_MeterPhasesEnd :
    Calm (metering false 20) ∧ Calm (metering true 50)
      ∧ (metering false 20).mgmt.meter = some ⟨0, 7, .programme, true, false, 20, 900, 3, false⟩
      ∧ (metering true 50).mgmt.meter = some ⟨0, 7, .programme, true, true, 50, 900, 3, false⟩
      ∧ (∀ b, (setSlots ({ metering b 3 with opened := true } : State).composed).mgmt.meter
          = some ⟨0, 7, .programme, true, b, 3, 900, 3, false⟩)
      ∧ (setSlots ({ State.reset with opened := true } : State).composed).mgmt.meter = none :=
  ⟨⟨rfl, rfl⟩, ⟨rfl, rfl⟩, rfl, rfl, fun _ => rfl, rfl⟩

/-- R180: a window at full scale: the peak, the block at full scale, and a DOWN port's absent signal. -/
theorem test_meter_sample :
    let m : Meter := ⟨0, 7, .inputSlot 3, false, true, 49, 900, 3, false⟩
    m.sample (Vector.replicate 24 (0x8000#16)) (State.reset.meterUnfit m.point)
      = ⟨0, 7, .inputSlot 3, false, true, 50, 32768, 4, true⟩ := by decide +kernel

/-- A Take of port 0, due. -/
def dueTake (unverified : Bool) : State :=
  { State.reset with takePending := some (.requester 0 7), takeDue := true, unverified := unverified }

theorem test_meets_PendingTakeIsAppliedOrAbandoned :
    Calm (dueTake true) ∧ Calm (dueTake false) ∧ (dueTake true).takeDue = true ∧ (dueTake false).takeDue = true
      ∧ (dueTake true).takePending = some (.requester 0 7) ∧ (dueTake true).resetLeaves = false
      ∧ (dueTake false).resetLeaves = false ∧ (dueTake true).unverified = true ∧ (dueTake false).unverified = false :=
  ⟨⟨rfl, rfl⟩, ⟨rfl, rfl⟩, rfl, rfl, rfl, rfl, rfl, rfl, rfl⟩

/-- A Take pending and not due, its completion not open, and a Soft Reset whose OK leaves at that completion or none. -/
def nextTake (leaves : Bool) : State :=
  let s := { State.reset with takePending := some (.requester 0 7) }
  if leaves then
    { s.modMgmt fun g => { g with service := .resetOk 0 } with out := s.out.set 0 ⟨[⟨0x98, 0x11, 0, []⟩], false⟩ }
  else s

theorem noneDue_nextTake (b : Bool) : NoneDue (nextTake b) := by
  intro d
  have h := noneDue_reset d
  cases b <;> cases d <;> exact h

/-- PendingTakeIsAppliedOrAbandoned, a TAKE_APPLY that is not due: in an open completion, with no Take pending, with one
that a leaving reset cuts off, and with one that comes due at the completion it opens. -/
theorem test_meets_PendingTakeIsAppliedOrAbandoned_early :
    (∀ b, Calm (nextTake b) ∧ NoneDue (nextTake b) ∧ (nextTake b).takeDue = false ∧ (nextTake b).opened = false
        ∧ (nextTake b).takePending.isSome = true ∧ (openCompletion (nextTake b)).resetLeaves = b)
      ∧ (openCompletion (nextTake false)).takeDue = true
      ∧ State.reset.takePending = none ∧ ({ State.reset with opened := true } : State).opened = true := by
  refine ⟨fun b => ⟨?_, noneDue_nextTake b, ?_⟩, ?_⟩
  · cases b <;> exact ⟨rfl, rfl⟩
  · revert b
    decide +kernel
  · decide +kernel

/-- R33: the answer of an applied Take. -/
theorem test_take_answers :
    let t := after (exec .takeApply (dueTake false))
    t.takePending = none ∧ t.out[(0 : Port)].queue = [⟨0x85, 7, 0, []⟩] := by decide +kernel

/-- R134: port 5, which the Take gives to station 6, holds no condition until it judges one; no part has anything to do
at a Take that changes nothing. -/
theorem test_meets_PendingTakeIsAppliedOrAbandoned_parts :
    (managing [(5, 5)]).serves 5 ≠ (managing [(6, 5)]).serves 5 ∧ (managing [(5, 5)]).serves 5 = (managing [(5, 5)]).serves 5
      ∧ allTakeParts.filter (TakePart.shows (dueTake false) (dueTake false)) = []
      ∧ TakePart.homing ∈ allTakeParts.filter
          (TakePart.shows (dueTake false) { dueTake false with live := managing [(5, 5)] }) := by decide +kernel

/-- Port 0 holds authority COMMISSIONING and a Take gives it to station 0, of spare port 1, its bucket at the threshold. -/
def takenOver : State :=
  let s := onAir 0 0 (fun r => { r with spare := some 1, mgmt := true }) (onAir 1 1 id (inMode .link .auto State.reset))
  { s.modPort 0 fun u => { u with bucket := 64 } with
    live := { s.live with stations := s.live.stations.set 1 StationRecord.powerOn },
    auth := ⟨some 0, some .commissioning, none, false⟩ }

/-- R118, R35, R113: the holder becomes station 0's first, and its LINK fault then moves the holder with it, whichever of
the homing controller's part and port 0's comes first (notes/assumptions/40.md). -/
theorem test_holder_follows_a_take :
    let t (l : List TakePart) : State := takeAlong State.reset (l.map fun x => (x, 0)) takenOver
    let sees (l : List TakePart) := ((t l).auth, (t l).homing[(0 : Station)].active)
    sees [.authority, .homing, .port 0] = (⟨some 1, some (.station 0), none, false⟩, some 1)
      ∧ sees [.authority, .port 0, .homing] = (⟨some 1, some (.station 0), none, false⟩, some 1) := by decide +kernel

theorem test_meets_RestoreIsAppliedOrLapses :
    Calm (restoring true) ∧ Calm (restoring false) ∧ (restoring true).homing[(8 : Station)].restoreDue = true
      ∧ (restoring true).clean 8 8 = false ∧ (restoring false).homing[(8 : Station)].state = .onSpare
      ∧ (restoring false).homing[(8 : Station)].restoreDue = true ∧ (restoring false).clean 8 8 = true
      ∧ ((restoring false).station 8).spare = some 9 ∧ (9 : Port) ≠ 8 := by
  refine ⟨⟨rfl, rfl⟩, ⟨rfl, rfl⟩, ?_⟩
  decide +kernel

/-- Station 3's mark, at given runs. -/
def marking (m : Bool) (setRun clearRun : Nat) (cond : Bool) : State :=
  State.reset.modStFaults 3 fun f => { f with mark := some m, setRun := setRun, clearRun := clearRun, overCond := cond }

theorem test_meets_OverloadMarksAreCounted :
    Calm (marking true 15 0 false) ∧ (marking true 15 0 false).faults.stations[(3 : Station)].mark = some true
      ∧ Calm (marking false 0 15 true) ∧ (marking false 0 15 true).faults.stations[(3 : Station)].mark = some false := by
  refine ⟨⟨rfl, rfl⟩, by decide +kernel, ⟨rfl, rfl⟩, by decide +kernel⟩

/-- R159: the 16th mark begins the condition and the 16th clear ends it; the 15th does neither. -/
theorem test_overload_runs :
    let cond (s : State) : Bool := (after (exec (.overloadCount 3) s)).faults.stations[(3 : Station)].overCond
    cond (marking true 14 0 false) = false ∧ cond (marking true 15 0 false) = true
      ∧ cond (marking false 0 14 true) = true ∧ cond (marking false 0 15 true) = false := by decide +kernel

/-- R162: a station disabled, one made a CUE_STATION, and one made a SOURCE while muted. -/
theorem test_meets_OverloadMarksAreCounted_takes :
    let f := (marking true 3 0 true).faults
    let g : Faults := { f with stations := upd f.stations 3 fun x => { x with mute := .rekey } }
    let bank (on : Bool) (k : Kind) : Bank := (onAir 3 3 (fun r => { r with enabled := on, kind := k }) State.reset).live
    let t (on : Bool) (k : Kind) := (g.applyTake (bank true .panel) (bank on k)).stations[(3 : Station)]
    ((t false .panel).setRun, (t false .panel).mute) = (0, .none) ∧ ((t true .cueStation).setRun, (t true .cueStation).mute) = (0, .none)
      ∧ ((t true .source).setRun, (t true .source).mute) = (3, .none) ∧ ((t true .desk).setRun, (t true .desk).mute) = (3, .rekey) := by
  decide +kernel

/-- A response that waits, and a read that streams one STATIONS entry of a window. -/
def waiting : State :=
  State.reset.modMgmt fun g => { g with queue := [req .revert], service := .waiting 0 ⟨0x86, 0x11, 0, []⟩ false }

def streaming : State :=
  State.reset.modMgmt fun g =>
    { g with queue := [req .readEntries], service := .streaming 0 0x11 0, window := some ⟨0, .stations, false, 0, 1, false, 0, 0⟩ }

theorem test_meets_WaitingResponsesArePlaced :
    waiting.resetLine = false ∧ waiting.mgmt.service = .waiting 0 ⟨0x86, 0x11, 0, []⟩ false
      ∧ streaming.resetLine = false ∧ streaming.mgmt.service = .streaming 0 0x11 0
      ∧ streaming.mgmt.window = some ⟨0, .stations, false, 0, 1, false, 0, 0⟩ := ⟨rfl, rfl, rfl, rfl, rfl⟩

/-- R177: the first entry is not the last; the service goes on at position 1. -/
theorem test_stream :
    let t := after (exec .readEntriesContinue streaming)
    t.mgmt.service = .streaming 0 0x11 1
      ∧ t.out[(0 : Port)].queue.map (fun m => m.body.take 4) = [[0, 0, 1, 1]] := by decide +kernel

/-! Links. -/

/-- Port 5 with link UP, or DOWN with an acquire count. -/
def linked (up : Bool) (acquire : Nat) : State :=
  State.reset.modPort 5 fun u => { u with up := up, acquire := acquire, bucket := 40, lastSeq := some 1 }

theorem test_meets_DamagedFramesAreDiscarded :
    Calm (linked true 0) ∧ Calm (linked false 3)
      ∧ ((linked true 0).ports[(5 : Port)].up = true → (linked true 0).ports[(5 : Port)].loss < 20)
      ∧ ((linked false 3).ports[(5 : Port)].up = true → (linked false 3).ports[(5 : Port)].loss < 20) := by
  refine ⟨⟨rfl, rfl⟩, ⟨rfl, rfl⟩, ?_⟩
  decide +kernel

/-- A frame too short for a header, one of the wrong length, one that declares 65 message bytes, one that declares one
sample, and one whose check is wrong. -/
theorem test_meets_DamagedFramesAreDiscarded_bytes :
    ∀ bytes ∈ ([[], [1, 0, 0, 0, 1, 0, 0], framed ([1, 0, 0, 0, 65] ++ List.replicate 65 0), framed [1, 0, 0, 1, 0, 0, 0],
        [1, 0, 0, 0, 0, 0, 0]] : List (List Byte)),
      ∀ (seq b1 b2 cnt mlen : Byte) (rest : List Byte), bytes = seq :: b1 :: b2 :: cnt :: mlen :: rest →
        bytes.length ≠ 7 + 2 * cnt.toNat + mlen.toNat ∨ 64 < mlen.toNat ∨ (cnt.toNat ≠ 0 ∧ cnt.toNat ≠ 24)
          ∨ crcBytes (crc 0xFFFF (bytes.take (bytes.length - 2))) ≠ bytes.drop (bytes.length - 2) := by
  intro bytes hb seq b1 b2 cnt mlen rest h
  simp only [List.mem_cons, List.not_mem_nil, or_false] at hb
  rcases hb with rfl | rfl | rfl | rfl | rfl <;> cases h <;> decide +kernel

theorem test_meets_ValidFramesCount :
    Calm (linked true 0) ∧ Calm (linked false 7) ∧ Calm (linked false 6)
      ∧ (linked true 0).ports[(5 : Port)].loss < 20
      ∧ (parseUplink (idleFrame 1)).map (·.seq) = some 1 ∧ (parseUplink (idleFrame 2)).map (·.seq) = some 2
      ∧ (linked true 0).ports[(5 : Port)].lastSeq = some 1
      ∧ (linked false 7).ports[(5 : Port)].up = false ∧ 7 ≤ (linked false 7).ports[(5 : Port)].acquire
      ∧ (linked false 6).ports[(5 : Port)].up = false ∧ ¬ 7 ≤ (linked false 6).ports[(5 : Port)].acquire := by
  refine ⟨⟨rfl, rfl⟩, ⟨rfl, rfl⟩, ⟨rfl, rfl⟩, ?_⟩
  decide +kernel

/-- A frame with 24 samples, of low byte 1 and high byte 2. -/
def soundFrame : List Byte := framed ([9, 0x13, 0x62, 24, 0] ++ (List.replicate 24 [1, 2]).flatten)

/-- ValidFramesCount, the reading of an undamaged frame: one without samples and one with 24. -/
theorem test_meets_ValidFramesCount_reading :
    let sound (b : List Byte) (n : Nat) : Prop :=
      b.length = 7 + n ∧ b[3]? = some (byteOf (n / 2)) ∧ b[4]? = some 0
        ∧ crcBytes (crc 0xFFFF (b.take (b.length - 2))) = b.drop (b.length - 2)
    sound (idleFrame 1) 0 ∧ sound soundFrame 48
      ∧ ((parseUplink soundFrame).bind (·.audio)).map (fun x => x[(23 : Fin 24)].toNat) = some 0x201 := by decide +kernel

/-- R130: the 8th valid frame brings the port UP; the 7th does not. -/
theorem test_acquire :
    let up (s : State) : Bool := (after (exec (.linkUp 5 (idleFrame 2)) s)).ports[(5 : Port)].up
    up (linked false 7) = true ∧ up (linked false 6) = false := by decide +kernel

/-- Station 8 in SWITCHING on port 9, UP and awaiting reconciliation, with key 0 LIVE on net 4. -/
def reconciling : State :=
  let s := linkedPair true fun h => { h with state := .switching, active := some 9, switchRem := some 20, primFailed := true }
  (s.modPort 9 fun u => { u with awaiting := true }).modArb fun a => (a.setHolders 4 [⟨8, 0⟩]).setTalk 8 0 .live

theorem test_meets_TakenFramesHandTheirEdges :
    (onAir 4 4 id State.reset).activeOf 4 = some 4 ∧ (onAir 4 4 id State.reset).ports[(4 : Port)].awaiting = false
      ∧ State.reset.activeOf 4 = none ∧ (reconciling.activeOf 9 = some 8) ∧ reconciling.ports[(9 : Port)].awaiting = true
      ∧ reconciling.homing[(8 : Station)].state = .switching ∧ (parseUplink (idleFrame 2)).map (·.area) = some [] := by
  decide +kernel

/-- R12, R146: the first frame on the spare, with no key pressed: key 0's hold is released and the switchover ends. -/
theorem test_reconcile :
    let t := after (exec (.uplinkFrame 9 (idleFrame 2)) reconciling)
    t.homing[(8 : Station)].state = .onSpare ∧ t.arb.talk[(8 : Station)][(0 : Key)] = .off
      ∧ t.arb.holders[(4 : Net)] = [] ∧ t.ports[(9 : Port)].awaiting = false := by decide +kernel

/-- Port 4 of station 4 at its 20th silent completion. -/
def silent : State :=
  { (onAir 4 4 id State.reset).modPort 4 fun u => { u with loss := 20 } with
    auth := ⟨some 4, some .commissioning, none, false⟩ }

theorem test_meets_LinkDownEmptiesThePort :
    Calm silent ∧ silent.ports[(4 : Port)].up = true ∧ silent.ports[(4 : Port)].loss = 20
      ∧ (silent.live.serves 4).isSome = true ∧ silent.auth.holder = some 4 ∧ (5 : Port) ≠ 4 := by
  refine ⟨⟨rfl, rfl⟩, ?_⟩
  decide +kernel

/-- R133, the worked figures: with threshold 64 the condition begins at 64 and ends at 32. -/
theorem test_meets_LinkConditionHasHysteresis :
    let u (b : Nat) (c : Bool) : PortUnit := { PortUnit.init with up := true, bucket := b, cond := c }
    judgedCond (u 63 false) 64 = false ∧ judgedCond (u 64 false) 64 = true
      ∧ judgedCond (u 33 true) 64 = true ∧ judgedCond (u 32 true) 64 = false
      ∧ State.reset.live.serves 4 = none ∧ silent.live.serves 4 = some 4
      ∧ silent.ports[(4 : Port)].cond = false ∧ judgedCond (silent.modPort 4 fun x => { x with bucket := 64 }).ports[(4 : Port)] 64 = true
      ∧ (linkedPair true id).homing[(8 : Station)].state = .onPrimary ∧ switching.homing[(8 : Station)].state = .switching
      ∧ (restoring true).homing[(8 : Station)].state = .onSpare
      ∧ ((linkedPair true fun h => { h with state := .isolated }).homing[(8 : Station)].state = .isolated) := by decide +kernel

/-- Station 8's two ports given the other way round by a Take, port 8's link and its condition held as said. -/
def turned (up cond : Bool) : State :=
  let s := inMode .link .auto (linkedPair true id)
  { s.modPort 8 fun u => { u with up := up, cond := cond } with
    live := { s.live with stations := upd s.live.stations 8 fun r => { r with primary := 9, spare := some 8 } } }

/-- LinkConditionHasHysteresis, port 8's part of that Take before the homing controller's: its condition stays, begins and
ends; and R153, R134: a condition that begins there makes no LINK fault of its own (notes/assumptions/41.md). -/
theorem test_meets_LinkConditionHasHysteresis_take :
    let o := (linkedPair true id).station 8
    let n := (turned false false).station 8
    let judged (up cond : Bool) : Bool := judgedCond (turned up cond).ports[(8 : Port)] n.threshold
    (o.primary ≠ n.primary ∧ (turned false false).live.serves 8 = some 8)
      ∧ (judged true false = false ∧ judged false false = true ∧ judged true true = false)
      ∧ (let t (due : Bool) := portTake (linkedPair true id) due 8 (turned false false)
         ((t true).homing[(8 : Station)].state, (t true).ports[(8 : Port)].cond, (t false).homing[(8 : Station)].state)
          = (.onPrimary, true, .isolated)) := by decide +kernel

/-- R157, R158: what a condition that begins on the active port does in each LINK mode. -/
theorem test_link_modes :
    let t (m : Mode) := judgePort 8 ((inMode .link m (linkedPair true id)).modPort 8 fun x => { x with bucket := 64 })
    let sees (m : Mode) := ((t m).homing[(8 : Station)].state, (t m).faults.ports[(8 : Port)].linkWarn)
    (sees .auto, sees .latched, sees .warn, sees .off)
      = ((.switching, false), (.switching, false), (.onPrimary, true), (.onPrimary, false)) := by decide +kernel

/-! Talk, calls and announce. -/

/-- Station 5 of a kind, in a homing state, or with its net disabled. -/
def panel5As (k : Kind) (h : HomingState) (netOn : Bool) : State :=
  { (patch 5 4 1 0 (onAir 5 5 (fun r => { r with kind := k }) State.reset)).modHoming 5 fun g => { g with state := h } with
    live := { (patch 5 4 1 0 (onAir 5 5 (fun r => { r with kind := k }) State.reset)).live with
      nets := upd panel5.live.nets 4 fun r => { r with enabled := netOn } } }

/-- Station 5 with a mute, and a talk standing on key 0. -/
def muted5 (m : Mute) (v : Standing) : State :=
  (panel5.modStFaults 5 fun f => { f with mute := m }).modArb (·.setTalk 5 0 v)

theorem test_meets_TalkPressesAreChecked :
    (State.reset.station 5).enabled = false ∧ ((panel5As .cueStation .onPrimary true).station 5).kind = .cueStation
      ∧ ((panel5As .source .onPrimary true).station 5).kind = .source
      ∧ (panel5As .panel .isolated true).homing[(5 : Station)].state = .isolated
      ∧ (∀ n : Net, (panel5.live.cell 5 n).key ≠ some 2)
      ∧ (∀ n : Net, ((panel5As .panel .onPrimary false).live.cell 5 n).key = some 1 →
          ((panel5As .panel .onPrimary false).net n).enabled = false)
      ∧ panel5.pressNet 5 1 = some 4 ∧ panel5.mute 5 = .none
      ∧ (muted5 .latched .off).pressNet 5 1 = some 4 ∧ (muted5 .latched .off).mute 5 ≠ .none
      ∧ (muted5 .latched .off).rekeys 5 = false
      ∧ (muted5 .rekey .muted).mute 5 ≠ .none ∧ (muted5 .rekey .muted).rekeys 5 = false
      ∧ (muted5 .rekey .off).rekeys 5 = true ∧ (muted5 .rekey .off).pressNet 5 1 = some 4
      ∧ panel5.arb.talk[(5 : Station)][(1 : Key)] = .off := by decide +kernel

/-- TalkPressesAreChecked and CallsAndAnnounce, a press for net 4: the conditions on the state alone. -/
theorem test_meets_TalkPressesAreChecked_and_CallsAndAnnounce_press :
    (panel5.station 5).enabled = true ∧ (panel5.station 5).kind = .panel ∧ panel5.homing[(5 : Station)].state ≠ .isolated
      ∧ (panel5.live.cell 5 4).key = some 1 ∧ (∀ m : Net, m < 4 → (panel5.live.cell 5 m).key ≠ some 1)
      ∧ (panel5.net 4).enabled = true := by decide +kernel

/-- R161: a press while every standing is OFF ends a REKEY mute and is placed; it does not end a LATCHED one. -/
theorem test_rekey :
    let t (m : Mute) := talkPress 5 1 (muted5 m .off)
    ((t .rekey).mute 5, (t .rekey).arb.talk[(5 : Station)][(1 : Key)]) = (.none, .live)
      ∧ ((t .latched).mute 5, (t .latched).arb.talk[(5 : Station)][(1 : Key)]) = (.latched, .muted) := by decide +kernel

/-- Net 4 of two slots; stations 0 to 3 of classes 3, 2, 1, 0 and the others of class 1. -/
def classes : Bank :=
  let c (st : Station) (k : Nat) (b : Bank) : Bank := { b with stations := upd b.stations st fun r => { r with cls := k } }
  let b := { Bank.powerOn with stations := Bank.powerOn.stations.map fun r => { r with cls := 1 },
                               nets := Bank.powerOn.nets.map fun r => { r with slots := 2 } }
  c 0 3 (c 1 2 (c 3 0 b))

/-- Net 4's lists. -/
def listed (hs ws : List Hold) : Arbiter := (Arbiter.init.setHolders 4 hs).setWaits 4 ws

/-- Eight waiters, the last of a given station. -/
def eight (last : Station) : List Hold := (List.range 7).map (fun i => ⟨Fin.ofNat 24 (8 + i), 0⟩) ++ [⟨last, 0⟩]

theorem test_meets_PressTakesAFreeSlot : (listed [⟨2, 0⟩] []).holders[(4 : Net)].length < classes.nets[(4 : Net)].slots := by
  decide +kernel

/-- R7: holders of classes 1, 1; the press of class 2 takes the later one's slot, with the queue full and with it empty. -/
theorem test_meets_PressPreempts :
    (∀ ws ∈ [[], eight 3], classes.nets[(4 : Net)].slots ≤ (listed [⟨2, 0⟩, ⟨4, 0⟩] ws).holders[(4 : Net)].length
        ∧ (listed [⟨2, 0⟩, ⟨4, 0⟩] ws).holders[(4 : Net)] = [⟨2, 0⟩] ++ ⟨4, 0⟩ :: [])
      ∧ (∀ x ∈ [(⟨2, 0⟩ : Hold)], classes.clsOf ⟨4, 0⟩ ≤ classes.clsOf x ∧ x ≠ ⟨4, 0⟩)
      ∧ (∀ x ∈ ([] : List Hold), classes.clsOf ⟨4, 0⟩ < classes.clsOf x) ∧ classes.clsOf ⟨4, 0⟩ < classes.clsOf ⟨1, 0⟩
      ∧ 8 ≤ (listed [⟨2, 0⟩, ⟨4, 0⟩] (eight 3)).waits[(4 : Net)].length := by decide +kernel

/-- R7: what the press leaves. -/
theorem test_preempt :
    let t := (listed [⟨2, 0⟩, ⟨4, 0⟩] (eight 3)).placePress classes 4 ⟨1, 0⟩
    t.holders[(4 : Net)] = [⟨2, 0⟩, ⟨1, 0⟩] ∧ t.waits[(4 : Net)] = ⟨4, 0⟩ :: (eight 3).dropLast
      ∧ t.talk[(3 : Station)][(0 : Key)] = .refused ∧ t.talk[(4 : Station)][(0 : Key)] = .wait
      ∧ t.talk[(1 : Station)][(0 : Key)] = .live := by decide +kernel

theorem test_meets_PressJoinsTheQueueOrIsRefused :
    let a (ws : List Hold) : Arbiter := listed [⟨0, 0⟩, ⟨1, 0⟩] ws
    classes.nets[(4 : Net)].slots ≤ (a []).holders[(4 : Net)].length
      ∧ (∀ x ∈ (a []).holders[(4 : Net)], classes.clsOf ⟨2, 0⟩ ≤ classes.clsOf x)
      ∧ (a (eight 3).dropLast).waits[(4 : Net)].length < 8
      ∧ (a (eight 3)).waits[(4 : Net)] = (eight 3).dropLast ++ [⟨3, 0⟩] ∧ 7 ≤ (eight 3).dropLast.length
      ∧ classes.clsOf ⟨3, 0⟩ < classes.clsOf ⟨2, 0⟩
      ∧ (a (eight 5)).waits[(4 : Net)] = (eight 5).dropLast ++ [⟨5, 0⟩] ∧ classes.clsOf ⟨2, 0⟩ ≤ classes.clsOf ⟨5, 0⟩ := by
  decide +kernel

theorem test_meets_ReleaseByStanding :
    let a (ws : List Hold) : Arbiter := (listed [⟨0, 0⟩, ⟨1, 0⟩] ws).setTalk 0 0 .live
    Arbiter.init.talk[(0 : Station)][(0 : Key)] ≠ .live ∧ Arbiter.init.talk[(0 : Station)][(0 : Key)] ≠ .wait
      ∧ (Arbiter.init.setTalk 2 0 .wait).talk[(2 : Station)][(0 : Key)] = .wait
      ∧ (a []).talk[(0 : Station)][(0 : Key)] = .live ∧ ⟨0, 0⟩ ∈ (a []).holders[(4 : Net)]
      ∧ (∀ m : Net, m ≠ 4 → ⟨0, 0⟩ ∉ (a []).holders[m])
      ∧ (a []).holders[(4 : Net)].length ≤ classes.nets[(4 : Net)].slots ∧ (a []).waits[(4 : Net)] = []
      ∧ (a [⟨2, 0⟩]).waits[(4 : Net)] = ⟨2, 0⟩ :: []
      ∧ (a [⟨2, 0⟩]).holders[(4 : Net)].length = classes.nets[(4 : Net)].slots ∧ (⟨2, 0⟩ : Hold) ≠ ⟨0, 0⟩ := by
  decide +kernel

/-- 1.9: stations 5, 2, 8, 6 and 0 press on net 4 of two slots, 8 releases. -/
theorem test_worked_presses :
    let c (st : Station) (k : Nat) (b : Bank) : Bank := { b with stations := upd b.stations st fun r => { r with cls := k } }
    let b := c 5 0 (c 2 0 (c 8 1 (c 6 1 (c 0 3 { classes with stations := Bank.powerOn.stations }))))
    let t := ([⟨5, 1⟩, ⟨2, 1⟩, ⟨8, 1⟩, ⟨6, 1⟩, ⟨0, 1⟩] : List Hold).foldl (fun a h => a.placePress b 4 h) Arbiter.init
    let u := t.talkRelease b 8 1
    (t.holders[(4 : Net)].map (·.st), t.waits[(4 : Net)].map (·.st)) = ([8, 0], [6, 5, 2])
      ∧ (u.holders[(4 : Net)].map (·.st), u.waits[(4 : Net)].map (·.st)) = ([0, 6], [5, 2]) := by decide +kernel

/-- R18, R19: an announce standing REFUSED stays at a Take whose record had announce allowed clear before; one whose
record clears it becomes DROPPED. -/
theorem test_announce_at_a_take :
    let bank (b : Bool) : Bank := (onAir 5 5 (fun r => { r with annAllowed := b }) State.reset).live
    let a := Arbiter.init.setAnn 5 .refused
    (a.applyTake (bank false) (bank false)).ann[(5 : Station)] = .refused
      ∧ (a.applyTake (bank true) (bank false)).ann[(5 : Station)] = .dropped := by decide +kernel

/-- R11, R9: station 0 withdrawn from a net of two slots: the waiter takes its slot and becomes LIVE. -/
theorem test_withdrawal_refills :
    let t := (listed [⟨0, 0⟩, ⟨1, 0⟩] [⟨2, 0⟩, ⟨4, 0⟩]).withdraw classes 0 .isolated
    t.holders[(4 : Net)] = [⟨1, 0⟩, ⟨2, 0⟩] ∧ t.waits[(4 : Net)] = [⟨4, 0⟩]
      ∧ t.talk[(2 : Station)][(0 : Key)] = .live ∧ t.talk[(4 : Station)][(0 : Key)] = .off := by decide +kernel

/-- WithdrawalTakesTheStationOut, the Take that changes nothing: net 4 with a holder and no waiter. -/
theorem test_meets_WithdrawalTakesTheStationOut :
    let a := Arbiter.init.placePress panel5.live 4 ⟨5, 1⟩
    ∀ n : Net, a.holders[n].length ≤ panel5.live.nets[n].slots ∧ a.waits[n] = []
      ∧ (panel5.live.nets[n].enabled = false → a.holders[n] = [] ∧ a.waits[n] = [] ∧ a.calls[n] = .idle)
      ∧ (∀ h ∈ a.entries n, (panel5.live.cell h.st n).key = some h.key) ∧ a.calls[n] = .idle := by decide +kernel

theorem test_meets_CallsAndAnnounce :
    panel5.pressNet 5 1 = some 4 ∧ panel5.mute 5 = .none ∧ panel5.pressNet 5 2 = none
      ∧ (muted5 .latched .off).mute 5 ≠ .none ∧ (muted5 .latched .off).rekeys 5 = false
      ∧ (panel5.modArb (·.setCall 4 (.calling 5 1))).arb.calls[(4 : Net)] = .calling 5 1
      ∧ panel5.arb.calls[(4 : Net)] = .idle ∧ (panel5.net 3).enabled = false ∧ (panel5.net 4).enabled = true
      ∧ State.reset.announceChecked 5 = false ∧ panel5.announceChecked 5 = true
      ∧ (muted5 .latched .off).announceChecked 5 = true
      ∧ (muted5 .rekey .off).announceChecked 5 = true ∧ (muted5 .rekey .off).rekeys 5 = true := by decide +kernel

/-- R16: a channel held by a lower class is taken, and its holder refused; one held by the same class is not, nor by its
own holder (notes/assumptions/39.md). -/
theorem test_announce :
    let t := (Arbiter.init.announceTake classes 2).announceTake classes 1
    let u := t.announceTake classes 1
    t.announce = some 1 ∧ t.ann[(2 : Station)] = .refused ∧ t.ann[(1 : Station)] = .inChannel
      ∧ (t.announceTake classes 4).announce = some 1 ∧ (t.announceTake classes 4).ann[(4 : Station)] = .refused
      ∧ u.announce = some 1 ∧ u.ann[(1 : Station)] = .refused := by decide +kernel

/-! Acknowledgement. -/

/-- Two entries with a target on lamp 1 of station 14: cue 31 GOING, cue 30 with its target LATE. -/
def acking : State :=
  let rec1 (c : CueIx) : State → State := cueOn c fun r => { r with targets := [(14, 1)] }
  { rec1 30 (rec1 31 (onAir 14 14 (fun r => { r with lampCount := 2 }) State.reset)) with
    cues := [entryOf 31 .going [.waiting], entryOf 30 .standby [.late]],
    lamps := { LampState.init with claims := [⟨31, 0, 14, 1, .go⟩, ⟨30, 0, 14, 1, .late⟩] } }

theorem claimsOk_acking : ClaimsOk acking := claimsOk_of (by decide +kernel) (by decide +kernel) (by decide +kernel)

theorem test_meets_AcknowledgesReachOneTarget :
    (∀ s ∈ [acking], CueListOk s)
      ∧ (State.reset.station 14).enabled = false ∧ (acking.station 14).enabled = true ∧ (acking.station 14).kind ≠ .source
      ∧ acking.homing[(14 : Station)].state ≠ .isolated
      ∧ (∀ e ∈ acking.cues, (14, 0) ∉ (acking.cueRec e.cue).targets)
      ∧ acking.cues = [entryOf 31 .going [.waiting]] ++ entryOf 30 .standby [.late] :: []
      ∧ (acking.cueRec 30).targets[0]? = some (14, 1) ∧ (entryOf 30 .standby [.late]).targets[0]? = some .late
      ∧ (∀ e ∈ [entryOf 31 .going [.waiting]], e.state = .going) := by
  refine ⟨?_, ?_⟩
  · unfold CueListOk; decide +kernel
  · decide +kernel

theorem test_meets_AcknowledgesReachOneTarget_stray :
    ∀ e ∈ acking.cues, e.state ≠ .going → ∀ i : Nat, (acking.cueRec e.cue).targets[i]? = some (14, 0) →
      e.targets[i]? ≠ some .waiting ∧ e.targets[i]? ≠ some .late := by
  intro e he _ i hi
  have h : ∀ e ∈ acking.cues, (14, 0) ∉ (acking.cueRec e.cue).targets := test_meets_AcknowledgesReachOneTarget.2.2.2.2.2.1
  exact absurd (List.mem_of_getElem? hi) (h e he)

/-- R79, R80: the LATE target of the entry that is not GOING becomes ACKED_LATE, and its entry READY. -/
theorem test_ack :
    let t := ackEdge 14 1 acking
    t.cues.map (fun e => (e.cue, e.state, e.targets)) = [(31, .going, [.waiting]), (30, .ready, [.ackedLate])]
      ∧ t.lamps.claims = [⟨31, 0, 14, 1, .go⟩, ⟨30, 0, 14, 1, .ready⟩] := by decide +kernel

/-! Messages and arrivals. -/

/-- A queue of a number of reports and then of responses. -/
def outbound (reports responses : Nat) : Outbound :=
  ⟨List.replicate responses ⟨0x85, 0, 0, []⟩ ++ List.replicate reports ⟨0xC0, 0, 0, []⟩, false⟩

theorem test_meets_MessagesAreQueued :
    (outbound 31 0).queue.length < 32 ∧ 32 ≤ (outbound 1 31).queue.length
      ∧ (outbound 1 31).queue = List.replicate 31 ⟨0x85, 0, 0, []⟩ ++ ⟨0xC0, 0, 0, []⟩ :: []
      ∧ Message.isReport ⟨0xC0, 0, 0, []⟩ = true
      ∧ (∀ x ∈ List.replicate 31 (⟨0x85, 0, 0, []⟩ : Message), x.isReport = false)
      ∧ 32 ≤ (outbound 0 32).queue.length ∧ (∀ x ∈ (outbound 0 32).queue, x.isReport = false)
      ∧ (outbound 31 0).putResponse ⟨0x86, 0, 0, []⟩ ≠ none ∧ (outbound 0 32).putResponse ⟨0x86, 0, 0, []⟩ = none := by
  decide +kernel

/-- A request queue of `n` requests. -/
def queued (n : Nat) : State := State.reset.modMgmt fun g => { g with queue := List.replicate n (req .heartbeat) }

theorem test_meets_ArrivingRequestsAreJudged :
    decodeRequest 0x19 [] = none ∧ decodeRequest 0x05 [1] = none ∧ decodeRequest 0x05 [] = some .take
      ∧ State.reset.isMgmt 1 = false ∧ (queued 16).isMgmt 0 = true ∧ 16 ≤ (queued 16).mgmt.queue.length
      ∧ (queued 15).isMgmt 0 = true ∧ (queued 15).mgmt.queue.length < 16 := by decide +kernel

/-- ArrivingRequestsAreJudged, the reading of bodies: entries that fit their count, that do not, and of no known type; and
bodies read at their ends. -/
theorem test_meets_ArrivingRequestsAreJudged_bodies :
    let w (et cnt : Byte) (k : Nat) : Option Request := decodeRequest 0x02 (et :: cnt :: List.replicate k 0)
    [w 1 1 15, w 2 2 8, w 3 8 24, w 4 1 32, w 4 0 0] = [some (.writeEntries 1 1 (List.replicate 15 0)),
        some (.writeEntries 2 2 (List.replicate 8 0)), some (.writeEntries 3 8 (List.replicate 24 0)),
        some (.writeEntries 4 1 (List.replicate 32 0)), some (.writeEntries 4 0 [])]
      ∧ [w 4 1 31, w 0 0 0, w 5 0 0, decodeRequest 0x02 [1], decodeRequest 0 [], decodeRequest 0x0D [1]] = List.replicate 6 none
      ∧ decodeRequest 0x0E [7, 2] = some (.go (.index 7) true) ∧ decodeRequest 0x0D [7, 1] = some (.standby .next)
      ∧ decodeRequest 0x04 [1, 0x34, 0x12] = some (.windowClose (some 0x1234))
      ∧ decodeRequest 0x04 [0, 0x34, 0x12] = some (.windowClose none) := by decide +kernel

/-- R169, at the ends of a declared length: 3 and 61 end the area, 4 and 60 do not; nor does a message that ends it
exactly, but one a byte longer does. -/
theorem test_area :
    let n (l : List Byte) : Nat := (parseArea l.length l).length
    let one (len : Byte) (k : Nat) : List Byte := [0x05, 1, len, 0] ++ List.replicate k 0
    [n [0x05, 1, 4], n (one 3 0), n (one 4 0), n (one 5 0), n (one 60 56), n (one 61 57), n (one 60 55), n (one 4 0 ++ one 4 0)]
      = [0, 0, 1, 0, 1, 0, 0, 2] := by decide +kernel

/-! Requests. -/

/-- Any request stands at the head, ready to be served, of a part with no service, window or meter running. -/
theorem serves_asked (r : Request) {s : State} (h1 : s.resetLine = false) (h2 : s.mgmt.service = .idle)
    (h3 : s.auth.window = none) (h4 : s.mgmt.meter = none) : Serves (asked r s) (req r) :=
  ⟨h1, h2, rfl, fun w h => by simp [asked, h3] at h, fun m h => by simp [asked, h4] at h⟩

theorem serves_reset (r : Request) : Serves (asked r State.reset) (req r) := serves_asked r rfl rfl rfl rfl

theorem serves_holder (r : Request) : Serves (asked r (holding State.reset)) (req r) := serves_asked r rfl rfl rfl rfl

/-- The result code of the answer a request command gives to port 0. -/
def answered (c : Instr) (r : Request) (s : State) : Option Byte :=
  ((after (exec c (asked r s))).out[(0 : Port)].queue.getLast?).map (·.code)

/-- A result as `answered` gives it. -/
def gives (r : Result) : Option Byte := some (byteOf r.code)

/-- A window of port `p` on table `T`. -/
def opened (p : Port) (T : Table) (check : Bool) (s : State) : State :=
  s.modMgmt fun g => { g with window := some ⟨p, T, false, 0, 1, check, 0, 0xFFFF⟩ }

/-- WindowOpenAndCloseServed: each table at its last index and one past it, first above last, and no table. -/
theorem test_window_open :
    let o (t f0 f1 l0 l1 : Byte) := answered .windowOpen (.windowOpen t 0 f0 f1 l0 l1) State.reset
    [o 1 0 0 23 0, o 2 15 0 15 0, o 3 0 0 23 15, o 4 0 0 255 0] = List.replicate 4 (gives .ok)
      ∧ [o 1 0 0 24 0, o 2 0 0 16 0, o 3 0 0 24 0, o 3 0 0 0 16, o 1 3 0 2 0, o 0 0 0 0 0, o 5 0 0 0 0]
        = List.replicate 7 (gives .badValue) := by decide +kernel

theorem test_meets_WindowOpenAndCloseServed :
    Serves (asked (.windowClose none) (opened 0 .cues true State.reset)) (req (.windowClose none))
      ∧ Serves (asked (.windowClose none) (opened 1 .cues true State.reset)) (req (.windowClose none))
      ∧ (opened 0 .cues true State.reset).mgmt.window = some ⟨0, .cues, false, 0, 1, true, 0, 0xFFFF⟩
      ∧ (1 : Port) ≠ (req (.windowClose none)).port ∧ State.reset.mgmt.window = none
      ∧ tableOf? 0 = none ∧ tableOf? 1 = some .stations ∧ tableOf? 2 = some .nets ∧ tableOf? 3 = some .matrix
      ∧ tableOf? 4 = some .cues :=
  ⟨serves_asked _ rfl rfl rfl rfl, serves_asked _ rfl rfl rfl rfl, rfl, by decide, rfl, rfl, rfl, rfl, rfl, rfl⟩

/-- R176: the answers of a Window Close. -/
theorem test_window_close :
    let c (e : Option Word) (s : State) := answered .windowClose (.windowClose e) s
    c none State.reset = gives .noWindow ∧ c none (opened 1 .nets false State.reset) = gives .noWindow
      ∧ c none (opened 0 .nets true State.reset) = gives .checkFail ∧ c none (opened 0 .nets false State.reset) = gives .ok
      ∧ c (some 0xFFFF) (opened 0 .nets true State.reset) = gives .ok
      ∧ c (some 0) (opened 0 .nets false State.reset) = gives .checkFail := by decide +kernel

theorem test_meets_WriteAndReadEntriesServed :
    Serves (asked .readEntries (opened 0 .nets true State.reset)) (req .readEntries)
      ∧ Serves (asked (.writeEntries 2 1 [1, 2, 0, 0, 0]) (opened 0 .nets true State.reset))
          (req (.writeEntries 2 1 [1, 2, 0, 0, 0]))
      ∧ (2 : Byte).toNat = Table.nets.code ∧ (2 : Byte).toNat ≠ Table.cues.code ∧ (if Table.nets = .matrix then 8 else 1) < 2
      ∧ 1 ≤ (if Table.nets = .matrix then 8 else 1) ∧ (entryLength 2).isSome
      ∧ (let w : Window := ⟨0, .nets, false, 0, 1, true, 2, 0⟩; w.last < w.first + w.advanced)
      ∧ (let w : Window := ⟨0, .nets, false, 0, 1, true, 1, 0⟩; w.first + w.advanced ≤ w.last) := by
  refine ⟨serves_asked _ rfl rfl rfl rfl, serves_asked _ rfl rfl rfl rfl, ?_⟩
  decide +kernel

/-- R175, R25, R26, R28, R60, R61: entries written and refused. -/
theorem test_write_entries :
    let w (T : Table) (t : Byte) (bs : List Byte) (s : State) :=
      (after (exec .writeEntries (asked (.writeEntries t 1 bs) (opened 0 T false s)))).out[(0 : Port)].queue.map (·.body)
    let st (p : Byte) : List Byte := [1, 2, p, 0xFF, 3, 0, 1, 0x40, 0, 0x20, 0, 0xE0, 0, 4, 64]
    let idle : State := State.reset
    w .stations 1 (st 7) idle = [[1, 0]] ∧ w .stations 1 (st 24) idle = [[1, byteOf Result.badValue.code]]
      ∧ w .stations 1 (st 5) (onAir 5 5 id idle) = [[1, byteOf Result.badValue.code]]
      ∧ w .matrix 3 [0, 1, 0] idle = [[1, 0]] ∧ w .matrix 3 [1, 1, 0] idle = [[1, byteOf Result.badValue.code]]
      ∧ w .cues 4 (encodeCue CueRecord.powerOn) idle = [[1, 0]]
      ∧ w .cues 4 (encodeCue CueRecord.powerOn) { idle with cues := [entryOf 0 .standby [.waiting]] }
        = [[1, byteOf Result.busy.code]] := by decide +kernel

/-- A Write Entries of no entry is answered OK (notes/assumptions/10.md). -/
theorem test_write_no_entry :
    Serves (asked (.writeEntries 2 0 []) (opened 0 .nets true State.reset)) (req (.writeEntries 2 0 []))
      ∧ (after (exec .writeEntries (asked (.writeEntries 2 0 []) (opened 0 .nets true State.reset)))).out[(0 : Port)].queue.map
          (fun m => (m.code, m.body)) = [(0, [0])] := by
  refine ⟨serves_asked _ rfl rfl rfl rfl, ?_⟩
  decide +kernel

/-- R23, R26, R27: fields at the ends of their ranges and past them; the number of an absent spare port is ignored. -/
theorem test_entry_ranges :
    let st (fl kd pp sp cl g1 lc th : Byte) := (decodeStation [fl, kd, pp, sp, cl, 0, g1, 0, 1, 0, 1, 0, 1, lc, th]).isSome
    let cell (l0 l1 k : Byte) := (decodeCell [l0, l1, k]).isSome
    [st 16 5 23 0 3 1 4 248, st 0 1 0 99 0 0 0 16, (decodeNet [3, 8, 0x10, 0x27]).isSome, (decodeNet [0, 1, 0, 0]).isSome,
        cell 0 1 3, cell 0 1 255] = List.replicate 6 true
      ∧ [st 16 5 23 23 3 1 4 248, st 16 5 23 24 3 1 4 248, st 0 6 0 0 0 0 0 16, st 0 0 0 0 0 0 0 16, st 0 1 24 0 0 0 0 16,
          st 0 1 0 0 4 0 0 16, st 0 1 0 0 0 2 0 16, st 0 1 0 0 0 0 5 16, st 0 1 0 0 0 0 0 8, st 0 1 0 0 0 0 0 20,
          (decodeNet [0, 0, 0, 0]).isSome, (decodeNet [0, 9, 0, 0]).isSome, (decodeNet [0, 1, 50, 0]).isSome,
          (decodeNet [0, 1, 0x74, 0x27]).isSome, cell 1 1 0, cell 0 1 4, cell 0 1 254] = List.replicate 17 false := by
  decide +kernel

/-- R58, R60: the same for a cue record of index 7. -/
theorem test_cue_ranges :
    let cue (fl w0 w1 pt dp ap gp : Byte) (ad gh : Nat) (fc : Byte) (fd : Nat) (cn tc : Byte) (ts : List Byte) :=
      (decodeCue 7 ([fl, w0, w1, pt, dp, ap, gp] ++ le16 ad ++ le16 gh ++ [fc] ++ le16 fd ++ [cn, tc] ++ ts)).isSome
    let ok (fl fc : Byte) (fd : Nat) (cn tc : Byte) (ts : List Byte) := cue fl 0x0F 0x27 9 7 3 2 30000 5000 fc fd cn tc ts
    [ok 15 8 60000 15 1 [23, 3], ok 0 7 60001 16 2 [0, 0, 0, 1], cue 0 0 0 0 0 1 1 0 100 0 0 0 1 [0, 0]] = List.replicate 3 true
      ∧ [ok 4 7 0 0 1 [0, 0], ok 4 8 60001 0 1 [0, 0], ok 8 0 0 16 1 [0, 0], ok 0 0 0 0 0 [], ok 0 0 0 0 9 (List.range 18 |>.map byteOf),
          ok 0 0 0 0 1 [24, 0], ok 0 0 0 0 1 [0, 4], ok 0 0 0 0 2 [0, 0, 0, 0], ok 0 0 0 0 2 [0, 0, 1],
          cue 0 0x10 0x27 0 0 1 1 0 100 0 0 0 1 [0, 0], cue 0 0 0 10 0 1 1 0 100 0 0 0 1 [0, 0], cue 0 0 0 0 8 1 1 0 100 0 0 0 1 [0, 0],
          cue 0 0 0 0 0 4 1 0 100 0 0 0 1 [0, 0], cue 0 0 0 0 0 1 3 0 100 0 0 0 1 [0, 0], cue 0 0 0 0 0 1 1 30001 100 0 0 0 1 [0, 0],
          cue 0 0 0 0 0 1 1 0 99 0 0 0 1 [0, 0], cue 0 0 0 0 0 1 1 0 5001 0 0 0 1 [0, 0]] = List.replicate 17 false := by
  decide +kernel

theorem test_meets_TakeAndRevertServed :
    Serves (asked .take State.reset) (req .take) ∧ Serves (asked .revert State.reset) (req .revert) :=
  ⟨serves_reset _, serves_reset _⟩

/-- R31, R36. -/
theorem test_take_and_revert :
    (after (exec .take (asked .take State.reset))).takePending = some (.requester 0 0x11)
      ∧ answered .take .take { State.reset with unverified := true } = gives .unverified
      ∧ answered .take .take { State.reset with takePending := some (.cue 3) } = gives .busy
      ∧ answered .revert .revert { State.reset with takePending := some (.cue 3) } = gives .busy
      ∧ (after (exec .revert (asked .revert { State.reset with unverified := true }))).unverified = false := by
  decide +kernel

/-- R178: the ranges of a settings record, at their ends. -/
theorem test_settings :
    let w (pr hi lo : Byte) (step : Nat) (en : Byte) (mn mx : Nat) :=
      answered .settingsWrite (.settingsWrite pr hi lo step en mn mx) State.reset
    [w 23 16 15 256 1 1000 5000, w 255 2 0 1 0 50 200] = List.replicate 2 (gives .ok)
      ∧ [w 24 16 15 256 1 1000 5000, w 255 17 0 1 0 50 200, w 255 1 0 1 0 50 200, w 255 2 2 1 0 50 200, w 255 2 0 0 0 50 200,
          w 255 2 0 257 0 50 200, w 255 2 0 1 2 50 200, w 255 2 0 1 0 49 200, w 255 2 0 1 0 1001 5000, w 255 2 0 1 0 50 199,
          w 255 2 0 1 0 50 5001, w 255 2 0 1 0 200 200] = List.replicate 12 (gives .badValue) := by decide +kernel

theorem test_meets_SettingsWriteServed :
    Serves (asked (.settingsWrite 23 16 15 256 1 1000 5000) State.reset) (req (.settingsWrite 23 16 15 256 1 1000 5000)) :=
  serves_reset _

theorem test_meets_SetModeAndClearFaultsServed :
    (∀ cb mb, Serves (asked (.setMode cb mb) State.reset) (req (.setMode cb mb)))
      ∧ Serves (asked .clearFaults State.reset) (req .clearFaults)
      ∧ faultClassOf? 0 = none ∧ faultClassOf? 6 = none ∧ modeOf? 0 = none ∧ modeOf? 6 = none
      ∧ faultClassOf? 1 = some .link ∧ modeOf? 1 = some .latched ∧ permits .link .latched = true
      ∧ permits .link .rekey = false ∧ faultClassOf? 2 = some .overload ∧ permits .overload .rekey = true
      ∧ faultClassOf? 3 = some .desk ∧ permits .desk .warn = true ∧ faultClassOf? 4 = some .cue ∧ permits .cue .off = true
      ∧ faultClassOf? 5 = some .clip ∧ permits .clip .warn = true :=
  ⟨fun _ _ => serves_reset _, serves_reset _, by decide +kernel⟩

/-- R166, R167: after power-on the RESET flag stands until a Clear Faults, and a Set Mode leaves it. -/
theorem test_clear_faults :
    (after (exec .clearFaults (asked .clearFaults State.reset))).faults.resetFlag = false
      ∧ (after (exec .setMode (asked (.setMode 3 5) State.reset))).faults.resetFlag = true
      ∧ (after (exec .setMode (asked (.setMode 3 5) State.reset))).faults.modes.desk = .off
      ∧ answered .setMode (.setMode 1 3) State.reset = gives .badValue := by decide +kernel

/-- Station 8 with its primary's condition present, or absent, and its mark set; station 3 over, muted or warned. -/
def faulted (cond : Bool) : State :=
  let s := (linkedPair true id).modPort 8 fun u => { u with cond := cond, bucket := if cond then 70 else 0 }
  { s.modHoming 8 fun h => { h with primFailed := true } with
    faults := { s.faults with
      ports := upd s.faults.ports 8 fun f => { f with linkCond := cond, linkWarn := true },
      stations := upd s.faults.stations 3 fun f => { f with overCond := cond, overWarn := true, mute := .latched },
      cueWarn := true } }

/-- R166: a Clear Faults keeps what stands with its condition and clears what does not, the CUE warn flag with it. -/
theorem test_clear_faults_by_condition :
    let t (c : Bool) := after (exec .clearFaults (asked .clearFaults (faulted c)))
    let sees (c : Bool) := ((t c).homing[(8 : Station)].primFailed, (t c).faults.ports[(8 : Port)].linkWarn,
      (t c).faults.stations[(3 : Station)].overWarn, (t c).faults.stations[(3 : Station)].mute, (t c).faults.cueWarn)
    sees false = (false, false, false, .none, false) ∧ sees true = (true, true, true, .latched, false) := by decide +kernel

/-- R167: a Set Mode to WARN on LINK clears the mark and raises the warn flag of the condition present; on OVERLOAD it ends
the mute and warns. -/
theorem test_set_mode_evaluates :
    let t (c : Byte) := after (exec .setMode (asked (.setMode c 4) (faulted true)))
    ((t 1).homing[(8 : Station)].primFailed, (t 1).faults.ports[(8 : Port)].linkWarn, (t 1).faults.modes.link) = (false, true, .warn)
      ∧ ((t 2).faults.stations[(3 : Station)].mute, (t 2).faults.stations[(3 : Station)].overWarn) = (.none, true) := by
  decide +kernel

theorem test_meets_ClaimServed : Serves (asked (.claim true) State.reset) (req (.claim true)) := serves_reset _

/-- R115, R116: each answer of a Claim; port 0 UP, then DOWN, then no management port. -/
theorem test_claim :
    let up : State := State.reset.modPort 0 fun u => { u with up := true }
    let held (h : Port) (desk : Bool) : State :=
      { up.modPort 1 (fun u => { u with up := true }) with auth := ⟨some h, some .commissioning, none, desk⟩ }
    let c (f : Bool) (s : State) := ((after (exec .claim (asked (.claim f) s))).out[(0 : Port)].queue.find? (·.kind = 0x8A)).map
      fun m => (m.code, m.body)
    c false up = some (0, [0]) ∧ c false State.reset = some (byteOf Result.notAvailable.code, [0xFF])
      ∧ c false (onAir 5 5 (fun r => { r with mgmt := true }) up) = some (byteOf Result.noPermission.code, [0xFF])
      ∧ c false (up.modPortFaults 0 fun f => { f with deskLatched := true }) = some (byteOf Result.barred.code, [0xFF])
      ∧ c false (held 0 false) = some (0, [0]) ∧ c true (held 1 false) = some (byteOf Result.held.code, [1])
      ∧ c true (held 1 true) = some (0, [0]) := by decide +kernel

/-- Port 0 holds authority, supervised, its window at an elapsed time. -/
def supervised (m : Mode) (t : Nat) : State :=
  inMode .desk m { State.reset with auth := ⟨some 0, some .commissioning, some ⟨t, false⟩, false⟩ }

theorem serves_supervised (r : Request) (m : Mode) (t : Nat) : Serves (asked r (supervised m t)) (req r) :=
  ⟨rfl, rfl, rfl, fun w h => by simp only [asked, supervised, inMode, Option.some.injEq] at h; subst h; rfl, fun m h => by simp [asked, supervised, inMode, State.reset, Management.init] at h⟩

theorem test_meets_ReleaseAndHeartbeatServed :
    Serves (asked .release State.reset) (req .release) ∧ State.reset.auth.holder ≠ some 0
      ∧ Serves (asked .release (holding State.reset)) (req .release) ∧ (holding State.reset).auth.holder = some 0
      ∧ (holding State.reset).auth.window = none
      ∧ (∀ m t, Serves (asked .heartbeat (supervised m t)) (req .heartbeat))
      ∧ (supervised .warn 199).auth.window = some ⟨199, false⟩ ∧ 199 < (supervised .warn 199).mgmt.settings.supMin
      ∧ (supervised .latched 200).mgmt.settings.supMin ≤ 200 ∧ (supervised .latched 199).faults.modes.desk = .latched :=
  ⟨serves_reset _, by decide, serves_holder _, rfl, rfl, fun m t => serves_supervised _ m t, rfl, by decide, by decide, rfl⟩

/-- R122, R124: a heartbeat at the min interval is in time, and one below it early. -/
theorem test_heartbeat :
    answered .heartbeat .heartbeat (supervised .warn 200) = gives .ok
      ∧ answered .heartbeat .heartbeat (supervised .warn 199) = gives .early
      ∧ (after (exec .heartbeat (asked .heartbeat (supervised .latched 199)))).auth.holder = none := by decide +kernel

/-- Cue 3 enabled with one target, out of service; the pointer on it. -/
def show3 : State :=
  (cueOn 3 (fun r => { r with targets := [(5, 0)], ackPolicy := .none }) (holding State.reset)).modTable fun t => { t with pointer := 3 }

/-- The same with its target in service and waited for, and a call net. -/
def show3On : State :=
  onAir 5 5 (fun r => { r with lampCount := 1 })
    (cueOn 3 (fun r => { r with ackPolicy := .all, ackDeadline := 100, callNet := some 2 }) show3)

theorem test_meets_StandbyServed :
    (∀ r, Serves (asked r show3) (req r) ∧ Serves (asked r show3On) (req r)) ∧ ClaimsOk (asked (.standby .next) show3On)
      ∧ (State.reset.auth.holder ≠ some 0 ∧ show3.auth.holder = some 0)
      ∧ (show3.table.unverified = false ∧ show3.table.ended = false ∧ show3.table.pointer = 3)
      ∧ ((show3.cueRec 3).enabled = true ∧ (show3.cueRec 4).enabled = false ∧ (∀ x ∈ show3.cues, x.cue ≠ 3))
      ∧ show3.cues.length < 16 ∧ show3On.inService 5 0 = true ∧ show3.inService 5 0 = false
      ∧ (show3On.cueRec 3).targets[0]? = some (5, 0) := by
  refine ⟨fun r => ⟨serves_asked r rfl rfl rfl rfl, serves_asked r rfl rfl rfl rfl⟩, claimsOk_of ?_ ?_ ?_, ?_⟩
  all_goals decide +kernel

/-- R77: the answers of a Standby. -/
theorem test_standby :
    let c (ref : CueRef) (s : State) := answered .standby (.standby ref) s
    let full : State := { show3 with cues := (List.range 16).map fun i => entryOf (Fin.ofNat 256 (40 + i)) .ready [] }
    c .next State.reset = gives .noAuthority ∧ c .next (show3.modTable fun t => { t with unverified := true }) = gives .unverified
      ∧ c .next (show3.modTable fun t => { t with ended := true }) = gives .badValue ∧ c (.index 4) show3 = gives .badValue
      ∧ c .next show3 = gives .ok ∧ c .next { show3 with cues := [entryOf 3 .ready [.lost]] } = gives .active
      ∧ c .next full = gives .listFull ∧ c .next { full with cues := full.cues.tail } = gives .ok := by decide +kernel

/-- R78: a target in service waits with a STANDBY lamp and its deadline runs; one out of service is LOST. -/
theorem test_standby_entry :
    let t (s : State) := after (exec .standby (asked (.standby .next) s))
    (t show3On).cues.map (fun e => (e.state, e.targets, e.deadline)) = [(.standby, [.waiting], .running 100)]
      ∧ (t show3On).lamps.shown 5 0 = .standby
      ∧ (t show3).cues.map (fun e => (e.state, e.targets, e.deadline)) = [(.ready, [.lost], .none)] := by decide +kernel

/-- Cue 3 in the list in a state. -/
def active3 (es : EntryState) (s : State) : State := { s with cues := [entryOf 3 es [.waiting]] }

/-- The same with its claim, and a follow of 50 ms to cue 4. -/
def claimed3 : State :=
  cueOn 3 (fun r => { r with follow := some (4, 50) }) (cueOn 4 id
    { active3 .standby show3On with lamps := { LampState.init with claims := [⟨3, 0, 5, 0, .standby⟩] } })

theorem claimsOk_claimed3 : ClaimsOk claimed3 := claimsOk_of (by decide +kernel) (by decide +kernel) (by decide +kernel)

theorem test_meets_GoServed :
    (∀ r es, Serves (asked r (active3 es show3On)) (req r)) ∧ (∀ r es, CueListOk (asked r (active3 es show3On)))
      ∧ ClaimsOk claimed3 ∧ (active3 .standby show3On).auth.holder = some 0 ∧ (show3On.cueRec 3).goPolicy = .strict
      ∧ (∀ es, ((active3 es show3On).entry 3).map (·.state) = some es) ∧ show3On.entry 3 = none
      ∧ (show3On.table.ended = false ∧ show3On.table.pointer = 3)
      ∧ (∀ d : CueIx, 3 < d → (show3On.cueRec d).enabled = false)
      ∧ (show3On.cueRec 3).follow = none ∧ (claimed3.cueRec 3).follow = some (4, 50)
      ∧ (claimed3.cueRec 3).targets[0]? = some (5, 0) := by
  refine ⟨fun r es => serves_asked r rfl rfl rfl rfl, fun r es => ⟨?_, ?_, ?_⟩, ?_⟩
  · show 1 ≤ 16; decide
  · simp [asked, active3]
  · intro e he
    have : e = entryOf 3 es [.waiting] := by simpa [asked, active3] using he
    subst this
    show 1 = (show3On.cueRec 3).targets.length
    decide +kernel
  · refine ⟨claimsOk_claimed3, ?_, ?_, fun es => by cases es <;> rfl, ?_⟩
    all_goals decide +kernel

/-- R84: the answers of a GO; R68: the pointer reaches the end. -/
theorem test_go :
    let c (ref : CueRef) (f : Bool) (s : State) := answered .go (.go ref f) s
    c .next false State.reset = gives .noAuthority ∧ c .next false show3On = gives .notActive
      ∧ c .next false (show3On.modTable fun t => { t with ended := true }) = gives .badValue
      ∧ c .next false (active3 .going show3On) = gives .alreadyGone ∧ c .next false (active3 .standby show3On) = gives .notReady
      ∧ c .next true (active3 .standby show3On) = gives .ok ∧ c .next false (active3 .ready show3On) = gives .ok
      ∧ (after (exec .go (asked (.go .next true) (active3 .standby show3On)))).table.ended = true
      ∧ (after (exec .go (asked (.go .next true) (active3 .standby show3On)))).lamps.shown 5 0 = .go := by decide +kernel

/-- R86: a forced GO of a cue with a follow: its claim becomes GO, and the follow enters cue 4. -/
theorem test_go_follow :
    let t := after (exec .go (asked (.go .next true) claimed3))
    t.cues.map (fun e => (e.cue, e.state, e.forced)) = [(3, .going, true), (4, .countdown, false)]
      ∧ t.lamps.claims.map (fun x => (x.cue, x.rank)) = [(3, .go)]
      ∧ t.out[(0 : Port)].queue.map (·.kind) = [0xC9, 0xC4, 0xCC, 0x8E] := by decide +kernel

theorem test_meets_CancelAndCancelAllServed :
    (∀ r es, Serves (asked r (active3 es show3On)) (req r)) ∧ show3On.entry 4 = none
      ∧ CueListOk (asked .cancelAll (active3 .standby show3On)) :=
  ⟨test_meets_GoServed.1, by decide +kernel, test_meets_GoServed.2.1 _ _⟩

/-- R89, R90. -/
theorem test_cancel :
    let c (s : State) := answered .cancel (.cancel 3) s
    c State.reset = gives .noAuthority ∧ c show3On = gives .notActive ∧ c (active3 .going show3On) = gives .alreadyGone
      ∧ c (active3 .standby show3On) = gives .ok
      ∧ (after (exec .cancel (asked (.cancel 3) (active3 .standby show3On)))).cues = []
      ∧ (after (exec .cancelAll (asked .cancelAll { show3On with cues := [entryOf 3 .going [], entryOf 7 .ready []] }))).cues
        = [entryOf 3 .going []] := by decide +kernel

theorem test_meets_SetRegionAndSetPointerServed :
    (∀ r, Serves (asked r show3) (req r)) ∧ show3.auth.holder = some 0 ∧ show3.cues = []
      ∧ ((0 < 1) ∨ 256 < 0 + 0) ∧ 256 < 1 + 256 ∧ 1 ≤ 256 ∧ 0 + 256 ≤ 256 ∧ (show3.cueRec 3).enabled = true
      ∧ (∀ d : CueIx, d < 3 → (show3.cueRec d).enabled = false)
      ∧ (∀ c : CueIx, 4 ≤ c.val → c.val < 4 + 252 → (show3.cueRec c).enabled = false)
      ∧ show3.table.fixedSize ≤ 3 ∧ 3 < show3.table.fixedSize + show3.table.seqSize := by
  refine ⟨fun r => serves_asked r rfl rfl rfl rfl, ?_⟩
  decide +kernel

/-- R64, R69: at the ends of their ranges. -/
theorem test_set_region_and_pointer :
    let g (F L : Nat) (s : State) := answered .setRegion (.setRegion F L) s
    let p (r : PointerRef) (s : State) := answered .setPointer (.setPointer r) s
    let region (F L : Nat) := (after (exec .setRegion (asked (.setRegion F L) show3))).table
    g 0 256 State.reset = gives .noAuthority ∧ g 0 0 show3 = gives .badValue ∧ g 1 256 show3 = gives .badValue
      ∧ g 0 256 (active3 .ready show3) = gives .busy ∧ g 0 256 show3 = gives .ok
      ∧ ((region 0 256).pointer, (region 0 256).ended) = (3, false) ∧ ((region 4 252).pointer, (region 4 252).ended) = (4, true)
      ∧ p .toEnd show3 = gives .ok ∧ p (.index 3) show3 = gives .ok ∧ p (.index 4) show3 = gives .badValue
      ∧ p .next show3 = gives .ok ∧ p .next (show3.modTable fun t => { t with ended := true }) = gives .badValue := by
  decide +kernel

theorem test_meets_RestoreAndLampTestServed :
    (∀ r, Serves (asked r (restoring false)) (req r) ∧ Serves (asked r show3On) (req r))
      ∧ 24 ≤ (24 : Byte).toNat ∧ (8 : Byte).toNat = (8 : Station).val
      ∧ ((restoring false).station 8).enabled = true ∧ (restoring false).homing[(8 : Station)].state = .onSpare
      ∧ (restoring false).clean 8 8 = true ∧ (restoring true).clean 8 8 = false
      ∧ (show3On.station 5).enabled = true ∧ (show3On.station 5).kind ≠ .source ∧ (show3On.station 5).lampCount ≠ 0
      ∧ (5 : Byte).toNat = (5 : Station).val := by
  refine ⟨fun r => ⟨serves_asked r rfl rfl rfl rfl, serves_asked r rfl rfl rfl rfl⟩, ?_⟩
  decide +kernel

/-- R103, R151: the answers at the ends of the range. -/
theorem test_restore_and_lamp_test :
    let rs (b : Byte) (s : State) := (after (exec .restoreStation (asked (.restoreStation b) s))).out[(0 : Port)].queue.map (·.code)
    let lt (b : Byte) (s : State) := (after (exec .lampTest (asked (.lampTest b) s))).out[(0 : Port)].queue.map (·.code)
    let t := after (exec .lampTest (asked (.lampTest 5) show3On))
    rs 24 State.reset = [byteOf Result.badValue.code] ∧ rs 23 State.reset = [byteOf Result.notAvailable.code]
      ∧ rs 8 (restoring false) = [0] ∧ lt 24 show3On = [byteOf Result.badValue.code]
      ∧ lt 23 show3On = [byteOf Result.notAvailable.code] ∧ lt 5 show3On = [0]
      ∧ t.lamps.shown 5 0 = .test ∧ t.lamps.shown 5 1 = .off ∧ t.lamps.timer[(5 : Station)] = some 3000 := by decide +kernel

theorem test_meets_MeterRequestsServed :
    (∀ r, Serves (asked r State.reset) (req r)) ∧ meterPointOf? 0 0 = none ∧ meterPointOf? 5 0 = none
      ∧ meterPointOf? 1 24 = none ∧ meterPointOf? 1 23 = some (.inputSlot 23) ∧ meterPointOf? 2 16 = none
      ∧ meterPointOf? 2 15 = some (.netSum 15) ∧ meterPointOf? 3 23 = some (.listen 23) ∧ meterPointOf? 3 24 = none
      ∧ meterPointOf? 4 0 = some .programme ∧ State.reset.mgmt.meter = none :=
  ⟨serves_reset, by decide +kernel⟩

/-- R180: a Meter Start out of range leaves a running measurement; one in range aborts it, with a report; a Stop does not
report. -/
theorem test_meter :
    let r (c : Instr) (q : Request) := (after (exec c (asked q (metering false 3)))).out[(0 : Port)].queue.map fun m => (m.kind, m.tag)
    r .meterStart (.meterStart 1 0 1) = [(0xE9, 7), (0x95, 0x11)] ∧ r .meterStart (.meterStart 1 0 3) = [(0x95, 0x11)]
      ∧ r .meterStop .meterStop = [(0x96, 0x11)]
      ∧ (after (exec .meterStop (asked .meterStop (metering false 3)))).mgmt.meter = none := by decide +kernel

theorem noneDue_asked (r : Request) : NoneDue (asked r State.reset) := by
  intro d
  have h := noneDue_reset d
  cases d <;> exact h

theorem test_meets_GetStatusAndSoftResetServed :
    (∀ r, Serves (asked r State.reset) (req r) ∧ NoneDue (asked r State.reset))
      ∧ Calm (State.reset.modMgmt fun g => { g with service := .resetOk 0 })
      ∧ statusItemOf? 5 0 = none ∧ statusItemOf? 1 24 = none ∧ (statusItemOf? 1 23).isSome ∧ (statusItemOf? 2 23).isSome
      ∧ statusItemOf? 3 16 = none ∧ (statusItemOf? 3 15).isSome ∧ (statusItemOf? 4 255).isSome ∧ (statusItemOf? 0 0).isSome
      ∧ (State.reset.modMgmt fun g => { g with service := .resetOk 0 }).mgmt.service = .resetOk 0
      ∧ State.reset.entry 30 = none ∧ lateCue.cues = [] ++ { entryOf 30 .standby [.waiting, .acked] with deadline := .running 0 } :: [entryOf 31 .ready [.acked]] :=
  ⟨fun r => ⟨serves_reset r, noneDue_asked r⟩, ⟨rfl, rfl⟩, by decide +kernel⟩

/-- R179, R181. -/
theorem test_status_and_soft_reset :
    answered .getStatus (.getStatus 5 0) State.reset = gives .badValue ∧ answered .getStatus (.getStatus 0 0) State.reset = gives .ok
      ∧ answered .getStatus (.getStatus 1 23) State.reset = gives .ok
      ∧ (after (exec .softReset (asked .softReset State.reset))).mgmt.service = .resetOk 0
      ∧ (after (exec .softReset (asked .softReset State.reset))).out[(0 : Port)].queue = [⟨0x98, 0x11, 0, []⟩] := by decide +kernel

/-- R168, R186: after power-on the summary of port 0 shows RESET alone; a mute shows FAULT, and on the station's own view
OVERLOAD. -/
theorem test_views :
    State.reset.managementView 0 = 0x40 ∧ (muted5 .latched .off).managementView 0 = 0x41
      ∧ (muted5 .latched .off).stationView 5 = 0x03 ∧ (muted5 .latched .off).stationView 6 = 0x01 := by decide +kernel

/-- R184: the length of each status. -/
theorem test_status_lengths :
    ([.device, .port 3, .station 5, .net 4, .cue 3, .cue 9] : List StatusItem).map
      (fun i => ((active3 .standby show3On).statusBytes 0 i).length) = [46, 6, 30, 43, 50, 50] := by decide +kernel

/-! Invariants: a state that has each and steps. -/

/-- A panel on air with a command waiting. -/
def onTheAir : State := { panel5 with pending := [.resetLineAssert] }

theorem test_steps : step onTheAir = .next { panel5 with resetLine := true } := rfl

theorem test_meets_QueuesKeepTheirBounds : RequestRoom onTheAir ∧ OutboundRoom onTheAir ∧ HoldOk onTheAir := by
  refine ⟨?_, ?_, ?_⟩
  · unfold RequestRoom; decide +kernel
  · unfold OutboundRoom; decide +kernel
  · unfold HoldOk SettingsOk; decide +kernel

theorem test_meets_CueListAndPointerAreKept :
    CueListOk onTheAir ∧ PointerOk onTheAir ∧ CueListOk lateCue ∧ ClaimsOk lateCue ∧ step lateCue = .next lateCue := by
  refine ⟨?_, ?_, ?_, claimsOk_lateCue, rfl⟩
  · unfold CueListOk; decide +kernel
  · unfold PointerOk; decide +kernel
  · unfold CueListOk; decide +kernel

theorem test_meets_RangesAreKept :
    PortsOk onTheAir ∧ DucksOk onTheAir ∧ AuthorityOk onTheAir ∧ CondsOk rising ∧ CondsOk onTheAir := by
  refine ⟨?_, ?_, ?_, condsOk_rising, ?_⟩
  · unfold PortsOk PortUnit.Ok; decide +kernel
  · unfold DucksOk DepthsOk; decide +kernel
  · unfold AuthorityOk; decide +kernel
  · unfold CondsOk ThresholdsOk; decide +kernel

theorem test_meets_BanksKeepTheirRules : BanksOk onTheAir := by
  have only (st : Station) (h : panel5.live.stations[st].enabled = true) : st = 5 := by revert st; decide +kernel
  have level (st : Station) (n : Net) : (panel5.live.cell st n).level = 0 := by revert st n; decide +kernel
  have key (st : Station) (n : Net) (k : Key) (h : (panel5.live.cell st n).key = some k) : n = 4 := by
    revert st n k; decide +kernel
  have apart : panel5.live.portsApart := fun st t h h' hne => absurd ((only st h).trans (only t h').symm) hne
  have rows : panel5.live.rowsOk := fun st =>
    ⟨by simp [level], fun n m k h h' => (key st n k h).trans (key st m k h').symm⟩
  exact ⟨apart, rows, apart, rows⟩

theorem test_meets_HomingFollowsTheRecords : HomingOk onTheAir := by
  have state (st : Station) : panel5.homing[st].state = .onPrimary := by revert st; decide +kernel
  have rest (st : Station) : panel5.homing[st].spareFailed = false ∧ panel5.homing[st].switchRem = none
      ∧ panel5.homing[st].primFailed = false ∧ panel5.homing[st].restorePending = false
      ∧ panel5.homing[st].active = if (panel5.station st).enabled then some (panel5.station st).primary else none := by
    revert st; decide +kernel
  intro st
  obtain ⟨h1, h2, h3, h4, h5⟩ := rest st
  show HomingFits (panel5.station st) panel5.homing[st]
  unfold HomingFits
  rw [state st, h1, h2, h3, h4, h5]
  split <;> simp

/-- The same part with authority held COMMISSIONING, and station 8 with authority held through it. -/
theorem test_meets_HomingFollowsTheRecords_holder :
    (let s : State := { onTheAir with auth := ⟨some 0, some .commissioning, none, false⟩ }
     BanksOk s ∧ HomingOk s ∧ AuthorityOk s ∧ HolderOk s)
      ∧ HolderOk onTheAir ∧ HolderOk { paired id with auth := ⟨some 8, some (.station 8), none, false⟩ } := by
  refine ⟨⟨test_meets_BanksKeepTheirRules, test_meets_HomingFollowsTheRecords, ?_, ?_⟩, trivial, ?_⟩
  · unfold AuthorityOk; decide +kernel
  · show _ ∧ _; decide +kernel
  · show _ ∧ _ ∧ _; decide +kernel

/-- Key 1 of station 5 holds a slot on net 4. -/
def live5 : State := { panel5 with arb := panel5.arb.placePress panel5.live 4 ⟨5, 1⟩, pending := [.resetLineAssert] }

theorem test_meets_TalkListsKeepTheirBounds : TalkListsOk onTheAir ∧ TalkListsOk live5 ∧ live5.arb.Agrees live5.live := by
  refine ⟨?_, ?_, ?_⟩
  · unfold TalkListsOk; decide +kernel
  · unfold TalkListsOk; decide +kernel
  · unfold Arbiter.Agrees; decide +kernel

/-- R2: a second press of a key that holds a slot changes nothing. -/
theorem test_second_press :
    live5.arb.talk[(5 : Station)][(1 : Key)] = .live ∧ (talkPress 5 1 live5).arb.holders[(4 : Net)] = [⟨5, 1⟩] := by
  decide +kernel

end Sys2Proof.Tests
end

section
/-! The talk arbiter's presses (R7, R8) and its resets (R1): rules for the arbiter's updates, facts about the victim, the
wait queue and a placed press, and the statements they settle. -/

namespace Sys2Proof.Machine

/-! The arbiter's updates: what each leaves unchanged, and what a list reads after it is replaced. -/

@[simp] theorem Arbiter.setTalk_holders (a : Arbiter) (st : Station) (k : Key) (v : Standing) :
    (a.setTalk st k v).holders = a.holders := rfl
@[simp] theorem Arbiter.setTalk_waits (a : Arbiter) (st : Station) (k : Key) (v : Standing) :
    (a.setTalk st k v).waits = a.waits := rfl
@[simp] theorem Arbiter.setHolders_waits (a : Arbiter) (n : Net) (l : List Hold) :
    (a.setHolders n l).waits = a.waits := rfl
@[simp] theorem Arbiter.setWaits_holders (a : Arbiter) (n : Net) (l : List Hold) :
    (a.setWaits n l).holders = a.holders := rfl

theorem Arbiter.setHolders_get (a : Arbiter) (n : Net) (l : List Hold) : (a.setHolders n l).holders[n] = l := by
  simp [Arbiter.setHolders]

theorem Arbiter.setWaits_get (a : Arbiter) (n : Net) (l : List Hold) : (a.setWaits n l).waits[n] = l := by
  simp [Arbiter.setWaits]

@[simp] theorem Arbiter.setHolders_twice (a : Arbiter) (n : Net) (l l' : List Hold) :
    (a.setHolders n l).setHolders n l' = a.setHolders n l' := by
  simp [Arbiter.setHolders]

@[simp] theorem Arbiter.setWaits_twice (a : Arbiter) (n : Net) (l l' : List Hold) :
    (a.setWaits n l).setWaits n l' = a.setWaits n l' := by
  simp [Arbiter.setWaits]

/-! One order of updates: standings innermost, then holder lists, then wait queues. -/

@[simp] theorem Arbiter.setTalk_setHolders (a : Arbiter) (n : Net) (l : List Hold) (st : Station) (k : Key) (v : Standing) :
    (a.setHolders n l).setTalk st k v = (a.setTalk st k v).setHolders n l := rfl
@[simp] theorem Arbiter.setTalk_setWaits (a : Arbiter) (n : Net) (l : List Hold) (st : Station) (k : Key) (v : Standing) :
    (a.setWaits n l).setTalk st k v = (a.setTalk st k v).setWaits n l := rfl
@[simp] theorem Arbiter.setHolders_setWaits (a : Arbiter) (n m : Net) (l l' : List Hold) :
    (a.setWaits n l).setHolders m l' = (a.setHolders m l').setWaits n l := rfl

/-! The victim (R7). -/

theorem victimOf_mem {b : Bank} {l : List Hold} {v : Hold} (h : victimOf b l = some v) : v ∈ l := by
  induction l with
  | nil => simp [victimOf] at h
  | cons x rest ih =>
    simp only [victimOf] at h
    split at h
    · exact Option.some.inj h ▸ List.mem_cons_self
    · next u hu =>
      split at h
      · exact Option.some.inj h ▸ List.mem_cons_self
      · exact List.mem_cons_of_mem x (ih (hu.trans h))

/-- A holder of lower class than every later one is the victim among itself and those. -/
theorem victimOf_cons_lowest {b : Bank} {v : Hold} {after : List Hold} (h : ∀ x ∈ after, b.clsOf v < b.clsOf x) :
    victimOf b (v :: after) = some v := by
  cases e : victimOf b after with
  | none => simp [victimOf, e]
  | some u => simp [victimOf, e, h u (victimOf_mem e)]

/-- The victim is the last of the holders of the lowest class: none earlier is of lower class, every later one is of
higher class. -/
theorem victimOf_eq_of_split {b : Bank} {v : Hold} {before after : List Hold}
    (hb : ∀ x ∈ before, b.clsOf v ≤ b.clsOf x) (ha : ∀ x ∈ after, b.clsOf v < b.clsOf x) :
    victimOf b (before ++ v :: after) = some v := by
  induction before with
  | nil => exact victimOf_cons_lowest ha
  | cons x rest ih =>
    have hx : ¬ b.clsOf x < b.clsOf v := Nat.not_lt.mpr (hb x List.mem_cons_self)
    have hrest : victimOf b (rest ++ v :: after) = some v := ih fun y hy => hb y (List.mem_cons_of_mem x hy)
    simp [victimOf, hrest, hx]

/-! The last waiter of a full queue (R7 step 2, R8). -/

theorem Arbiter.dropLastWaiter_concat {a : Arbiter} {n : Net} {q : List Hold} {w : Hold} (h : a.waits[n] = q ++ [w]) :
    a.dropLastWaiter n = (a.setTalk w.st w.key .refused).setWaits n q := by
  simp [Arbiter.dropLastWaiter, h]

/-! Pre-emption (R7). These proofs read a list at its net, so `Fin.getElem_fin`, which would read it at a number, is kept
out of `simp`. -/

theorem Arbiter.preempt_of_room {b : Bank} {n : Net} {v h : Hold} {a : Arbiter} (hw : a.waits[n].length < 8) :
    a.preempt b n v h =
      (((a.setTalk v.st v.key .wait).setTalk h.st h.key .live).setHolders n (a.holders[n].erase v ++ [h])).setWaits n
        (insertFront b v a.waits[n]) := by
  have hroom : ¬ Config.waitLimit ≤ a.waits[n].length := Nat.not_le.mpr hw
  simp [-Fin.getElem_fin, Arbiter.preempt, Arbiter.setHolders_get, hroom]

theorem Arbiter.preempt_of_full {b : Bank} {n : Net} {v h w : Hold} {a : Arbiter} {q : List Hold}
    (hw : a.waits[n] = q ++ [w]) (hq : 7 ≤ q.length) :
    a.preempt b n v h =
      ((((a.setTalk w.st w.key .refused).setTalk v.st v.key .wait).setTalk h.st h.key .live).setHolders n
        (a.holders[n].erase v ++ [h])).setWaits n (insertFront b v q) := by
  have hfull : Config.waitLimit ≤ a.waits[n].length := by
    rw [hw, List.length_append]; exact Nat.succ_le_succ hq
  have hdrop : (a.setHolders n (a.holders[n].erase v)).dropLastWaiter n
      = ((a.setHolders n (a.holders[n].erase v)).setTalk w.st w.key .refused).setWaits n q :=
    Arbiter.dropLastWaiter_concat hw
  simp [-Fin.getElem_fin, Arbiter.preempt, Arbiter.setHolders_get, Arbiter.setWaits_get, hfull, hdrop]

/-! Queueing (R8). -/

theorem Arbiter.joinQueue_of_room {b : Bank} {n : Net} {h : Hold} {a : Arbiter} (hw : a.waits[n].length < 8) :
    a.joinQueue b n h = (a.setTalk h.st h.key .wait).setWaits n (insertBack b h a.waits[n]) := by
  have hroom : a.waits[n].length < Config.waitLimit := hw
  simp [-Fin.getElem_fin, Arbiter.joinQueue, hroom]

/-- A full queue loses its last waiter to a press of higher class, and refuses any other. -/
theorem Arbiter.joinQueue_of_full {b : Bank} {n : Net} {h w : Hold} {a : Arbiter} {q : List Hold}
    (hw : a.waits[n] = q ++ [w]) (hq : 7 ≤ q.length) :
    a.joinQueue b n h =
      if b.clsOf w < b.clsOf h then
        ((a.setTalk w.st w.key .refused).setTalk h.st h.key .wait).setWaits n (insertBack b h q)
      else a.setTalk h.st h.key .refused := by
  have hfull : ¬ a.waits[n].length < Config.waitLimit := by
    rw [hw, List.length_append]; exact Nat.not_lt.mpr (Nat.succ_le_succ hq)
  have hlast : a.waits[n].getLast? = some w := by simp [hw]
  simp [-Fin.getElem_fin, Arbiter.joinQueue, hfull, hlast, Arbiter.setWaits_get,
    Arbiter.dropLastWaiter_concat hw]

/-! A press placed on a net with every slot held. -/

theorem Arbiter.placePress_of_lower_victim {b : Bank} {n : Net} {h v : Hold} {a : Arbiter}
    (hfull : b.nets[n].slots ≤ a.holders[n].length) (hv : victimOf b a.holders[n] = some v)
    (hlt : b.clsOf v < b.clsOf h) : a.placePress b n h = a.preempt b n v h := by
  simp [-Fin.getElem_fin, Arbiter.placePress, Nat.not_lt.mpr hfull, hv, hlt]

theorem Arbiter.placePress_of_no_lower {b : Bank} {n : Net} {h : Hold} {a : Arbiter}
    (hfull : b.nets[n].slots ≤ a.holders[n].length) (hle : ∀ x ∈ a.holders[n], b.clsOf h ≤ b.clsOf x) :
    a.placePress b n h = a.joinQueue b n h := by
  cases hv : victimOf b a.holders[n] with
  | none => simp [-Fin.getElem_fin, Arbiter.placePress, Nat.not_lt.mpr hfull, hv]
  | some v => simp [-Fin.getElem_fin, Arbiter.placePress, Nat.not_lt.mpr hfull, hv, Nat.not_lt.mpr (hle v (victimOf_mem hv))]

/-- Settles O32: the split of the holder list names the victim, and the two cases are a wait queue with room and a full
one. -/
theorem pressPreempts : Obligations.PressPreempts := by
  intro b n h v a before after hfull hsplit hb ha hlt
  have hvictim : victimOf b a.holders[n] = some v := by
    rw [hsplit]; exact victimOf_eq_of_split (fun x hx => (hb x hx).1) ha
  have herase : a.holders[n].erase v = before ++ after := by
    have hv : v ∉ before := fun hmem => (hb v hmem).2 rfl
    rw [hsplit, List.erase_append_right _ hv, List.erase_cons_head]
  rw [Arbiter.placePress_of_lower_victim hfull hvictim hlt]
  rcases Nat.lt_or_ge a.waits[n].length 8 with hw | hw
  · rw [Arbiter.preempt_of_room hw, herase]
    have hroom : ¬ 8 ≤ a.waits[n].length := Nat.not_le.mpr hw
    simp only [hroom, if_false]
    cases a.waits[n].getLast? <;> rfl
  · obtain hnil | ⟨q, w, hq⟩ := List.eq_nil_or_concat' a.waits[n]
    · simp [hnil] at hw
    · have hlen : 7 ≤ q.length := by simpa [hq] using hw
      rw [Arbiter.preempt_of_full hq hlen, herase]
      simp only [hq, List.getLast?_concat, List.dropLast_concat]
      rw [hq] at hw
      simp only [hw, if_true]
      rfl

/-- Settles O33: no holder is of lower class, so the press goes to the queue, which has room or is full. -/
theorem pressJoinsTheQueueOrIsRefused : Obligations.PressJoinsTheQueueOrIsRefused := by
  intro b n h a hfull hle
  rw [Arbiter.placePress_of_no_lower hfull hle]
  refine ⟨fun hroom => Arbiter.joinQueue_of_room hroom, fun w q hw hq => ?_⟩
  rw [Arbiter.joinQueue_of_full hw hq]
  exact ⟨fun hlt => if_pos hlt, fun hge => if_neg (Nat.not_lt.mpr hge)⟩

/-! The resets (R1). -/

theorem exec_powerOn (s : State) : exec .powerOn s = .next (powerOnState s) := rfl

theorem exec_resetLineRelease_asserted {s : State} (h : s.resetLine = true) :
    exec .resetLineRelease s = .next (lineReset s) := by
  show Host.Outcome.next (if s.resetLine then lineReset s else s) = _
  rw [if_pos h]

theorem exec_softResetEffect_due {s : State} (hl : s.resetLine = false) (hd : s.mgmt.service = .resetDue) :
    exec .softResetEffect s = .next (applySoftReset s) := by
  have hcalm : Calm s := ⟨hl, by rw [hd]; rfl⟩
  have hdue : Due.softReset.isDue s = true := by simp [Due.isDue, hd]
  show settled (atCompletion .softReset) s = _
  rw [settled_calm hcalm, atCompletion_due hdue]
  rfl

@[simp] theorem powerOnState_arb (s : State) : (powerOnState s).arb = Arbiter.init := rfl
@[simp] theorem lineReset_arb (s : State) : (lineReset s).arb = Arbiter.init := rfl
@[simp] theorem applySoftReset_arb (s : State) : (applySoftReset s).arb = Arbiter.init := rfl

@[simp] theorem setUnverified_live (t : Table) (s : State) : (setUnverified t s).live = s.live := by
  cases t <;> rfl

@[simp] theorem resetMarks_live (s : State) : (resetMarks s).live = s.live := by
  unfold resetMarks
  split
  · split
    · exact setUnverified_live _ s
    · rfl
  · rfl

theorem applySoftReset_live (s : State) : (applySoftReset s).live = s.live := resetMarks_live s

/-- A reset's command reaches a state with the arbiter's reset value; LIVE outlasts the soft reset. -/
theorem exec_reset {c : Instr} {s : State}
    (hc : c = .powerOn ∨ (c = .resetLineRelease ∧ s.resetLine = true)
      ∨ (c = .softResetEffect ∧ s.resetLine = false ∧ s.mgmt.service = .resetDue)) :
    ∃ t, exec c s = .next t ∧ t.arb = Arbiter.init ∧ (c = .softResetEffect → t.live = s.live) := by
  obtain rfl | ⟨rfl, hline⟩ | ⟨rfl, hline, hdue⟩ := hc
  · exact ⟨_, exec_powerOn s, powerOnState_arb s, nofun⟩
  · exact ⟨_, exec_resetLineRelease_asserted hline, lineReset_arb s, nofun⟩
  · exact ⟨_, exec_softResetEffect_due hline hdue, applySoftReset_arb s, fun _ => applySoftReset_live s⟩

/-- R1: the arbiter's reset values, item by item. -/
theorem Arbiter.init_items :
    (∀ n : Net, Arbiter.init.holders[n] = [] ∧ Arbiter.init.waits[n] = [] ∧ Arbiter.init.calls[n] = .idle)
      ∧ Arbiter.init.announce = none
      ∧ (∀ (st : Station) (k : Key), Arbiter.init.talk[st][k] = .off)
      ∧ ∀ st : Station, Arbiter.init.ann[st] = .none := by
  simp [Arbiter.init]

/-- Settles O7: each reset's command reaches a state whose arbiter has its reset value. -/
theorem everyResetEmptiesTheArbiter : Obligations.EveryResetEmptiesTheArbiter := by
  intro c s hc
  obtain ⟨t, hexec, harb, hlive⟩ := exec_reset hc
  obtain ⟨hlists, hannounce, htalk, hann⟩ := Arbiter.init_items
  refine ⟨t, hexec, ?_⟩
  rw [harb]
  exact ⟨hlists, hannounce, htalk, hann, hlive⟩

end Sys2Proof.Machine
end

section
/-! The Take and the Revert of the route banks as the management processor serves them (R31, R36): how each command reaches
its service, what a service answers after the window has ended, and the statement they settle. -/

namespace Sys2Proof.Machine

/-! The command serves the head. -/

theorem exec_take_serves {s : State} {q : QueuedRequest} (h : Serves s q) (hq : q.req = .take) :
    exec .take s = .next (serveTake q s) :=
  serving_eq h (by simp only [hq])

theorem exec_revert_serves {s : State} {q : QueuedRequest} (h : Serves s q) (hq : q.req = .revert) :
    exec .revert s = .next (serveRevert q s) :=
  serving_eq h (by simp only [hq])

/-! The service of a head that was never held: only the queue and HOLD change (R170). -/

theorem finishService_of_idle {s : State} (h : s.mgmt.service = .idle) :
    finishService s = { s with mgmt := { s.mgmt with
      queue := s.mgmt.queue.tail,
      hold := judgeHold s.mgmt.settings.high s.mgmt.settings.low (s.mgmt.queue.length - 1) s.mgmt.hold } } := by
  simp [finishService, State.modMgmt, Management.setQueue, h]

/-! R31 and R36 in the words of the state after the window has ended. -/

theorem serveTake_eq (q : QueuedRequest) (s : State) :
    serveTake q s =
      if (windowEnded s).unverified then respond q .unverified [] (windowEnded s)
      else if (windowEnded s).takePending.isSome then respond q .busy [] (windowEnded s)
      else finishService { windowEnded s with takePending := some (.requester q.port q.tag) } := by
  unfold serveTake
  rw [endWindow_eq]

theorem serveRevert_eq (q : QueuedRequest) (s : State) :
    serveRevert q s =
      if (windowEnded s).takePending.isSome then respond q .busy [] (windowEnded s)
      else respond q .ok [] { windowEnded s with edit := s.live, unverified := false } := by
  unfold serveRevert
  rw [endWindow_eq]
  rfl

/-- Settles O42: each command serves the head; the window's end leaves LIVE, the queue and the idle service as they are, so
a Take that becomes pending ends its service with the queue and HOLD alone changed. -/
theorem takeAndRevertServed : Obligations.TakeAndRevertServed := by
  intro s q hs
  refine ⟨fun hq => ?take, fun hq => ?revert⟩
  case take =>
    have hidle : ({ windowEnded s with takePending := some (.requester q.port q.tag) } : State).mgmt.service = .idle :=
      hs.idle
    rw [exec_take_serves hs hq, serveTake_eq, finishService_of_idle hidle]
    rfl
  case revert =>
    rw [exec_revert_serves hs hq, serveRevert_eq]

end Sys2Proof.Machine
end

section
/-! Restore Station and Lamp Test as the management processor serves them (R151, R103), and what a lamp shows (R102): how each
command reaches its service, what a service answers for a station and for a number past 23, and the statement they settle. -/

namespace Sys2Proof.Machine

/-! The command serves the head. -/

theorem exec_restoreStation_serves {s : State} {q : QueuedRequest} {b : Byte} (h : Serves s q)
    (hq : q.req = .restoreStation b) : exec .restoreStation s = .next (serveRestore q b s) :=
  serving_eq h (by simp only [hq])

theorem exec_lampTest_serves {s : State} {q : QueuedRequest} {b : Byte} (h : Serves s q)
    (hq : q.req = .lampTest b) : exec .lampTest s = .next (serveLampTest q b s) :=
  serving_eq h (by simp only [hq])

/-! The station a number names. -/

theorem finOf?_none_of_le {n x : Nat} (h : n ≤ x) : finOf? n x = none := by
  simp [finOf?, Nat.not_lt.mpr h]

@[simp] theorem finOf?_val {n : Nat} (i : Fin n) : finOf? n i.val = some i := by
  simp [finOf?]

theorem serveRestore_of_past {q : QueuedRequest} {b : Byte} {s : State} (hb : 24 ≤ b.toNat) :
    serveRestore q b s = respond q .badValue [] (windowEnded s) := by
  simp only [serveRestore, finOf?_none_of_le hb, endWindow_eq]

theorem serveLampTest_of_past {q : QueuedRequest} {b : Byte} {s : State} (hb : 24 ≤ b.toNat) :
    serveLampTest q b s = respond q .badValue [] (windowEnded s) := by
  simp only [serveLampTest, finOf?_none_of_le hb, endWindow_eq]

theorem serveRestore_of_station {q : QueuedRequest} {b : Byte} {st : Station} {s : State} (hb : b.toNat = st.val) :
    serveRestore q b s =
      respond q (restoreStation st (windowEnded s)).1 [] (restoreStation st (windowEnded s)).2 := by
  simp only [serveRestore, hb, finOf?_val, endWindow_eq]

theorem serveLampTest_of_station {q : QueuedRequest} {b : Byte} {st : Station} {s : State} (hb : b.toNat = st.val) :
    serveLampTest q b s = respond q (lampTest st (windowEnded s)).1 [] (lampTest st (windowEnded s)).2 := by
  simp only [serveLampTest, hb, finOf?_val, endWindow_eq]

/-! When a restore is accepted (R151 steps 2 to 6). -/

theorem State.restores_iff {s : State} {st : Station} :
    s.restores st = true ↔ s.homing[st].state = .onSpare ∧ s.clean st (s.station st).primary = true := by
  simp [State.restores]

theorem restoreStation_accepts {s : State} {st : Station} (he : (s.station st).enabled = true)
    (hr : s.restores st = true) :
    restoreStation st s = (.ok, s.modHoming st fun h => { h with restorePending := true }) := by
  simp [restoreStation, he, hr]

theorem restoreStation_refuses {s : State} {st : Station}
    (h : ¬ ((s.station st).enabled = true ∧ s.restores st = true)) : restoreStation st s = (.notAvailable, s) := by
  have hrefused : (!(s.station st).enabled || !s.restores st) = true := by simpa [-not_and, not_and_or] using h
  exact if_pos hrefused

/-! When a lamp test is accepted (R103 steps 2 and 3), and what it does to the lamps. -/

theorem StationRecord.lamps_of_not_source {r : StationRecord} (h : r.kind ≠ .source) : r.lamps = r.lampCount :=
  if_neg h

theorem StationRecord.lamps_ne_zero_iff {r : StationRecord} : r.lamps ≠ 0 ↔ r.kind ≠ .source ∧ r.lampCount ≠ 0 := by
  simp [StationRecord.lamps]

theorem lampTest_accepts {s : State} {st : Station} (he : (s.station st).enabled = true)
    (hl : (s.station st).lamps ≠ 0) :
    lampTest st s = (.ok, s.modLamps (·.startTest st (s.station st).lamps)) := by
  simp [lampTest, he, hl]

theorem lampTest_refuses {s : State} {st : Station}
    (h : ¬ ((s.station st).enabled = true ∧ (s.station st).lamps ≠ 0)) : lampTest st s = (.notAvailable, s) := by
  have hrefused : (!(s.station st).enabled || (s.station st).lamps = 0) = true := by
    simpa [-not_and, not_and_or] using h
  exact if_pos hrefused

theorem LampState.startTest_test_same (l : LampState) (st : Station) (count : Nat) (j : Lamp) :
    (l.startTest st count).test[st][j] = (l.test[st][j] || j.val < count) := by
  rw [LampState.startTest, upd_same]
  simp

theorem LampState.startTest_test_other (l : LampState) {st u : Station} (count : Nat) (h : u ≠ st) :
    (l.startTest st count).test[u] = l.test[u] :=
  upd_other l.test st u _ h.symm

/-! What a lamp shows (R102): TEST, then the ranks of its claims from the highest. -/

theorem LampState.has_iff {l : LampState} {st : Station} {j : Lamp} {r : Rank} :
    l.has st j r = true ↔ ∃ x ∈ l.claims, x.st = st ∧ x.lamp = j ∧ x.rank = r := by
  simp [LampState.has, and_assoc]

theorem LampState.shown_of_test {l : LampState} {st : Station} {j : Lamp} (h : l.test[st][j] = true) :
    l.shown st j = .test :=
  if_pos h

theorem LampState.shown_of_not_test {l : LampState} {st : Station} {j : Lamp} (h : l.test[st][j] = false) :
    l.shown st j =
      if l.has st j .go then .go
      else if l.has st j .late then .late
      else if l.has st j .standby then .standby
      else if l.has st j .ready then .ready
      else .off :=
  if_neg (by rw [h]; exact Bool.false_ne_true)

/-- R102: without a TEST claim, a rank shows where no higher one is claimed. -/
theorem LampState.shown_highest (l : LampState) (st : Station) (j : Lamp) (h : l.test[st][j] = false) :
    let claimed (r : Rank) : Prop := ∃ x ∈ l.claims, x.st = st ∧ x.lamp = j ∧ x.rank = r
    (claimed .go → l.shown st j = .go)
      ∧ (¬ claimed .go → claimed .late → l.shown st j = .late)
      ∧ (¬ claimed .go → ¬ claimed .late → claimed .standby → l.shown st j = .standby)
      ∧ (¬ claimed .go → ¬ claimed .late → ¬ claimed .standby → claimed .ready → l.shown st j = .ready)
      ∧ (¬ claimed .go → ¬ claimed .late → ¬ claimed .standby → ¬ claimed .ready → l.shown st j = .off) := by
  intro claimed
  have hclaimed (r : Rank) : claimed r ↔ l.has st j r = true := LampState.has_iff.symm
  simp only [hclaimed, LampState.shown_of_not_test h]
  refine ⟨fun hgo => if_pos hgo, fun hgo hlate => ?_, fun hgo hlate hstandby => ?_,
    fun hgo hlate hstandby hready => ?_, fun hgo hlate hstandby hready => ?_⟩
  · rw [if_neg hgo, if_pos hlate]
  · rw [if_neg hgo, if_neg hlate, if_pos hstandby]
  · rw [if_neg hgo, if_neg hlate, if_neg hstandby, if_pos hready]
  · rw [if_neg hgo, if_neg hlate, if_neg hstandby, if_neg hready]

/-! The services in the words of the rules. -/

/-- R151: a restore is accepted, and then pending, just where the station is enabled, ON_SPARE and its primary clean. -/
theorem restoreStation_served {s : State} {q : QueuedRequest} {b : Byte} {st : Station} (hs : Serves s q)
    (hb : b.toNat = st.val) (hq : q.req = .restoreStation b) :
    let e := windowEnded s
    let may := (e.station st).enabled = true ∧ e.homing[st].state = .onSpare ∧ e.clean st (e.station st).primary = true
    (¬ may → exec .restoreStation s = .next (respond q .notAvailable [] e))
      ∧ (may → exec .restoreStation s = .next (respond q .ok []
          { e with homing := e.homing.set st { e.homing[st] with restorePending := true } })) := by
  intro e may
  rw [exec_restoreStation_serves hs hq, serveRestore_of_station hb]
  refine ⟨fun hno => ?refused, fun ⟨henabled, hspare⟩ => ?accepted⟩
  case refused =>
    rw [restoreStation_refuses fun ⟨henabled, hrestores⟩ => hno ⟨henabled, State.restores_iff.mp hrestores⟩]
  case accepted =>
    rw [restoreStation_accepts henabled (State.restores_iff.mpr hspare)]
    rfl

/-- R103: a lamp test is accepted, and then started, just where the station is enabled and has lamps. -/
theorem lampTest_served {s : State} {q : QueuedRequest} {b : Byte} {st : Station} (hs : Serves s q)
    (hb : b.toNat = st.val) (hq : q.req = .lampTest b) :
    let e := windowEnded s
    let r := e.station st
    let may := r.enabled = true ∧ r.kind ≠ .source ∧ r.lampCount ≠ 0
    (¬ may → exec .lampTest s = .next (respond q .notAvailable [] e))
      ∧ (may → exec .lampTest s = .next (respond q .ok [] (e.modLamps (·.startTest st r.lampCount)))) := by
  intro e r may
  rw [exec_lampTest_serves hs hq, serveLampTest_of_station hb]
  refine ⟨fun hno => ?refused, fun ⟨henabled, hlamps⟩ => ?accepted⟩
  case refused =>
    rw [lampTest_refuses fun ⟨henabled, hlamps⟩ => hno ⟨henabled, StationRecord.lamps_ne_zero_iff.mp hlamps⟩]
  case accepted =>
    rw [lampTest_accepts henabled (StationRecord.lamps_ne_zero_iff.mpr hlamps),
      StationRecord.lamps_of_not_source hlamps.1]

/-- Settles O51: a number past 23 names no station; for a station's number each service accepts or refuses by its rule, and
an accepted lamp test changes the lamps alone; a lamp's claims are tried from the highest rank. -/
theorem restoreAndLampTestServed : Obligations.RestoreAndLampTestServed := by
  refine ⟨fun s q hs => ⟨fun b hb => ⟨fun hq => ?restorePast, fun hq => ?lampPast⟩,
    fun b st hb => ⟨restoreStation_served hs hb, fun hq => ?lampTest⟩⟩,
    fun l st j => ⟨LampState.shown_of_test, LampState.shown_highest l st j⟩⟩
  case restorePast =>
    rw [exec_restoreStation_serves hs hq, serveRestore_of_past hb]
  case lampPast =>
    rw [exec_lampTest_serves hs hq, serveLampTest_of_past hb]
  case lampTest =>
    obtain ⟨hrefused, haccepted⟩ := lampTest_served hs hb hq
    refine ⟨hrefused, fun hmay => ⟨_, haccepted hmay, rfl, fun j => ?_, fun u hu => ?_, rfl⟩⟩
    · exact LampState.startTest_test_same _ st _ j
    · exact LampState.startTest_test_other _ _ hu

end Sys2Proof.Machine
end

section
/-! Release and Heartbeat as the management processor serves them (R117, R122), and the response to a desk fault of the
holder (R124): how each command reaches its service, what a service answers to the holder and to any other port, what
the authority unit does for each, and the statement they settle. -/

namespace Sys2Proof.Machine

/-! The command serves the head. -/

theorem exec_release_serves {s : State} {q : QueuedRequest} (h : Serves s q) (hq : q.req = .release) :
    exec .release s = .next (serveRelease q s) :=
  serving_eq h (by simp only [hq])

theorem exec_heartbeat_serves {s : State} {q : QueuedRequest} (h : Serves s q) (hq : q.req = .heartbeat) :
    exec .heartbeat s = .next (serveHeartbeat q s) :=
  serving_eq h (by simp only [hq])

/-! Who is served: the holder port alone (R114). -/

theorem State.fromHolder_iff {s : State} {q : QueuedRequest} :
    s.fromHolder q = true ↔ s.auth.holder = some q.port := by
  simp [State.fromHolder]

theorem serveRelease_of_other {s : State} {q : QueuedRequest} (h : (windowEnded s).auth.holder ≠ some q.port) :
    serveRelease q s = respond q .noAuthority [] (windowEnded s) := by
  rw [serveRelease, endWindow_eq]
  exact if_neg (mt State.fromHolder_iff.mp h)

theorem serveRelease_of_holder {s : State} {q : QueuedRequest} (h : (windowEnded s).auth.holder = some q.port) :
    serveRelease q s = respond q .ok [] (releaseAuthority (windowEnded s)) := by
  rw [serveRelease, endWindow_eq]
  exact if_pos (State.fromHolder_iff.mpr h)

theorem serveHeartbeat_of_other {s : State} {q : QueuedRequest} (h : (windowEnded s).auth.holder ≠ some q.port) :
    serveHeartbeat q s = respond q .noAuthority [] (windowEnded s) := by
  rw [serveHeartbeat, endWindow_eq]
  exact if_neg (mt State.fromHolder_iff.mp h)

theorem serveHeartbeat_of_holder {s : State} {q : QueuedRequest} (h : (windowEnded s).auth.holder = some q.port) :
    serveHeartbeat q s = respond q (heartbeat (windowEnded s)).1 [] (heartbeat (windowEnded s)).2 := by
  rw [serveHeartbeat, endWindow_eq]
  exact if_pos (State.fromHolder_iff.mpr h)

/-! Reports to the management ports: neither authority nor a port's fault flags have a say in which ports take one. -/

theorem broadcast_setAuth (m : Message) (a : Authority) (s : State) :
    broadcast m { s with auth := a } = { broadcast m s with auth := a } := rfl

theorem broadcast_modAuth (m : Message) (f : Authority → Authority) (s : State) :
    broadcast m (s.modAuth f) = (broadcast m s).modAuth f := by
  simp only [broadcast, State.modAuth]
  rfl

theorem broadcast_modPortFaults (m : Message) (p : Port) (f : PortFaults → PortFaults) (s : State) :
    broadcast m (s.modPortFaults p f) = (broadcast m s).modPortFaults p f := rfl

@[simp] theorem broadcast_auth (m : Message) (s : State) : (broadcast m s).auth = s.auth := by
  rw [broadcast]

/-! The holder gives authority up or loses it (R117). -/

theorem releaseAuthority_of_holder {s : State} {p : Port} (h : s.auth.holder = some p) :
    releaseAuthority s = broadcast (releasedReport p) { s with auth := Authority.init } := by
  rw [releaseAuthority, h]

theorem loseAuthority_of_holder {r : LossReason} {s : State} {p : Port} (h : s.auth.holder = some p) :
    loseAuthority r s = { broadcast (lostReport p r) s with auth := Authority.init } := by
  rw [loseAuthority, h]
  exact broadcast_setAuth _ _ s

/-! A desk fault of the holder (R124): the mode of the DESK class gives the response. -/

/-- R124 under WARN: the flag, the report, and a window that starts again. -/
theorem deskFault_warn {k : DeskKind} {s : State} {p : Port} (h : s.auth.holder = some p)
    (hm : s.faults.modes.desk = .warn) :
    deskFault k s =
      ((broadcast (deskFaultReport p k .warn) s).modPortFaults p fun f => { f with deskWarn := true }).modAuth
        fun a => { a with window := some SupWindow.start, deskCond := true } := by
  simp only [deskFault, h, hm, broadcast_modPortFaults, broadcast_modAuth]
  simp only [State.modAuth, State.modPortFaults]

/-- R124 under LATCHED: the flag, the report of the fault, and behind it that of the authority lost. -/
theorem deskFault_latched {k : DeskKind} {s : State} {p : Port} (h : s.auth.holder = some p)
    (hm : s.faults.modes.desk = .latched) :
    deskFault k s =
      { (broadcast (lostReport p .deskFault) (broadcast (deskFaultReport p k .latched) s)).modPortFaults p
          fun f => { f with deskLatched := true } with auth := Authority.init } := by
  simp only [deskFault, h, hm, broadcast_modPortFaults, broadcast_modAuth]
  rw [loseAuthority_of_holder (p := p), broadcast_modPortFaults, broadcast_modAuth]
  · simp only [State.modAuth, State.modPortFaults]
  · simpa using h

/-! The holder's heartbeat, by the supervision window (R122). -/

theorem heartbeat_of_stopped {s : State} (hw : s.auth.window = none) : heartbeat s = (.ok, s) := by
  rw [heartbeat, hw]

theorem heartbeat_in_time {s : State} {w : SupWindow} (hw : s.auth.window = some w)
    (hmin : s.mgmt.settings.supMin ≤ w.elapsed) :
    heartbeat s = (.ok, s.modAuth fun a => { a with window := some SupWindow.start, deskCond := false }) := by
  rw [heartbeat, hw]
  exact if_pos hmin

theorem heartbeat_early {s : State} {w : SupWindow} (hw : s.auth.window = some w)
    (hmin : w.elapsed < s.mgmt.settings.supMin) : heartbeat s = (.early, deskFault .early s) := by
  rw [heartbeat, hw]
  exact if_neg (Nat.not_le.mpr hmin)

/-- Settles O46: each command serves the head, and only the holder's request reaches the authority unit. A heartbeat goes
by its window (none, at or above the min interval, below it), and an early one by the DESK class mode. -/
theorem releaseAndHeartbeatServed : Obligations.ReleaseAndHeartbeatServed := by
  intro s q hs e
  refine ⟨fun hother => ⟨fun hq => ?releaseRefused, fun hq => ?heartbeatRefused⟩,
    fun hholder => ⟨fun hq => ?release, fun hq => ?heartbeat⟩⟩
  case releaseRefused =>
    rw [exec_release_serves hs hq, serveRelease_of_other hother]
  case heartbeatRefused =>
    rw [exec_heartbeat_serves hs hq, serveHeartbeat_of_other hother]
  case release =>
    rw [exec_release_serves hs hq, serveRelease_of_holder hholder, releaseAuthority_of_holder hholder]
    rfl
  case heartbeat =>
    rw [exec_heartbeat_serves hs hq, serveHeartbeat_of_holder hholder]
    refine ⟨fun hstopped => ?stopped,
      fun w hw => ⟨fun hmin => ?inTime, fun hmin hmode => ?warn, fun hmin hmode => ?latched⟩⟩
    case stopped => rw [heartbeat_of_stopped hstopped]
    case inTime =>
      rw [heartbeat_in_time hw hmin]
      rfl
    case warn =>
      rw [heartbeat_early hw hmin, deskFault_warn hholder hmode]
      rfl
    case latched =>
      rw [heartbeat_early hw hmin, deskFault_latched hholder hmode]
      rfl

end Sys2Proof.Machine
end

section
/-! The message area of a downlink frame (R141): which messages leave a queue, where their bytes stand in the frame, and the
statement they settle. -/

namespace Sys2Proof.Machine

/-! The head of the queue: it leaves if it fits in the room that remains, and closes the area if it does not. -/

@[simp] theorem fillArea_nil (room : Nat) : fillArea room [] = ([], []) := by rw [fillArea]

theorem fillArea_cons_of_fits {room : Nat} {m : Message} {ms : List Message} (h : m.length ≤ room) :
    fillArea room (m :: ms) = (m :: (fillArea (room - m.length) ms).1, (fillArea (room - m.length) ms).2) := by
  rw [fillArea, if_pos h]

theorem fillArea_cons_of_full {room : Nat} {m : Message} {ms : List Message} (h : ¬ m.length ≤ room) :
    fillArea room (m :: ms) = ([], m :: ms) := by
  rw [fillArea, if_neg h]

/-! What leaves and what stays, by induction on the queue. -/

/-- The total length of messages in bytes. -/
def totalLength (ms : List Message) : Nat := (ms.map Message.length).sum

@[simp] theorem totalLength_nil : totalLength [] = 0 := rfl

@[simp] theorem totalLength_cons (m : Message) (ms : List Message) :
    totalLength (m :: ms) = m.length + totalLength ms := List.sum_cons

/-- Nothing is lost and nothing overtakes. -/
theorem fillArea_append (room : Nat) (q : List Message) : (fillArea room q).1 ++ (fillArea room q).2 = q := by
  induction q generalizing room with
  | nil => simp
  | cons m ms ih =>
    by_cases h : m.length ≤ room
    · rw [fillArea_cons_of_fits h, List.cons_append, ih]
    · rw [fillArea_cons_of_full h, List.nil_append]

theorem fillArea_fits (room : Nat) (q : List Message) : totalLength (fillArea room q).1 ≤ room := by
  induction q generalizing room with
  | nil => simp
  | cons m ms ih =>
    by_cases h : m.length ≤ room
    · rw [fillArea_cons_of_fits h, totalLength_cons]
      have := ih (room - m.length)
      omega
    · simp [fillArea_cons_of_full h]

/-- The first message that stays would not have fitted behind those that leave. -/
theorem fillArea_closed {room : Nat} {q : List Message} {m : Message} {rest : List Message}
    (hstays : (fillArea room q).2 = m :: rest) : room < totalLength (fillArea room q).1 + m.length := by
  induction q generalizing room with
  | nil => simp at hstays
  | cons x xs ih =>
    by_cases h : x.length ≤ room
    · rw [fillArea_cons_of_fits h] at hstays ⊢
      have := ih hstays
      rw [totalLength_cons]
      omega
    · rw [fillArea_cons_of_full h] at hstays ⊢
      obtain ⟨rfl, -⟩ := List.cons.inj hstays
      rw [totalLength_nil]
      omega

/-! The 64 bytes of an area. -/

@[simp] theorem Message.bytes_length (m : Message) : m.bytes.length = m.length := by
  exact Nat.add_comm m.body.length 4

theorem flatten_bytes_length (ms : List Message) : (ms.map Message.bytes).flatten.length = totalLength ms := by
  induction ms with
  | nil => rfl
  | cons m ms ih => simp [ih]

theorem areaOf_eq (ms : List Message) :
    areaOf ms = (ms.map Message.bytes).flatten ++ List.replicate (64 - totalLength ms) 0 := by
  simp only [areaOf, flatten_bytes_length]

theorem areaOf_length {ms : List Message} (h : totalLength ms ≤ 64) : (areaOf ms).length = 64 := by
  rw [areaOf_eq, List.length_append, flatten_bytes_length, List.length_replicate]
  omega

/-! Where the area stands in a frame: its last 64 bytes before the two of the check (R182). -/

theorem take_area_of_layout {header area check : List Byte} (harea : area.length = 64) (hcheck : check.length = 2) :
    ((header ++ area ++ check).drop ((header ++ area ++ check).length - 66)).take 64 = area := by
  have hstart : (header ++ area ++ check).length - 66 = header.length := by
    simp only [List.length_append]
    omega
  rw [hstart, List.append_assoc, List.drop_left, List.take_left' harea]

theorem State.frame_area (s : State) (listen : Vector (Option Block) 24) (p : Port) :
    ((s.frame listen p).drop ((s.frame listen p).length - 66)).take 64 = areaOf (s.leaving p) :=
  take_area_of_layout (header := s.ports[p].downSeq :: (s.indications p ++ listenBytes (s.listenFor listen p)))
    (areaOf_length (fillArea_fits 64 s.out[p].queue)) rfl

/-! The sending, port by port. -/

theorem sendFrames_sent (listen : Vector (Option Block) 24) (s : State) (p : Port) :
    (sendFrames listen s).sent[p] = s.frame listen p := by
  simp [sendFrames]

theorem sendFrames_out (listen : Vector (Option Block) 24) (s : State) (p : Port) :
    (sendFrames listen s).out[p] = { s.out[p] with queue := (fillArea 64 s.out[p].queue).2 } := by
  simp [sendFrames]

/-- Settles O14: the rules of the area by induction on the queue; the frame carries the area of what leaves before its
check, at whatever place the listen block puts it. -/
theorem messageAreaTakesFromTheHead : Obligations.MessageAreaTakesFromTheHead := by
  refine ⟨fun room q => ?area, fun listen s p => ?sent⟩
  case area => exact ⟨fillArea_append room q, fillArea_fits room q, fun _ _ hstays => fillArea_closed hstays⟩
  case sent =>
    refine ⟨sendFrames_out listen s p, ?_⟩
    rw [sendFrames_sent, State.frame_area, areaOf_eq]
    rfl

end Sys2Proof.Machine
end

section
/-! Damaged uplink frames (R127): which frames parsing refuses, what one does to its port, and the statement they settle. -/

namespace Sys2Proof.Machine

/-- R127 in the words of the header: a frame too short for one is damaged, and so is one that fails a check of its length,
its declared lengths or its CRC. -/
def FrameDamaged (bytes : List Byte) : Prop :=
  ∀ (seq b1 b2 cnt mlen : Byte) (rest : List Byte), bytes = seq :: b1 :: b2 :: cnt :: mlen :: rest →
    bytes.length ≠ 7 + 2 * cnt.toNat + mlen.toNat ∨ 64 < mlen.toNat ∨ (cnt.toNat ≠ 0 ∧ cnt.toNat ≠ 24)
      ∨ crcBytes (crc 0xFFFF (bytes.take (bytes.length - 2))) ≠ bytes.drop (bytes.length - 2)

/-- Parsing refuses a frame exactly if it is damaged. -/
theorem parseUplink_eq_none_iff (bytes : List Byte) : parseUplink bytes = none ↔ FrameDamaged bytes := by
  unfold parseUplink
  split
  next seq b1 b2 cnt mlen rest =>
    simp only [ite_eq_right_iff, reduceCtorEq, imp_false]
    constructor
    case mp =>
      intro hbad seq' b1' b2' cnt' mlen' rest' heq
      cases heq
      by_contra hsound
      push Not at hsound
      obtain ⟨hlen, harea, hcount, hcheck⟩ := hsound
      exact hbad ⟨by omega, harea, hlen, hcheck⟩
    case mpr =>
      rintro hdamaged ⟨hcount, harea, hlen, hcheck⟩
      rcases hdamaged seq b1 b2 cnt mlen rest rfl with h | h | h | h
      · exact h hlen
      · exact absurd harea (Nat.not_le.mpr h)
      · exact hcount.elim h.1 h.2
      · exact h hcheck
  next hshort => exact ⟨fun _ seq b1 b2 cnt mlen rest heq => (hshort seq b1 b2 cnt mlen rest heq).elim, fun _ => rfl⟩

/-! The command. -/

theorem exec_uplinkFrame_calm {s : State} {p : Port} {bytes : List Byte} (h : Calm s) :
    exec (.uplinkFrame p bytes) s = .next (receive p bytes (settleDown p s)) :=
  settled_calm (f := fun t => receive p bytes (settleDown p t)) h

/-- A port that is DOWN, or whose 20th silent completion has not come, has nothing to settle before a frame (R131). -/
theorem settleDown_of_not_lost {p : Port} {s : State} (h : s.ports[p].up = true → s.ports[p].loss < 20) :
    settleDown p s = s := by
  refine if_neg fun hdue => ?_
  simp only [Due.isDue, Bool.and_eq_true, decide_eq_true_eq] at hdue
  obtain ⟨hup, hloss⟩ := hdue
  exact absurd hloss (h hup).ne

theorem receive_of_damaged {p : Port} {bytes : List Byte} {s : State} (h : FrameDamaged bytes) :
    receive p bytes s = damagedFrame p s := by
  rw [receive, (parseUplink_eq_none_iff bytes).mpr h]

/-! The port: one that is UP is left as it is, one that is DOWN loses its acquire count. -/

theorem upd_congr {α : Type} {n : Nat} {v : Vector α n} {i : Fin n} {f g : α → α} (h : f v[i] = g v[i]) :
    upd v i f = upd v i g := by
  rw [upd, h, upd]

theorem upd_id {α : Type} {n : Nat} (v : Vector α n) (i : Fin n) : upd v i id = v :=
  Vector.set_getElem_self i.isLt

theorem damagedFrame_of_up {p : Port} {s : State} (h : s.ports[p].up = true) : damagedFrame p s = s := by
  refine congrArg (fun v => { s with ports := v }) (Eq.trans (upd_congr ?_) (upd_id s.ports p))
  exact if_pos h

theorem damagedFrame_of_down {p : Port} {s : State} (h : s.ports[p].up = false) :
    damagedFrame p s = { s with ports := upd s.ports p fun u => { u with acquire := 0 } } := by
  refine congrArg (fun v => { s with ports := v }) (upd_congr ?_)
  exact if_neg (Bool.eq_false_iff.mp h)

/-- Settles O25: a damaged frame is one that parsing refuses, and what it does is then told by its port's link. -/
theorem damagedFramesAreDiscarded : Obligations.DamagedFramesAreDiscarded := by
  intro s p bytes hcalm hloss hdamaged
  rw [exec_uplinkFrame_calm hcalm, settleDown_of_not_lost hloss, receive_of_damaged hdamaged]
  cases hup : s.ports[p].up with
  | true => rw [damagedFrame_of_up hup, if_pos rfl]
  | false => rw [damagedFrame_of_down hup, if_neg Bool.false_ne_true]

end Sys2Proof.Machine
end

section
/-! How an invariant is carried along: what every command is made of, said once (`Kept`), and the smaller list of what is left
to show of an invariant that reads only the blocks' own state (`KeptCore`). -/

namespace Sys2Proof.Machine

/-! The service of a request, by its kind (R170). -/

/-- The service that the command of a request's kind gives it. -/
def serveRequest (q : QueuedRequest) : State → State :=
  match q.req with
  | .windowOpen t fl f0 f1 l0 l1 => serveWindowOpen q t fl f0 f1 l0 l1
  | .writeEntries et n bs => serveWriteEntries q et n bs
  | .readEntries => serveReadEntries q
  | .windowClose e => serveWindowClose q e
  | .take => serveTake q
  | .revert => serveRevert q
  | .settingsWrite pr hi lo stp en mn mx => serveSettingsWrite q pr hi lo stp en mn mx
  | .setMode c m => serveSetMode q c m
  | .clearFaults => serveClearFaults q
  | .claim f => serveClaim q f
  | .release => serveRelease q
  | .heartbeat => serveHeartbeat q
  | .standby r => serveStandby q r
  | .go r f => serveGo q r f
  | .cancel c => serveCancel q c
  | .cancelAll => serveCancelAll q
  | .setRegion f l => serveSetRegion q f l
  | .setPointer r => serveSetPointer q r
  | .restoreStation st => serveRestore q st
  | .lampTest st => serveLampTest q st
  | .meterStart pt ix md => serveMeterStart q pt ix md
  | .meterStop => serveMeterStop q
  | .getStatus it num => serveGetStatus q it num
  | .softReset => serveSoftReset q

/-! What every step is made of. -/

/-- A property that each part of every command keeps. -/
structure Kept (P : State → Prop) : Prop where
  spend : ∀ s n, P s → P (s.spend n)
  line : ∀ s, P s → P { s with resetLine := true }
  powerOn : ∀ s, P s → P (powerOnState s)
  lineReset : ∀ s, P s → P (lineReset s)
  waiting : ∀ s, P s → P (placeWaiting s)
  stream : ∀ s, P s → P (streamOne s)
  due : ∀ (d : Due) s, d ≠ .service → d.isDue s = true → P s → P (d.take s)
  opens : ∀ s, P s → P (openCompletion s)
  take : ∀ s, P s → P (applyTake s)
  compose : ∀ s, P s → P (composeCompletion s)
  receive : ∀ p bytes s, P s → P (receive p bytes s)
  request : ∀ q s, s.head = some q → P s → P (serveRequest q s)

/-- A property kept by each operation of a fold is kept by the fold. -/
theorem foldl_keeps {α : Type} {P : State → Prop} {f : State → α → State} (h : ∀ s a, P s → P (f s a)) (l : List α) {s : State}
    (hs : P s) : P (l.foldl f s) := by
  induction l generalizing s with
  | nil => exact hs
  | cons a l ih => exact ih (h s a hs)

/-- A property that no choice of an order and none of the parts breaks is kept by the parts in any order. -/
theorem inAnyOrder_keeps {α : Type} {P : State → Prop} {f : α → State → State} (hspend : ∀ s n, P s → P (s.spend n))
    (h : ∀ a s, P s → P (f a s)) (n : Nat) (l : List α) {s : State} (hs : P s) : P (inAnyOrder f n l s) := by
  induction n generalizing l s with
  | zero => simpa only [inAnyOrder] using hs
  | succ n ih =>
    cases l with
    | nil => simpa only [inAnyOrder] using hs
    | cons a l => exact ih _ (h _ _ (hspend _ _ hs))

namespace Kept

variable {P : State → Prop} (h : Kept P)
include h

theorem streamAll (n : Nat) {s : State} (hs : P s) : P (streamAll n s) := by
  induction n generalizing s with
  | zero => exact hs
  | succ n ih => exact ih (h.stream s hs)

theorem settleService {s : State} (hs : P s) : P (settleService s) := by
  unfold Machine.settleService
  split
  · exact h.waiting s hs
  · exact h.streamAll _ hs
  · exact hs
  · exact hs
  · exact hs

/-- A due event, the placing of a waiting response among them. -/
theorem anyDue (d : Due) {s : State} (hd : d.isDue s = true) (hs : P s) : P (d.take s) := by
  by_cases hsv : d = .service
  · subst hsv; exact h.settleService hs
  · exact h.due d s hsv hd hs

theorem takeMark (st : Station) {s : State} (hs : P s) : P (takeMark st s) := by
  cases hm : s.faults.stations[st].mark with
  | none => rwa [takeMark_none hm]
  | some m => exact h.due (.overload st) s (by simp) (by simp [-Fin.getElem_fin, Due.isDue, hm]) hs

theorem flush {s : State} (hs : P s) : P (flush s) := by
  unfold Machine.flush countQuiet takeDues
  refine inAnyOrder_keeps h.spend (fun d t ht => ?_) _ _ (foldl_keeps (fun t st ht => h.takeMark st ht) _ hs)
  split
  · next hd => exact h.anyDue d hd ht
  · exact ht

theorem ensureOpen {s : State} (hs : P s) : P (ensureOpen s) := by
  unfold Machine.ensureOpen
  split
  · exact hs
  · exact h.opens _ (h.flush hs)

theorem atCompletion (d : Due) {s : State} (hs : P s) : P (atCompletion d s) := by
  unfold Machine.atCompletion
  split
  · next hd => exact h.anyDue d hd hs
  · split
    · next hd => exact h.anyDue d hd (h.ensureOpen hs)
    · exact hs

theorem takeEvent {s : State} (hs : P s) : P (takeEvent s) := by
  unfold Machine.takeEvent
  split
  · exact h.take s hs
  · split
    · exact h.take _ (h.ensureOpen hs)
    · exact hs

/-- What a completion forms its frames from. -/
theorem composed {s : State} (hs : P s) : P s.composed := by
  unfold State.composed
  split
  · exact h.take _ (h.ensureOpen hs)
  · exact h.ensureOpen hs

theorem settleDown (p : Port) {s : State} (hs : P s) : P (settleDown p s) := by
  unfold Machine.settleDown
  split
  · next hd => exact h.anyDue (.linkDown p) hd hs
  · exact hs

theorem linkUpEvent (p : Port) (bytes : List Byte) {s : State} (hs : P s) : P (linkUpEvent p bytes s) := by
  unfold Machine.linkUpEvent
  split
  · exact h.receive p bytes s hs
  · exact hs

theorem settleEvents {s : State} (hs : P s) : P (settleEvents s) := by
  have hsup : P (settleSupervision s) := by
    unfold settleSupervision
    split
    · next hd => exact h.anyDue .supervision hd hs
    · exact hs
  unfold Machine.settleEvents settleMeter
  split
  · next hd => exact h.anyDue .meterBlank hd hsup
  · split
    · next hd => exact h.anyDue .meterResult hd hsup
    · exact hsup

omit h in
theorem running {f : State → State} (hf : ∀ s, P s → P (f s)) {s t : State} (hs : P s) (e : running f s = .next t) :
    P t := by
  unfold Machine.running at e
  injection e with e
  subst e
  split
  · exact hs
  · exact hf s hs

theorem settled {f : State → State} (hf : ∀ s, P s → P (f s)) {s t : State} (hs : P s) (e : settled f s = .next t) :
    P t :=
  running (fun _ hu => hf _ (h.settleService hu)) hs e

theorem serveHead {pre : State → State} {sel : QueuedRequest → Option (State → State)} (hpre : ∀ s, P s → P (pre s))
    (hsel : ∀ q f, sel q = some f → f = serveRequest q) {s : State} (hs : P s) : P (serveHead pre sel s) := by
  unfold Machine.serveHead
  split
  · next f hf =>
    obtain ⟨q, hq, hqf⟩ := Option.bind_eq_some_iff.mp hf
    rw [hsel q f hqf]
    exact h.request q _ hq (hpre s hs)
  · exact hs

theorem serving {sel : QueuedRequest → Option (State → State)} (hsel : ∀ q f, sel q = some f → f = serveRequest q)
    {s t : State} (hs : P s) (e : serving sel s = .next t) : P t :=
  h.settled (fun _ hu => h.serveHead (fun _ hv => h.settleEvents hv) hsel hu) hs e

/-- A completion is composed from what its timers and its Take leave (R38). -/
theorem blockCompletion {s : State} (hs : P s) : P (blockCompletion s) := by
  have hc : P (composeCompletion s.composed) := h.compose _ (h.composed hs)
  unfold State.composed at hc
  exact hc

/-- Every command keeps the property. -/
theorem exec (c : Instr) {s t : State} (hs : P s) (e : exec c s = .next t) : P t := by
  cases c
  case powerOn => cases e; exact h.powerOn s hs
  case resetLineAssert => cases e; exact h.line s hs
  case resetLineRelease =>
    have e' : (if s.resetLine then Machine.lineReset s else s) = t := by injection e
    subst e'
    split
    · exact h.lineReset s hs
    · exact hs
  case blockCompletion =>
    exact h.settled (fun u hu => h.blockCompletion hu) hs e
  case uplinkFrame p bytes => exact h.settled (fun u hu => h.receive p bytes _ (h.settleDown p hu)) hs e
  case linkUp p bytes => exact h.settled (fun u hu => h.linkUpEvent p bytes (h.settleDown p hu)) hs e
  case takeApply => exact h.settled (fun u hu => h.takeEvent hu) hs e
  case responsePlacedAfterWait => exact running h.waiting hs e
  case readEntriesContinue => exact running h.stream hs e
  case getStatus =>
    refine h.settled (fun u hu => h.serveHead (fun _ hv => h.flush hv) ?_ hu) hs e
    intro q f hf
    split at hf
    · next hq => rw [← Option.some.inj hf]; simp only [serveRequest, hq]
    · cases hf
  case overloadCount | linkDown | callHoldExpiry | ackDeadlineExpiry | goHoldExpiry | followCountdownExpiry
      | switchoverTimeout | supervisionWindowExpiry | lampTestExpiry | meterBlankEnd | meterResult | restoreApply
      | softResetEffect =>
    exact h.settled (fun u hu => h.atCompletion _ hu) hs e
  all_goals
    refine h.serving ?_ hs e
    intro q f hf
    split at hf
    · next hq => rw [← Option.some.inj hf]; simp only [serveRequest, hq]
    · cases hf

/-- Every step keeps a property that does not look at the commands that wait. -/
theorem step (hp : ∀ s l, P s → P { s with pending := l }) {s t : State} (hs : P s) (e : step s = .next t) : P t := by
  unfold Machine.step at e
  split at e
  · injection e with e; rwa [← e]
  · exact h.exec _ (hp s _ hs) e

end Kept

end Sys2Proof.Machine
end

section
namespace Sys2Proof.Machine

/-! What the response, the request queue and the windows leave alone. -/

/-- `t` agrees with `s` in the commands that wait and in the blocks' own state: all but the Take that waits, the marks of
the windows, the outbound queues and the management processor. -/
structure SameBlocks (s t : State) : Prop where
  pending : t.pending = s.pending
  live : t.live = s.live
  edit : t.edit = s.edit
  arb : t.arb = s.arb
  mix : t.mix = s.mix
  records : t.table.records = s.table.records
  fixedSize : t.table.fixedSize = s.table.fixedSize
  seqSize : t.table.seqSize = s.table.seqSize
  pointer : t.table.pointer = s.table.pointer
  cues : t.cues = s.cues
  lamps : t.lamps = s.lamps
  auth : t.auth = s.auth
  ports : t.ports = s.ports
  homing : t.homing = s.homing
  faults : t.faults = s.faults

namespace SameBlocks

theorem refl (s : State) : SameBlocks s s := by constructor <;> rfl

theorem trans {s t u : State} (h : SameBlocks s t) (k : SameBlocks t u) : SameBlocks s u where
  pending := k.pending.trans h.pending
  live := k.live.trans h.live
  edit := k.edit.trans h.edit
  arb := k.arb.trans h.arb
  mix := k.mix.trans h.mix
  records := k.records.trans h.records
  fixedSize := k.fixedSize.trans h.fixedSize
  seqSize := k.seqSize.trans h.seqSize
  pointer := k.pointer.trans h.pointer
  cues := k.cues.trans h.cues
  lamps := k.lamps.trans h.lamps
  auth := k.auth.trans h.auth
  ports := k.ports.trans h.ports
  homing := k.homing.trans h.homing
  faults := k.faults.trans h.faults

end SameBlocks

theorem modMgmt_same (f : Management → Management) (s : State) : SameBlocks s (s.modMgmt f) := by constructor <;> rfl

theorem modOut_same (p : Port) (f : Outbound → Outbound) (s : State) : SameBlocks s (s.modOut p f) := by
  constructor <;> rfl

theorem setOut_same (v : Vector Outbound 24) (s : State) : SameBlocks s { s with out := v } := by constructor <;> rfl

theorem setTakeWaiting_same (l : List TakeWait) (s : State) : SameBlocks s { s with takeWaiting := l } := by
  constructor <;> rfl

theorem closeCompletion_same (o d : Bool) (s : State) : SameBlocks s { s with opened := o, takeDue := d } := by
  constructor <;> rfl

theorem setTakePending_same (o : Option TakeOrigin) (s : State) : SameBlocks s { s with takePending := o } := by
  constructor <;> rfl

theorem clearMark_same (s : State) : SameBlocks s { s with unverified := false } := by constructor <;> rfl

theorem clearLost_same (p : Port) (i : StatusItem) (s : State) : SameBlocks s (clearLost p i s) := by
  unfold clearLost
  split
  · exact modOut_same p _ s
  · exact .refl s

theorem spend_same (n : Nat) (s : State) : SameBlocks s (s.spend n) := by
  unfold State.spend
  split
  · exact .refl s
  · constructor <;> rfl

theorem broadcast_same (m : Message) (s : State) : SameBlocks s (broadcast m s) := setOut_same _ s

theorem placeReport_same (p : Port) (m : Message) (s : State) : SameBlocks s (placeReport p m s) := modOut_same p _ s

theorem cueReport_same (m : Message) (s : State) : SameBlocks s (cueReport m s) := by
  unfold cueReport
  split
  · exact placeReport_same _ _ s
  · exact .refl s

theorem reportCue_same (k : Nat) (c : CueIx) (d1 d2 d3 : Nat) (s : State) : SameBlocks s (reportCue k c d1 d2 d3 s) :=
  cueReport_same _ s

theorem reportHoming_same (k : Nat) (st : Station) (r : List Byte) (s : State) : SameBlocks s (reportHoming k st r s) :=
  broadcast_same _ s

theorem placeResponse_same {p : Port} {m : Message} {s t : State} (h : placeResponse p m s = some t) : SameBlocks s t := by
  obtain ⟨o, -, rfl⟩ := Option.map_eq_some_iff.mp h
  exact setOut_same _ s

theorem finishService_same (s : State) : SameBlocks s (finishService s) := modMgmt_same _ s

theorem respond_same (q : QueuedRequest) (r : Result) (body : List Byte) (s : State) :
    SameBlocks s (respond q r body s) := by
  unfold respond
  dsimp only
  split
  · next t ht => exact (placeResponse_same ht).trans (finishService_same t)
  · exact modMgmt_same _ s

theorem takeRespond_same (p : Port) (tag : Byte) (r : Result) (s : State) : SameBlocks s (takeRespond p tag r s) := by
  unfold takeRespond
  dsimp only
  split
  · next t ht => exact placeResponse_same ht
  · exact setTakeWaiting_same _ s

theorem takeAnswer_same (o : TakeOrigin) (r : Result) (s : State) : SameBlocks s (takeAnswer o r s) := by
  unfold takeAnswer
  split
  · exact takeRespond_same _ _ _ s
  · exact .refl s

theorem abandonTake_same (o : TakeOrigin) (s : State) : SameBlocks s (abandonTake o s) := by
  unfold abandonTake
  split
  · exact takeRespond_same _ _ _ s
  · exact reportCue_same _ _ _ _ _ s

theorem setService_same (v : Service) (s : State) : SameBlocks s (setService v s) := modMgmt_same _ s

theorem placeWaiting_same (s : State) : SameBlocks s (placeWaiting s) := by
  unfold placeWaiting
  split
  · split
    · next t ht =>
      split
      · exact (placeResponse_same ht).trans (setService_same _ t)
      · exact (placeResponse_same ht).trans (finishService_same t)
    · exact .refl s
  · exact .refl s

theorem noteReset_same (left : Bool) (s : State) : SameBlocks s (noteReset left s) := by
  unfold noteReset
  split
  · exact setService_same _ s
  · exact .refl s

theorem putMeter_same (r : MixResult) (s : State) : SameBlocks s (putMeter r s) := modMgmt_same _ s

theorem streamOne_same (s : State) : SameBlocks s (streamOne s) := by
  unfold streamOne
  split
  · dsimp only
    split
    · next t ht =>
      split
      · exact (placeResponse_same ht).trans (finishService_same t)
      · exact (placeResponse_same ht).trans (setService_same _ t)
    · exact .refl s
  · exact .refl s

theorem streamAll_same (n : Nat) (s : State) : SameBlocks s (streamAll n s) := by
  induction n generalizing s with
  | zero => exact .refl s
  | succ n ih => exact (streamOne_same s).trans (ih _)

theorem setUnverified_same (t : Table) (s : State) : SameBlocks s (setUnverified t s) := by
  cases t <;> constructor <;> rfl

theorem clearUnverified_same (t : Table) (s : State) : SameBlocks s (clearUnverified t s) := by
  cases t <;> constructor <;> rfl

theorem endWindow_same (s : State) : SameBlocks s (endWindow s) := by
  rw [endWindow_eq]
  constructor <;> rfl

theorem closeMark_same (w : Window) (e : Option Word) (s : State) : SameBlocks s (closeMark w e s) := by
  unfold closeMark
  split
  · exact setUnverified_same _ s
  · split
    · exact clearUnverified_same _ s
    · exact .refl s

theorem resetMarks_same (s : State) : SameBlocks s (resetMarks s) := by
  unfold resetMarks
  split
  · split
    · exact setUnverified_same _ s
    · exact .refl s
  · exact .refl s

theorem abortMeter_same (s : State) : SameBlocks s (abortMeter s) := by
  unfold abortMeter
  split
  · exact (modMgmt_same _ s).trans (placeReport_same _ _ _)
  · exact .refl s

theorem reportMeter_same (s : State) : SameBlocks s (reportMeter s) := by
  unfold reportMeter
  split
  · exact (modMgmt_same _ s).trans (placeReport_same _ _ _)
  · exact .refl s

theorem placeTakeWaiting_same (s : State) : SameBlocks s (placeTakeWaiting s) := by
  unfold placeTakeWaiting
  refine foldl_keeps (P := SameBlocks s) (fun t w ht => ?_) _ (setTakeWaiting_same _ s)
  split
  · split
    · next u hu => exact ht.trans (placeResponse_same hu)
    · exact ht.trans (setTakeWaiting_same _ t)
  · exact ht.trans (setTakeWaiting_same _ t)

theorem answer_same (p : Port) (k t : Byte) (r : Result) (s : State) : SameBlocks s (answer p k t r s) :=
  modOut_same p _ s

theorem arriveArea_same (p : Port) (area : List Byte) (s : State) : SameBlocks s (arriveArea p area s) := by
  unfold arriveArea
  refine foldl_keeps (P := SameBlocks s) (fun t m ht => ht.trans ?_) _ (.refl s)
  unfold arrive
  split
  · exact answer_same _ _ _ _ t
  · split
    · exact answer_same _ _ _ _ t
    · split
      · exact answer_same _ _ _ _ t
      · exact modMgmt_same _ t

/-! The events that are no frame, no completion and no reset. -/

theorem putMarks_stays (s : State) : Stays s (putMarks s) := setFaults_stays _ s

/-- The events of the last completion that leave the links, the request queue and the part as a whole alone (`Stays`). -/
def Due.ofBlocks : Due → Bool
  | .linkDown _ => false
  | .meterBlank => false
  | .meterResult => false
  | .service => false
  | .softReset => false
  | _ => true

theorem takeMark_stays (st : Station) (s : State) : Stays s (takeMark st s) := by
  unfold takeMark
  split
  · exact countMark_stays _ _ s
  · exact Stays.refl s

theorem due_stays {d : Due} (h : d.ofBlocks = true) (s : State) : Stays s (d.take s) := by
  cases d with
  | callHold n => exact modArb_stays (·.setCall n .idle) s
  | deadline c => exact expireDeadline_stays c s
  | goHold c => exact expireGoHold_stays c s
  | follow c => exact expireFollow_stays c s
  | switchover st => exact enterIsolated_stays _ _ _ s
  | supervision => exact expireSupervision_stays s
  | lamp st => exact modLamps_stays (·.endTest st) s
  | restore st => exact applyRestore_stays st s
  | overload st => exact takeMark_stays st s
  | linkDown | meterBlank | meterResult | service | softReset => simp [Due.ofBlocks] at h

/-- The effects of requests on the blocks, apart from the writing of entries, the Revert, the settings and the split. -/
inductive Served : State → State → Prop where
  | setMode (c m s) : Served s (setMode c m s)
  | clearFaults (s) : Served s (clearFaults s)
  | claim (p f s) : Served s (claim p f s).2
  | release (s) : Served s (releaseAuthority s)
  | heartbeat (s) : Served s (heartbeat s).2
  | standby (c s) : Served s (standbyCue c s).2
  | go (c f s) : Served s (goCue c f s).2
  | cancel (c s) : Served s (cancelCue c s).2
  | cancelAll (s) : Served s (s.cancellable.foldl (fun t c => cancelEntry c t) s)
  | restore (st s) : Served s (restoreStation st s).2
  | lampTest (st s) : Served s (lampTest st s).2

theorem claim_stays (p : Port) (f : Bool) (s : State) : Stays s (claim p f s).2 := by
  unfold claim
  split
  · exact Stays.refl s
  · split
    · exact Stays.refl s
    · split
      · exact Stays.refl s
      · split
        · exact grant_stays _ _ s
        · split
          · exact Stays.refl s
          · split
            · exact forceAuthority_stays _ s
            · exact Stays.refl s

theorem heartbeat_stays (s : State) : Stays s (heartbeat s).2 := by
  unfold heartbeat
  split
  · exact Stays.refl s
  · split
    · exact modAuth_stays (fun a => { a with window := some SupWindow.start, deskCond := false }) s
    · exact deskFault_stays _ s

theorem standbyCue_stays (c : CueIx) (s : State) : Stays s (standbyCue c s).2 := by
  unfold standbyCue
  split
  · exact Stays.refl s
  · split
    · exact Stays.refl s
    · next hc =>
      split
      · exact Stays.refl s
      · next hl => exact placeInStandby_stays c s (Bool.eq_false_iff.mpr hc) (Nat.lt_of_not_le hl)

theorem goCue_stays (c : CueIx) (f : Bool) (s : State) : Stays s (goCue c f s).2 := by
  unfold goCue
  split
  · exact Stays.refl s
  · split
    · exact Stays.refl s
    · split
      · exact Stays.refl s
      · exact entryGoes_stays c f s

theorem cancelCue_stays (c : CueIx) (s : State) : Stays s (cancelCue c s).2 := by
  unfold cancelCue
  split
  · exact Stays.refl s
  · split
    · exact Stays.refl s
    · exact cancelEntry_stays c s

theorem restoreStation_stays (st : Station) (s : State) : Stays s (restoreStation st s).2 := by
  unfold restoreStation
  split
  · exact Stays.refl s
  · exact modHoming_stays _ _ s

theorem lampTest_stays (st : Station) (s : State) : Stays s (lampTest st s).2 := by
  unfold lampTest
  split
  · exact Stays.refl s
  · exact modLamps_stays (·.startTest st (s.station st).lamps) s

theorem Served.stays {s t : State} (h : Served s t) : Stays s t := by
  cases h with
  | setMode c m => exact setMode_stays c m s
  | clearFaults => exact clearFaults_stays s
  | claim p f => exact claim_stays p f s
  | release => exact releaseAuthority_stays s
  | heartbeat => exact heartbeat_stays s
  | standby c => exact standbyCue_stays c s
  | go c f => exact goCue_stays c f s
  | cancel c => exact cancelCue_stays c s
  | cancelAll => exact Stays.foldl (fun t c => cancelEntry_stays c t) _ s
  | restore st => exact restoreStation_stays st s
  | lampTest st => exact lampTest_stays st s

/-! The services of requests. -/

/-- What is left to show of a property that the service of every request keeps. -/
structure KeptServed (P : State → Prop) : Prop where
  respond : ∀ q r body s, P s → P (respond q r body s)
  finish : ∀ s, P s → P (finishService s)
  ended : ∀ s, P s → P (endWindow s)
  place : ∀ p m s t, placeResponse p m s = some t → P s → P t
  service : ∀ v s, P s → P (setService v s)
  window : ∀ w s, P s → P (s.modMgmt fun m => { m with window := w })
  meter : ∀ x s, P s → P (s.modMgmt fun m => { m with meter := x })
  stream : ∀ s, P s → P (streamOne s)
  mark : ∀ w e s, P s → P (closeMark w e s)
  abort : ∀ s, P s → P (abortMeter s)
  lost : ∀ p i s, P s → P (clearLost p i s)
  taken : ∀ o s, P s → P { s with takePending := o }
  served : ∀ s t, Served s t → P s → P t
  entry : ∀ t y i bs s, P s → P (writeEntry t y i bs s).2
  revert : ∀ s, P s → P { s with edit := s.live, unverified := false }
  settings : ∀ v s, SettingsOk v → P s → P (putSettings v s)
  region : ∀ f q s, legalSplit f q = true → P s → P (s.modTable (·.setRegion f q))
  pointer : ∀ r t s, s.table.setPointer r = some t → P s → P { s with table := t }

/-- R178: a Settings Write that is not refused carries settings in their ranges. -/
theorem settingsOf_ok {prog high low : Byte} {step : Nat} {enable : Byte} {smin smax : Nat} {v : Settings}
    (h : settingsOf prog high low step enable smin smax = some v) : SettingsOk v := by
  unfold settingsOf at h
  split at h
  · next hok =>
    simp only [Bool.and_eq_true, decide_eq_true_eq] at hok
    cases h
    unfold SettingsOk
    dsimp only
    omega
  · cases h

namespace KeptServed

variable {P : State → Prop} (h : KeptServed P)
include h

theorem streamAll (n : Nat) {s : State} (hs : P s) : P (streamAll n s) := by
  induction n generalizing s with
  | zero => exact hs
  | succ n ih => exact ih (h.stream s hs)

theorem writeAll (len n : Nat) (bs : List Byte) (w : Window) {s : State} (hs : P s) :
    P (writeAll len n bs w s).2.2 := by
  induction n generalizing bs w s with
  | zero => exact hs
  | succ n ih =>
    refine ih _ _ ?_
    unfold writeNext
    split
    · exact hs
    · exact h.entry _ _ _ _ s hs

theorem windows (q : QueuedRequest) {s : State} (hs : P s) :
    (∀ t fl f0 f1 l0 l1, P (serveWindowOpen q t fl f0 f1 l0 l1 s)) ∧ (∀ et n bs, P (serveWriteEntries q et n bs s))
      ∧ P (serveReadEntries q s) ∧ ∀ e, P (serveWindowClose q e s) := by
  refine ⟨fun t fl f0 f1 l0 l1 => ?_, fun et n bs => ?_, ?_, fun e => ?_⟩
  · unfold serveWindowOpen
    dsimp only
    split
    · exact h.respond _ _ _ _ (h.window _ _ (h.ended s hs))
    · exact h.respond _ _ _ _ (h.ended s hs)
  · unfold serveWriteEntries
    split
    · exact h.respond _ _ _ _ hs
    · split
      · exact h.respond _ _ _ _ hs
      · split
        · exact h.respond _ _ _ _ hs
        · exact h.respond _ _ _ _ (h.window _ _ (h.writeAll _ _ _ _ hs))
  · unfold serveReadEntries
    split
    · exact h.respond _ _ _ _ hs
    · split
      · exact h.respond _ _ _ _ hs
      · exact h.streamAll _ (h.service _ s hs)
  · unfold serveWindowClose
    split
    · exact h.respond _ _ _ _ hs
    · split
      · exact h.respond _ _ _ _ (h.ended s hs)
      · exact h.respond _ _ _ _ (h.mark _ _ _ (h.window _ s hs))

theorem banks (q : QueuedRequest) {s : State} (hs : P s) : P (serveTake q s) ∧ P (serveRevert q s) := by
  constructor
  · unfold serveTake
    dsimp only
    split
    · exact h.respond _ _ _ _ (h.ended s hs)
    · split
      · exact h.respond _ _ _ _ (h.ended s hs)
      · exact h.finish _ (h.taken _ _ (h.ended s hs))
  · unfold serveRevert
    dsimp only
    split
    · exact h.respond _ _ _ _ (h.ended s hs)
    · exact h.respond _ _ _ _ (h.revert _ (h.ended s hs))

theorem settingsWrite (q : QueuedRequest) {s : State} (hs : P s) (pr hi lo : Byte) (stp : Nat) (en : Byte) (mn mx : Nat) :
    P (serveSettingsWrite q pr hi lo stp en mn mx s) := by
  unfold serveSettingsWrite
  split
  · next v hv => exact h.respond _ _ _ _ (h.settings v _ (settingsOf_ok hv) (h.ended s hs))
  · exact h.respond _ _ _ _ (h.ended s hs)

/-- A service that ends the window, has one effect on the blocks and responds. -/
theorem effect (q : QueuedRequest) (r : Result) (body : List Byte) {s t : State} (hs : P s)
    (ht : t = endWindow s ∨ Served (endWindow s) t) : P (Machine.respond q r body t) := by
  refine h.respond _ _ _ _ ?_
  obtain rfl | ht := ht
  · exact h.ended s hs
  · exact h.served _ _ ht (h.ended s hs)

theorem region_pointer (q : QueuedRequest) {s : State} (hs : P s) :
    (∀ f l, P (serveSetRegion q f l s)) ∧ ∀ r, P (serveSetPointer q r s) := by
  constructor
  · intro f l
    unfold serveSetRegion setRegion
    dsimp only
    split
    · exact h.respond _ _ _ _ (h.ended s hs)
    · refine h.respond _ _ _ _ ?_
      split
      · exact h.ended s hs
      · next hl =>
        split
        · exact h.ended s hs
        · exact h.region _ _ _ (by simpa using hl) (h.ended s hs)
  · intro r
    unfold serveSetPointer setPointer
    dsimp only
    split
    · exact h.respond _ _ _ _ (h.ended s hs)
    · refine h.respond _ _ _ _ ?_
      split
      · next t ht => exact h.pointer r t _ ht (h.ended s hs)
      · exact h.ended s hs

theorem meters (q : QueuedRequest) {s : State} (hs : P s) :
    (∀ p i m, P (serveMeterStart q p i m s)) ∧ P (serveMeterStop q s) := by
  constructor
  · intro p i m
    unfold serveMeterStart
    dsimp only
    split
    · exact h.respond _ _ _ _ (h.meter _ _ (h.abort _ (h.ended s hs)))
    · exact h.respond _ _ _ _ (h.ended s hs)
  · exact h.respond _ _ _ _ (h.meter _ _ (h.ended s hs))

theorem status (q : QueuedRequest) {s : State} (hs : P s) (it num : Byte) : P (serveGetStatus q it num s) := by
  unfold serveGetStatus
  dsimp only
  split
  · exact h.respond _ _ _ _ (h.lost _ _ _ (h.ended s hs))
  · exact h.respond _ _ _ _ (h.ended s hs)

theorem softReset (q : QueuedRequest) {s : State} (hs : P s) : P (serveSoftReset q s) := by
  unfold serveSoftReset
  dsimp only
  split
  · next t ht => exact h.service _ _ (h.place _ _ _ _ ht (h.ended s hs))
  · exact h.service _ _ (h.ended s hs)

/-- The requests of the cue controller and of the authority unit. -/
theorem effects (q : QueuedRequest) {s : State} (hs : P s) :
    (∀ r, P (serveStandby q r s)) ∧ (∀ r f, P (serveGo q r f s)) ∧ (∀ c, P (serveCancel q c s)) ∧ P (serveCancelAll q s)
      ∧ P (serveRelease q s) ∧ P (serveHeartbeat q s) := by
  refine ⟨fun r => ?_, fun r f => ?_, fun c => ?_, ?_, ?_, ?_⟩
  · unfold serveStandby
    dsimp only
    split
    · exact h.effect _ _ _ hs (.inl rfl)
    · split
      · exact h.effect _ _ _ hs (.inl rfl)
      · split
        · exact h.effect _ _ _ hs (.inl rfl)
        · exact h.effect _ _ _ hs (.inr (.standby _ _))
  · unfold serveGo
    dsimp only
    split
    · exact h.effect _ _ _ hs (.inl rfl)
    · split
      · exact h.effect _ _ _ hs (.inl rfl)
      · exact h.effect _ _ _ hs (.inr (.go _ _ _))
  · unfold serveCancel
    dsimp only
    split
    · exact h.effect _ _ _ hs (.inl rfl)
    · exact h.effect _ _ _ hs (.inr (.cancel _ _))
  · unfold serveCancelAll
    dsimp only
    split
    · exact h.effect _ _ _ hs (.inl rfl)
    · exact h.effect _ _ _ hs (.inr (.cancelAll _))
  · unfold serveRelease
    dsimp only
    split
    · exact h.effect _ _ _ hs (.inr (.release _))
    · exact h.effect _ _ _ hs (.inl rfl)
  · unfold serveHeartbeat
    dsimp only
    split
    · exact h.effect _ _ _ hs (.inr (.heartbeat _))
    · exact h.effect _ _ _ hs (.inl rfl)

/-- The service of every request keeps the property. -/
theorem request (q : QueuedRequest) {s : State} (hs : P s) : P (serveRequest q s) := by
  obtain ⟨hstandby, hgo, hcancel, hcancelAll, hrelease, hheartbeat⟩ := h.effects q hs
  obtain ⟨hopen, hwrite, hread, hclose⟩ := h.windows q hs
  unfold serveRequest
  cases q.req <;> dsimp only
  · exact hopen _ _ _ _ _ _
  · exact hwrite _ _ _
  · exact hread
  · exact hclose _
  · exact (h.banks q hs).1
  · exact (h.banks q hs).2
  · exact h.settingsWrite q hs _ _ _ _ _ _ _
  · unfold serveSetMode
    split
    · exact h.effect _ _ _ hs (.inr (.setMode _ _ _))
    · exact h.effect _ _ _ hs (.inl rfl)
  · unfold serveClearFaults
    exact h.effect _ _ _ hs (.inr (.clearFaults _))
  · unfold serveClaim
    exact h.effect _ _ _ hs (.inr (.claim _ _ _))
  · exact hrelease
  · exact hheartbeat
  · exact hstandby _
  · exact hgo _ _
  · exact hcancel _
  · exact hcancelAll
  · exact (h.region_pointer q hs).1 _ _
  · exact (h.region_pointer q hs).2 _
  · unfold serveRestore
    dsimp only
    split
    · exact h.effect _ _ _ hs (.inl rfl)
    · exact h.effect _ _ _ hs (.inr (.restore _ _))
  · unfold serveLampTest
    dsimp only
    split
    · exact h.effect _ _ _ hs (.inl rfl)
    · exact h.effect _ _ _ hs (.inr (.lampTest _ _))
  · exact (h.meters q hs).1 _ _ _
  · exact (h.meters q hs).2
  · exact h.status q hs _ _
  · exact h.softReset q hs

end KeptServed

/-! An invariant of the blocks. -/

/-- What is left to show of an invariant that reads only the blocks' own state. -/
structure KeptCore (P : State → Prop) : Prop where
  same : ∀ s t, SameBlocks s t → P s → P t
  powerOn : ∀ s, P s → P (powerOnState s)
  lineReset : ∀ s, P s → P (lineReset s)
  softReset : ∀ s, P s → P (applySoftReset s)
  linkDown : ∀ p s, P s → P (takeDown p s)
  due : ∀ (d : Due) s, d.ofBlocks = true → d.isDue s = true → P s → P (d.take s)
  opens : ∀ s, P s → P (openCompletion s)
  copyTake : ∀ o s, P s → P (copyTake o s)
  compose : ∀ s, P s → P (composeCompletion s)
  frame : ∀ p f s, P s → P (validFrame p f s)
  damaged : ∀ p s, P s → P (damagedFrame p s)
  served : ∀ s t, Served s t → P s → P t
  entry : ∀ t y i bs s, P s → P (writeEntry t y i bs s).2
  revert : ∀ s, P s → P { s with edit := s.live }
  supervise : ∀ s, P s → P (judgeSupervision s)
  region : ∀ f q s, legalSplit f q = true → P s → P (s.modTable (·.setRegion f q))
  pointer : ∀ r t s, s.table.setPointer r = some t → P s → P { s with table := t }

namespace KeptCore

variable {P : State → Prop} (h : KeptCore P)
include h

theorem modMgmt (f : Management → Management) {s : State} (hs : P s) : P (s.modMgmt f) := h.same _ _ (modMgmt_same f s) hs

theorem served_kept : KeptServed P where
  respond q r body s hs := h.same _ _ (respond_same q r body s) hs
  finish s hs := h.same _ _ (finishService_same s) hs
  ended s hs := h.same _ _ (endWindow_same s) hs
  place p m s t ht hs := h.same _ _ (placeResponse_same ht) hs
  service v s hs := h.same _ _ (setService_same v s) hs
  window w s hs := h.modMgmt _ hs
  meter x s hs := h.modMgmt _ hs
  stream s hs := h.same _ _ (streamOne_same s) hs
  mark w e s hs := h.same _ _ (closeMark_same w e s) hs
  abort s hs := h.same _ _ (abortMeter_same s) hs
  lost p i s hs := h.same _ _ (clearLost_same p i s) hs
  taken o s hs := h.same s _ (setTakePending_same o s) hs
  served := h.served
  entry := h.entry
  revert s hs := h.same _ _ (clearMark_same { s with edit := s.live }) (h.revert s hs)
  settings v s _ hs := h.supervise _ (h.modMgmt _ hs)
  region := h.region
  pointer := h.pointer

theorem applyTake {s : State} (hs : P s) : P (applyTake s) := by
  unfold Machine.applyTake
  split
  · exact hs
  · next o _ =>
    have h1 : P { s with takePending := none, takeDue := false } := h.same s _ (by constructor <;> rfl) hs
    dsimp only
    split
    · exact h.same _ _ (abandonTake_same o _) h1
    · exact h.copyTake o _ h1

theorem receive (p : Port) (bytes : List Byte) {s : State} (hs : P s) : P (receive p bytes s) := by
  unfold Machine.receive
  split
  · exact h.damaged p s hs
  · split
    · exact hs
    · exact h.frame p _ s hs

theorem anyDue (d : Due) {s : State} (hd : d.isDue s = true) (hs : P s) : P (d.take s) := by
  cases hb : d.ofBlocks with
  | true => exact h.due d s hb hd hs
  | false =>
    cases d with
    | linkDown p => exact h.linkDown p s hs
    | meterBlank => exact h.modMgmt (fun g => { g with meter := g.meter.map Meter.startWindow }) hs
    | meterResult => exact h.same _ _ (reportMeter_same s) hs
    | softReset => exact h.softReset s hs
    | service =>
      show P (settleService s)
      unfold settleService
      split
      · exact h.same _ _ (placeWaiting_same s) hs
      · exact h.same _ _ (streamAll_same _ s) hs
      · exact hs
      · exact hs
      · exact hs
    | _ => simp [Due.ofBlocks] at hb

/-- An invariant of the blocks is kept by every part of every command. -/
theorem kept : Kept P where
  spend s n hs := h.same _ _ (spend_same n s) hs
  line s hs := h.same s _ (by constructor <;> rfl) hs
  powerOn := h.powerOn
  lineReset := h.lineReset
  waiting s hs := h.same _ _ (placeWaiting_same s) hs
  stream s hs := h.same _ _ (streamOne_same s) hs
  due d s _ hd hs := h.anyDue d hd hs
  opens := h.opens
  take s hs := h.applyTake hs
  compose := h.compose
  receive p bytes s hs := h.receive p bytes hs
  request q s _ hs := h.served_kept.request q hs

/-- Every step keeps an invariant of the blocks that does not look at the commands that wait. -/
theorem step (hp : ∀ s l, P s → P { s with pending := l }) {s t : State} (hs : P s) (e : Machine.step s = .next t) : P t :=
  h.kept.step hp hs e

end KeptCore

end Sys2Proof.Machine
end

section
/-! Invariants that the events of the blocks keep (`Stays`): what is left to show of one (`KeptStays`); the bounds of the
banks, of the active cue list and the pointer, of the port units and of the duck gains. -/

namespace Sys2Proof.Machine

/-- The changes of one port unit at a frame, at a completion and as its link goes DOWN. -/
inductive UnitStep : (PortUnit → PortUnit) → Prop where
  | down : UnitStep PortUnit.down
  | valid (seq) : UnitStep fun u => (u.valid seq).acquireStep
  | damaged : UnitStep fun u => if u.up then u else { u with acquire := 0 }
  | contents (b : Block) : UnitStep fun u => { u with latest := b, fresh := true }
  | tick : UnitStep PortUnit.tick

/-- What is left to show of an invariant that reads the blocks' own state and that every `Stays` keeps. -/
structure KeptStays (P : State → Prop) : Prop where
  same : ∀ s t, SameBlocks s t → P s → P t
  stays : ∀ s t, Stays s t → P s → P t
  powerOn : ∀ s, P s → P (powerOnState s)
  lineReset : ∀ s, P s → P (lineReset s)
  softReset : ∀ s, P s → P (applySoftReset s)
  unit : ∀ p f s, UnitStep f → P s → P (s.modPort p f)
  slots : ∀ s, P s → P (setSlots s)
  frames : ∀ l s, P s → P (sendFrames l s)
  unjudge : ∀ o n s, P s → P (unjudgePorts o n s)
  opens : ∀ s, P s → P (openCompletion s)
  copy : ∀ s, P s → P { s with live := s.edit }
  mix : ∀ s t, P s → P t → P { t with mix := { duck := s.computeMix.duck, clip := s.computeMix.clip } }
  entry : ∀ t y i bs s, P s → P (writeEntry t y i bs s).2
  revert : ∀ s, P s → P { s with edit := s.live }
  region : ∀ f q s, legalSplit f q = true → P s → P (s.modTable (·.setRegion f q))
  pointer : ∀ r t s, s.table.setPointer r = some t → P s → P { s with table := t }

namespace KeptStays

variable {P : State → Prop} (h : KeptStays P)
include h

theorem takeDown (p : Port) {s : State} (hs : P s) : P (takeDown p s) := by
  unfold Machine.takeDown
  refine h.stays _ _ ((authPortDown_stays p _).trans (judgePort_stays p _)) (h.unit p _ _ .down ?_)
  split
  · split
    · exact hs
    · exact h.stays _ _ (modArb_stays _ s) hs
  · exact hs

theorem validFrame (p : Port) (f : UplinkFrame) {s : State} (hs : P s) : P (validFrame p f s) := by
  unfold Machine.validFrame
  have h1 : P (judgePort p (s.modPort p fun u => (u.valid f.seq).acquireStep)) :=
    h.stays _ _ (judgePort_stays p _) (h.unit p _ s (.valid _) hs)
  dsimp only
  split
  · unfold takeContents
    exact h.same _ _ (arriveArea_same _ _ _) (h.stays _ _ (takeLevels_stays _ _ _ _) (h.unit p _ _ (.contents _) h1))
  · exact h1

theorem copyTake (o : TakeOrigin) {s : State} (hs : P s) : P (copyTake o s) := by
  unfold Machine.copyTake
  exact h.stays _ _ (handTake_stays _ _) (h.same _ _ (takeAnswer_same _ _ _) (h.unjudge _ _ _ (h.copy s hs)))

theorem portTick (p : Port) {s : State} (hs : P s) : P (portTick p s) :=
  h.stays _ _ (judgePort_stays p _) (h.unit p _ s .tick hs)

theorem tickPorts {s : State} (hs : P s) : P (tickPorts s) :=
  inAnyOrder_keeps (fun s n => h.same _ _ (spend_same n s)) (fun p _ ht => h.portTick p ht) _ _
    (foldl_keeps (fun _ p ht => h.portTick p ht) _ hs)

theorem compose {s : State} (hs : P s) : P (composeCompletion s) := by
  have hslots : P (setSlots s) := h.slots s hs
  have hsent : P (noteReset (setSlots s).resetLeaves
      (placeTakeWaiting (sendFrames (setSlots s).computeMix.listen (setSlots s)))) :=
    h.same _ _ ((placeTakeWaiting_same _).trans (noteReset_same _ _)) (h.frames _ _ hslots)
  unfold composeCompletion
  dsimp only
  generalize noteReset _ _ = t at hsent
  have hmix : P (putMix (setSlots s).computeMix t) :=
    h.stays _ _ (Stays.foldl (fun t st => clipPresent_stays st t) _ _) (h.mix _ _ hslots hsent)
  generalize putMix _ t = u at hmix
  have hput : P (putMeter (setSlots s).computeMix (putMarks u)) :=
    h.same _ _ (putMeter_same _ _) (h.stays _ _ (putMarks_stays u) hmix)
  exact h.same _ _ (closeCompletion_same _ _ _) (h.tickPorts hput)

theorem core : KeptCore P where
  same := h.same
  powerOn := h.powerOn
  lineReset := h.lineReset
  softReset := h.softReset
  linkDown p s hs := h.takeDown p hs
  due d s hb _ hs := h.stays _ _ (due_stays hb s) hs
  opens := h.opens
  copyTake o s hs := h.copyTake o hs
  compose s hs := h.compose hs
  frame p f s hs := h.validFrame p f hs
  damaged p s hs := h.unit p _ s .damaged hs
  served s t hst hs := h.stays s t hst.stays hs
  entry := h.entry
  revert := h.revert
  supervise s hs := by
    unfold judgeSupervision
    split <;> exact h.stays _ _ (modAuth_stays _ s) hs
  region := h.region
  pointer := h.pointer

end KeptStays

/-! What the stages of a completion and the copying of EDIT leave alone. -/

@[simp] theorem setSlots_pending (s : State) : (setSlots s).pending = s.pending := by rw [setSlots]
@[simp] theorem setSlots_live (s : State) : (setSlots s).live = s.live := by rw [setSlots]
@[simp] theorem setSlots_edit (s : State) : (setSlots s).edit = s.edit := by rw [setSlots]
@[simp] theorem setSlots_arb (s : State) : (setSlots s).arb = s.arb := by rw [setSlots]
@[simp] theorem setSlots_mix (s : State) : (setSlots s).mix = s.mix := by rw [setSlots]
@[simp] theorem setSlots_table (s : State) : (setSlots s).table = s.table := by rw [setSlots]
@[simp] theorem setSlots_cues (s : State) : (setSlots s).cues = s.cues := by rw [setSlots]
@[simp] theorem setSlots_lamps (s : State) : (setSlots s).lamps = s.lamps := by rw [setSlots]
@[simp] theorem setSlots_auth (s : State) : (setSlots s).auth = s.auth := by rw [setSlots]
@[simp] theorem setSlots_homing (s : State) : (setSlots s).homing = s.homing := by rw [setSlots]
@[simp] theorem setSlots_faults (s : State) : (setSlots s).faults = s.faults := by rw [setSlots]
@[simp] theorem setSlots_mgmt (s : State) : (setSlots s).mgmt = s.mgmt := by rw [setSlots]

@[simp] theorem sendFrames_pending (l : Vector (Option Block) 24) (s : State) : (sendFrames l s).pending = s.pending := by rw [sendFrames]
@[simp] theorem sendFrames_live (l : Vector (Option Block) 24) (s : State) : (sendFrames l s).live = s.live := by rw [sendFrames]
@[simp] theorem sendFrames_edit (l : Vector (Option Block) 24) (s : State) : (sendFrames l s).edit = s.edit := by rw [sendFrames]
@[simp] theorem sendFrames_arb (l : Vector (Option Block) 24) (s : State) : (sendFrames l s).arb = s.arb := by rw [sendFrames]
@[simp] theorem sendFrames_mix (l : Vector (Option Block) 24) (s : State) : (sendFrames l s).mix = s.mix := by rw [sendFrames]
@[simp] theorem sendFrames_table (l : Vector (Option Block) 24) (s : State) : (sendFrames l s).table = s.table := by rw [sendFrames]
@[simp] theorem sendFrames_cues (l : Vector (Option Block) 24) (s : State) : (sendFrames l s).cues = s.cues := by rw [sendFrames]
@[simp] theorem sendFrames_lamps (l : Vector (Option Block) 24) (s : State) : (sendFrames l s).lamps = s.lamps := by rw [sendFrames]
@[simp] theorem sendFrames_auth (l : Vector (Option Block) 24) (s : State) : (sendFrames l s).auth = s.auth := by rw [sendFrames]
@[simp] theorem sendFrames_homing (l : Vector (Option Block) 24) (s : State) : (sendFrames l s).homing = s.homing := by rw [sendFrames]
@[simp] theorem sendFrames_faults (l : Vector (Option Block) 24) (s : State) : (sendFrames l s).faults = s.faults := by rw [sendFrames]
@[simp] theorem sendFrames_mgmt (l : Vector (Option Block) 24) (s : State) : (sendFrames l s).mgmt = s.mgmt := by rw [sendFrames]

@[simp] theorem unjudgePorts_pending (o n : Bank) (s : State) : (unjudgePorts o n s).pending = s.pending := by rw [unjudgePorts]
@[simp] theorem unjudgePorts_live (o n : Bank) (s : State) : (unjudgePorts o n s).live = s.live := by rw [unjudgePorts]
@[simp] theorem unjudgePorts_edit (o n : Bank) (s : State) : (unjudgePorts o n s).edit = s.edit := by rw [unjudgePorts]
@[simp] theorem unjudgePorts_arb (o n : Bank) (s : State) : (unjudgePorts o n s).arb = s.arb := by rw [unjudgePorts]
@[simp] theorem unjudgePorts_mix (o n : Bank) (s : State) : (unjudgePorts o n s).mix = s.mix := by rw [unjudgePorts]
@[simp] theorem unjudgePorts_table (o n : Bank) (s : State) : (unjudgePorts o n s).table = s.table := by rw [unjudgePorts]
@[simp] theorem unjudgePorts_cues (o n : Bank) (s : State) : (unjudgePorts o n s).cues = s.cues := by rw [unjudgePorts]
@[simp] theorem unjudgePorts_lamps (o n : Bank) (s : State) : (unjudgePorts o n s).lamps = s.lamps := by rw [unjudgePorts]
@[simp] theorem unjudgePorts_auth (o n : Bank) (s : State) : (unjudgePorts o n s).auth = s.auth := by rw [unjudgePorts]
@[simp] theorem unjudgePorts_homing (o n : Bank) (s : State) : (unjudgePorts o n s).homing = s.homing := by rw [unjudgePorts]
@[simp] theorem unjudgePorts_mgmt (o n : Bank) (s : State) : (unjudgePorts o n s).mgmt = s.mgmt := by rw [unjudgePorts]

@[simp] theorem openCompletion_pending (s : State) : (openCompletion s).pending = s.pending := by rw [openCompletion]
@[simp] theorem openCompletion_live (s : State) : (openCompletion s).live = s.live := by rw [openCompletion]
@[simp] theorem openCompletion_edit (s : State) : (openCompletion s).edit = s.edit := by rw [openCompletion]
@[simp] theorem openCompletion_mix (s : State) : (openCompletion s).mix = s.mix := by rw [openCompletion]
@[simp] theorem openCompletion_table (s : State) : (openCompletion s).table = s.table := by rw [openCompletion]
@[simp] theorem openCompletion_ports (s : State) : (openCompletion s).ports = s.ports := by rw [openCompletion]
@[simp] theorem openCompletion_faults (s : State) : (openCompletion s).faults = s.faults := by rw [openCompletion]

/-! What an entry write changes. -/

theorem writeEntry_cases (t : Table) (y : Bool) (i : Nat) (bs : List Byte) (s : State) :
    (writeEntry t y i bs s).2 = s
      ∨ (∃ (st : Station) (r : StationRecord), decodeStation bs = some r ∧ s.edit.portsTaken st r = false
          ∧ (writeEntry t y i bs s).2 = { s with edit := { s.edit with stations := s.edit.stations.set st r } })
      ∨ (∃ (n : Net) (r : NetRecord),
          (writeEntry t y i bs s).2 = { s with edit := { s.edit with nets := s.edit.nets.set n r } })
      ∨ (∃ st n c, s.edit.cellFits st n c = true
          ∧ (writeEntry t y i bs s).2 = { s with edit := s.edit.setCell st n c })
      ∨ ∃ (c : CueIx) (r : CueRecord), s.isActive c = false
          ∧ (writeEntry t y i bs s).2 = s.modTable fun x => { x with records := x.records.set c r } := by
  cases t with
  | stations =>
    simp only [writeEntry, Bank.writeStation]
    generalize Fin.ofNat 24 i = st
    cases hd : decodeStation bs with
    | none => exact .inl rfl
    | some r =>
      cases hp : s.edit.portsTaken st r with
      | true => exact .inl (by simp [editResult, hp])
      | false => exact .inr (.inl ⟨st, r, rfl, hp, by simp [editResult, hp]⟩)
  | nets =>
    simp only [writeEntry, Bank.writeNet]
    generalize Fin.ofNat 16 i = n
    cases hd : decodeNet bs with
    | none => exact .inl rfl
    | some r => exact .inr (.inr (.inl ⟨n, r, rfl⟩))
  | matrix =>
    simp only [writeEntry, Bank.writeCell]
    generalize cellAt y i = x
    cases hd : decodeCell bs with
    | none => exact .inl rfl
    | some c =>
      cases hf : s.edit.cellFits x.1 x.2 c with
      | false => exact .inl (by simp [editResult, hf])
      | true => exact .inr (.inr (.inr (.inl ⟨x.1, x.2, c, hf, by simp [editResult, hf]⟩)))
  | cues =>
    simp only [writeEntry, writeCue]
    generalize Fin.ofNat 256 i = c
    cases ha : s.isActive c with
    | true => exact .inl rfl
    | false =>
      cases hd : decodeCue c bs with
      | none => exact .inl rfl
      | some r => exact .inr (.inr (.inr (.inr ⟨c, r, ha, rfl⟩)))

/-! The banks (R25, R28). -/

/-- The rules of one bank. -/
def Bank.Ok (b : Bank) : Prop := b.portsApart ∧ b.rowsOk

theorem banksOk_iff {s : State} : BanksOk s ↔ s.live.Ok ∧ s.edit.Ok := by
  unfold BanksOk Bank.Ok
  tauto

theorem names_iff {r : StationRecord} {p : Port} :
    r.names p = true ↔ r.enabled = true ∧ (r.primary = p ∨ r.spare = some p) := by
  simp [StationRecord.names]

theorem sharesPort_of_named {a b : StationRecord} {p : Port} (ha : a.names p = true) (hb : b.names p = true) :
    sharesPort a b = true := by
  obtain ⟨-, ha⟩ := names_iff.mp ha
  obtain ⟨-, hb⟩ := names_iff.mp hb
  rcases ha with rfl | ha <;> rcases hb with hb | hb <;> simp [sharesPort, *]

theorem sharesPort_comm (a b : StationRecord) : sharesPort a b = sharesPort b a := by
  rw [Bool.eq_iff_iff]
  simp only [sharesPort, Bool.or_eq_true, Bool.and_eq_true, decide_eq_true_eq]
  constructor
  all_goals
    rintro (((h | h) | h) | ⟨h, k⟩)
    · exact .inl (.inl (.inl h.symm))
    · exact .inl (.inr h)
    · exact .inl (.inl (.inr h))
    · exact .inr ⟨k ▸ h, k.symm⟩

/-- R25: a record whose ports no other enabled record names may be written. -/
theorem portsApart_set {b : Bank} {st : Station} {r : StationRecord} (hb : b.portsApart)
    (hr : b.portsTaken st r = false) : ({ b with stations := b.stations.set st r } : Bank).portsApart := by
  have free : ∀ t : Station, t ≠ st → r.enabled = true → b.stations[t].enabled = true →
      sharesPort r b.stations[t] = false := by
    intro t ht hre hte
    simp only [Bank.portsTaken, hre, Bool.true_and, List.any_eq_false, Bool.and_eq_true, decide_eq_true_eq,
      not_and, Bool.not_eq_true, and_imp] at hr
    exact hr t (List.mem_finRange t) ht hte
  have get : ∀ t : Station, (b.stations.set st r)[t] = if t = st then r else b.stations[t] := by
    intro t
    rw [Fin.getElem_fin, Vector.getElem_set]
    simp [Fin.ext_iff, eq_comm]
  intro t u ht hu htu p
  simp only [get] at ht hu ⊢
  rintro ⟨htn, hun⟩
  split at ht <;> split at hu
  · subst_vars; exact htu rfl
  · next h1 h2 =>
    rw [if_pos h1] at htn; rw [if_neg h2] at hun
    exact Bool.false_ne_true ((free u h2 ht hu).symm.trans (sharesPort_of_named htn hun))
  · next h1 h2 =>
    rw [if_neg h1] at htn; rw [if_pos h2] at hun
    exact Bool.false_ne_true ((free t h1 hu ht).symm.trans (sharesPort_of_named hun htn))
  · next h1 h2 =>
    rw [if_neg h1] at htn; rw [if_neg h2] at hun
    exact hb t u ht hu htu p ⟨htn, hun⟩

theorem setCell_cell (b : Bank) (st t : Station) (n m : Net) (c : Cell) :
    (b.setCell st n c).cell t m = if st = t ∧ n = m then c else b.cell t m := by
  unfold Bank.setCell Bank.cell
  rw [upd_get]
  split
  · next h =>
    rw [Fin.getElem_fin, Vector.getElem_set]
    simp [h, Fin.ext_iff]
  · next h => simp [h]

/-- What satisfies `p` in a list without repetition, counted: `n` itself and what is beside it. -/
theorem filter_length_le_beside {α : Type} [DecidableEq α] (p : α → Bool) (n : α) {l : List α} (hl : l.Nodup) :
    (l.filter p).length ≤ (l.filter fun m => m ≠ n && p m).length + if p n then 1 else 0 := by
  have hsplit : (l.filter fun m => m ≠ n && p m) = (l.filter p).erase n := by
    rw [List.Nodup.erase_eq_filter (hl.filter p) n, List.filter_filter]
    exact List.filter_congr fun m _ => by by_cases hm : m = n <;> simp [hm]
  rw [hsplit]
  by_cases hn : n ∈ l.filter p
  · rw [List.length_erase_of_mem hn, if_pos (List.mem_filter.mp hn).2]
    omega
  · rw [List.erase_of_not_mem hn]
    omega

theorem rowsOk_setCell {b : Bank} {st : Station} {n : Net} {c : Cell} (hb : b.rowsOk) (hc : b.cellFits st n c = true) :
    (b.setCell st n c).rowsOk := by
  simp only [Bank.cellFits, Bool.and_eq_true, Bool.not_eq_true', Bool.and_eq_false_iff, decide_eq_false_iff_not] at hc
  obtain ⟨hlevel, hkey⟩ := hc
  intro t
  obtain ⟨hfour, hkeys⟩ := hb t
  by_cases ht : st = t
  · subst ht
    constructor
    · refine le_trans (filter_length_le_beside (l := allNets) _ n (List.nodup_finRange 16)) ?_
      have hrest : (allNets.filter fun m => m ≠ n && decide (0 < ((b.setCell st n c).cell st m).level)).length
          = b.listening st n := by
        refine congrArg List.length (List.filter_congr fun x _ => ?_)
        rw [setCell_cell]
        by_cases hx : n = x
        · simp [hx]
        · simp [hx]
      have hle : b.listening st n ≤ 4 := by
        refine le_trans (List.Sublist.length_le ?_) hfour
        refine List.monotone_filter_right _ fun x hx => ?_
        simp only [Bool.and_eq_true] at hx
        exact hx.2
      have hcell : (b.setCell st n c).cell st n = c := by simp [setCell_cell]
      rw [hrest, hcell]
      split
      · next hpos => have := hlevel.resolve_left (not_not_intro (of_decide_eq_true hpos)); omega
      · omega
    · have other : ∀ (m : Net) (k : Key), m ≠ n → c.key = some k → (b.cell st m).key ≠ some k := by
        intro m k hm hk hmk
        rw [hk] at hkey
        simp only [Bank.keyTaken, Bool.not_eq_true', List.any_eq_false, Bool.and_eq_true, decide_eq_true_eq,
          not_and] at hkey
        exact hkey m (List.mem_finRange m) hm hmk
      intro m m' k hm hm'
      rw [setCell_cell] at hm hm'
      by_cases h1 : n = m <;> by_cases h2 : n = m'
      · exact h1.symm.trans h2
      · rw [if_pos ⟨rfl, h1⟩] at hm; rw [if_neg (by simp [h2])] at hm'
        exact absurd hm' (other m' k (Ne.symm h2) hm)
      · rw [if_neg (by simp [h1])] at hm; rw [if_pos ⟨rfl, h2⟩] at hm'
        exact absurd hm (other m k (Ne.symm h1) hm')
      · rw [if_neg (by simp [h1])] at hm; rw [if_neg (by simp [h2])] at hm'
        exact hkeys m m' k hm hm'
  · have hsame : ∀ m, (b.setCell st n c).cell t m = b.cell t m := fun m => by rw [setCell_cell, if_neg (by simp [ht])]
    simp only [hsame]
    exact ⟨hfour, hkeys⟩

theorem bankOk_powerOn : Bank.powerOn.Ok := by
  refine ⟨fun st t hst => ?_, fun st => ⟨?_, fun n m k hk => ?_⟩⟩
  · simp [Bank.powerOn, StationRecord.powerOn] at hst
  · simp [Bank.cell, Bank.powerOn, Cell.powerOn]
  · simp [Bank.cell, Bank.powerOn, Cell.powerOn] at hk

theorem banksOk_writeEntry {t : Table} {y : Bool} {i : Nat} {bs : List Byte} {s : State} (hs : BanksOk s) :
    BanksOk (writeEntry t y i bs s).2 := by
  obtain ⟨hlive, hports, hrows⟩ := banksOk_iff.mp hs
  obtain h | ⟨st, r, -, hr, h⟩ | ⟨n, r, h⟩ | ⟨st, n, c, hc, h⟩ | ⟨c, r, -, h⟩ := writeEntry_cases t y i bs s
  all_goals rw [h]
  · exact hs
  · exact banksOk_iff.mpr ⟨hlive, portsApart_set hports hr, hrows⟩
  · exact banksOk_iff.mpr ⟨hlive, hports, hrows⟩
  · exact banksOk_iff.mpr ⟨hlive, hports, rowsOk_setCell hrows hc⟩
  · exact hs

/-- A property of the banks alone. -/
theorem banks_of_eq {s t : State} (hl : t.live = s.live) (he : t.edit = s.edit) (h : BanksOk s) : BanksOk t := by
  unfold BanksOk at h ⊢
  rwa [hl, he]

theorem setMix_banks {t : State} (m : MixState) (h : BanksOk t) : BanksOk { t with mix := m } := h

theorem banks_kept : KeptStays BanksOk where
  same s t h := banks_of_eq h.live h.edit
  stays s t h := banks_of_eq h.live h.edit
  powerOn s _ := by
    rw [banksOk_iff]
    exact ⟨bankOk_powerOn, bankOk_powerOn⟩
  lineReset s h := banks_of_eq (resetMarks_same s).live (resetMarks_same s).edit h
  softReset s h := banks_of_eq (resetMarks_same s).live (resetMarks_same s).edit h
  unit p f s _ h := banks_of_eq (s := s) (t := s.modPort p f) rfl rfl h
  slots s h := banks_of_eq (setSlots_live s) (setSlots_edit s) h
  frames l s h := banks_of_eq (sendFrames_live l s) (sendFrames_edit l s) h
  unjudge o n s h := banks_of_eq (unjudgePorts_live o n s) (unjudgePorts_edit o n s) h
  opens s h := banks_of_eq (openCompletion_live s) (openCompletion_edit s) h
  copy s h := banksOk_iff.mpr ⟨(banksOk_iff.mp h).2, (banksOk_iff.mp h).2⟩
  mix s t _ h := setMix_banks _ h
  entry t y i bs s h := banksOk_writeEntry h
  revert s h := banksOk_iff.mpr ⟨(banksOk_iff.mp h).1, (banksOk_iff.mp h).1⟩
  region f q s _ h := banks_of_eq (s := s) (t := s.modTable (·.setRegion f q)) rfl rfl h
  pointer r t s _ h := banks_of_eq (s := s) (t := { s with table := t }) rfl rfl h

/-- Settles O57: entries are written under the rules, and LIVE and EDIT are otherwise only copied into each other. -/
theorem banksKeepTheirRules : Obligations.BanksKeepTheirRules := fun _ _ hs e =>
  banks_kept.core.step (fun _ _ hs => hs) hs e

end Sys2Proof.Machine
end

section
/-! The active cue list, the pointer and its region (R63, R65, R72); the counts of the port units (R125) and the duck gains
(R48), each an invariant that the events of the blocks keep. -/

namespace Sys2Proof.Machine

/-! The cue list and the pointer. -/

theorem cueListOk_of_eq {s t : State} (hc : t.cues = s.cues) (hr : t.table.records = s.table.records) (h : CueListOk s) :
    CueListOk t := by
  unfold CueListOk State.cueRec at h ⊢
  rwa [hc, hr]

theorem cueListOk_nil {s : State} (h : s.cues = []) : CueListOk s := by
  unfold CueListOk
  simp [h]

theorem cueListOk_writeEntry {t : Table} {y : Bool} {i : Nat} {bs : List Byte} {s : State} (hs : CueListOk s) :
    CueListOk (writeEntry t y i bs s).2 := by
  obtain h | ⟨st, r, -, hr, h⟩ | ⟨n, r, h⟩ | ⟨st, n, c, hc, h⟩ | ⟨c, r, hc, h⟩ := writeEntry_cases t y i bs s
  all_goals rw [h]
  · exact hs
  · exact hs
  · exact hs
  · exact hs
  · obtain ⟨hlen, hnodup, htargets⟩ := hs
    refine ⟨hlen, hnodup, fun e he => ?_⟩
    have hne : e.cue ≠ c := by
      simp only [State.isActive, List.any_eq_false, decide_eq_true_eq] at hc
      exact hc e he
    have hrec : (s.modTable fun x => { x with records := x.records.set c r }).cueRec e.cue = s.cueRec e.cue := by
      unfold State.cueRec
      rw [State.modTable_table, Fin.getElem_fin, Vector.getElem_set, if_neg (fun h => hne (Fin.ext h.symm))]
      rfl
    rw [hrec]
    exact htargets e he

theorem fall_cue (e : CueEntry) : e.fall.cue = e.cue := rfl

theorem fall_targets (e : CueEntry) : e.fall.targets = e.targets := rfl

theorem cueListOk_opens {s : State} (hs : CueListOk s) : CueListOk (openCompletion s) := by
  obtain ⟨hlen, hnodup, htargets⟩ := hs
  have hcues : (openCompletion s).cues = s.cues.map CueEntry.fall := by rw [openCompletion]
  refine ⟨?_, ?_, ?_⟩
  · rwa [hcues, List.length_map]
  · rw [hcues, List.map_map]
    exact hnodup
  · rw [hcues]
    intro e he
    obtain ⟨e', he', rfl⟩ := List.mem_map.mp he
    exact htargets e' he'

theorem setMix_cueList {t : State} (m : MixState) (h : CueListOk t) : CueListOk { t with mix := m } := h

theorem cueList_kept : KeptStays CueListOk where
  same s t h := cueListOk_of_eq h.cues h.records
  stays s t h := h.cueList
  powerOn s _ := cueListOk_nil rfl
  lineReset s _ := cueListOk_nil rfl
  softReset s _ := cueListOk_nil rfl
  unit p f s _ h := cueListOk_of_eq (s := s) (t := s.modPort p f) rfl rfl h
  slots s h := cueListOk_of_eq (setSlots_cues s) (by rw [setSlots_table]) h
  frames l s h := cueListOk_of_eq (sendFrames_cues l s) (by rw [sendFrames_table]) h
  unjudge o n s h := cueListOk_of_eq (unjudgePorts_cues o n s) (by rw [unjudgePorts_table]) h
  opens s h := cueListOk_opens h
  copy s h := h
  mix s t _ h := setMix_cueList _ h
  entry t y i bs s h := cueListOk_writeEntry h
  revert s h := h
  region f q s _ h := by
    refine cueListOk_of_eq (s := s) rfl ?_ h
    simp only [State.modTable_table, CueTable.setRegion]
    split <;> rfl
  pointer r t s ht h := by
    refine cueListOk_of_eq (s := s) rfl ?_ h
    unfold CueTable.setPointer at ht
    dsimp only at ht
    split at ht
    · cases ht; rfl
    · split at ht
      · cases ht
      · split at ht <;> cases ht
        rfl
    · split at ht <;> cases ht
      rfl

/-- The rules of the split and the pointer, of the cue table alone. -/
def CueTable.Ok (t : CueTable) : Prop :=
  1 ≤ t.seqSize ∧ t.fixedSize + t.seqSize ≤ 256 ∧ t.fixedSize ≤ t.pointer.val ∧ t.pointer.val < t.fixedSize + t.seqSize

theorem pointerOk_iff {s : State} : PointerOk s ↔ s.table.Ok := Iff.rfl

theorem inSequence_iff {t : CueTable} {c : CueIx} :
    t.inSequence c = true ↔ t.fixedSize ≤ c.val ∧ c.val < t.fixedSize + t.seqSize := by
  simp [CueTable.inSequence]

theorem CueTable.Ok.firstIndex {t : CueTable} (h : t.Ok) : (Fin.ofNat 256 t.fixedSize).val = t.fixedSize := by
  obtain ⟨h1, h2, -, -⟩ := h
  exact Nat.mod_eq_of_lt (by omega)

theorem CueTable.Ok.afterLine {t : CueTable} (h : t.Ok) : t.afterLine.Ok := by
  have hfirst := h.firstIndex
  obtain ⟨h1, h2, -, -⟩ := h
  refine ⟨h1, h2, ?_, ?_⟩ <;> simp only [CueTable.afterLine, hfirst] <;> omega

theorem CueTable.Ok.setRegion {t : CueTable} {f q : Nat} (hl : legalSplit f q = true) : (t.setRegion f q).Ok := by
  simp only [legalSplit, Bool.and_eq_true, decide_eq_true_eq] at hl
  obtain ⟨h1, h2⟩ := hl
  unfold CueTable.setRegion
  dsimp only
  split
  · next p hp => exact ⟨h1, h2, nextEnabled_inSequence hp⟩
  · have hf : f % 256 = f := Nat.mod_eq_of_lt (by omega)
    refine ⟨h1, h2, ?_, ?_⟩ <;> simp only [Fin.ofNat, hf] <;> omega

theorem CueTable.Ok.setPointer {t u : CueTable} {r : PointerRef} (h : t.Ok) (hu : t.setPointer r = some u) : u.Ok := by
  obtain ⟨h1, h2, h3, h4⟩ := h
  have placed : ∀ c : CueIx, (if (t.inSequence c && t.records[c].enabled) = true
      then some { t with pointer := c, ended := false } else none) = some u → u.Ok := by
    intro c hc
    split at hc
    · next hin =>
      cases hc
      exact ⟨h1, h2, inSequence_iff.mp (Bool.and_eq_true_iff.mp hin).1⟩
    · cases hc
  unfold CueTable.setPointer at hu
  dsimp only at hu
  split at hu
  · cases hu; exact ⟨h1, h2, h3, h4⟩
  · split at hu
    · cases hu
    · exact placed _ hu
  · exact placed _ hu

theorem pointerOk_of_same {s t : State} (h : SameBlocks s t) (hs : PointerOk s) : PointerOk t := by
  unfold PointerOk at hs ⊢
  rwa [h.fixedSize, h.seqSize, h.pointer]

theorem pointerOk_writeEntry {t : Table} {y : Bool} {i : Nat} {bs : List Byte} {s : State} (hs : PointerOk s) :
    PointerOk (writeEntry t y i bs s).2 := by
  obtain h | ⟨st, r, -, hr, h⟩ | ⟨n, r, h⟩ | ⟨st, n, c, hc, h⟩ | ⟨c, r, hc, h⟩ := writeEntry_cases t y i bs s
  all_goals rw [h]; exact hs

theorem pointerOk_of_eq {s t : State} (h : t.table = s.table) (hs : PointerOk s) : PointerOk t := by
  unfold PointerOk at hs ⊢
  rwa [h]

theorem setMix_pointer {t : State} (m : MixState) (h : PointerOk t) : PointerOk { t with mix := m } := h

theorem pointer_kept : KeptStays PointerOk where
  same s t h := pointerOk_of_same h
  stays s t h := h.pointer
  powerOn s _ := by
    have hpower : CueTable.powerOn.Ok := by
      unfold CueTable.Ok
      decide
    exact hpower
  lineReset s h := (pointerOk_iff.mp (pointerOk_of_same (resetMarks_same s) h)).afterLine
  softReset s h := pointerOk_of_eq (s := resetMarks s) (by rw [applySoftReset]) (pointerOk_of_same (resetMarks_same s) h)
  unit p f s _ h := pointerOk_of_eq (State.modPort_table s p f) h
  slots s h := pointerOk_of_eq (setSlots_table s) h
  frames l s h := pointerOk_of_eq (sendFrames_table l s) h
  unjudge o n s h := pointerOk_of_eq (unjudgePorts_table o n s) h
  opens s h := pointerOk_of_eq (openCompletion_table s) h
  copy s h := h
  mix s t _ h := setMix_pointer _ h
  entry t y i bs s h := pointerOk_writeEntry h
  revert s h := h
  region f q s hl _ := CueTable.Ok.setRegion hl
  pointer r t s ht h := CueTable.Ok.setPointer h ht

/-! The port units. -/

theorem PortUnit.ok_of_link {u v : PortUnit} (h : v.link = u.link) (hu : u.Ok) : v.Ok := by
  simp only [PortUnit.link, Prod.mk.injEq] at h
  obtain ⟨-, hacquire, hloss, hbucket, -⟩ := h
  unfold PortUnit.Ok at hu ⊢
  rwa [hacquire, hloss, hbucket]

theorem UnitStep.ok {f : PortUnit → PortUnit} (h : UnitStep f) {u : PortUnit} (hu : u.Ok) : (f u).Ok := by
  obtain ⟨hacquire, hloss, hbucket⟩ := hu
  cases h with
  | down => exact ⟨by simp [PortUnit.down], by simp [PortUnit.down], by simp [PortUnit.down]⟩
  | contents b => exact ⟨hacquire, hloss, hbucket⟩
  | damaged =>
    dsimp only
    split
    · exact ⟨hacquire, hloss, hbucket⟩
    · exact ⟨Nat.zero_le _, hloss, hbucket⟩
  | valid seq =>
    have hbucket' : u.bucket - 1 ≤ 255 := by omega
    dsimp only [PortUnit.acquireStep]
    split
    · exact ⟨hacquire, Nat.zero_le _, hbucket'⟩
    · split
      · exact ⟨Nat.zero_le _, Nat.zero_le _, hbucket'⟩
      · next hup hacq =>
        refine ⟨?_, Nat.zero_le _, hbucket'⟩
        simp only [PortUnit.acquires, Bool.and_eq_true, Bool.not_eq_true', decide_eq_true_eq, not_and] at hacq
        have := hacq (Bool.eq_false_iff.mpr hup)
        simp only [PortUnit.valid, Config.acquireLimit] at this ⊢
        omega
  | tick =>
    have hraised : raised u.bucket ≤ 255 := Nat.min_le_left _ _
    unfold PortUnit.tick
    split
    · exact ⟨hacquire, hloss, hbucket⟩
    · split
      · split
        · next hl => exact ⟨hacquire, Nat.le_of_lt hl, hraised⟩
        · exact ⟨hacquire, Nat.le_refl _, hbucket⟩
      · exact ⟨Nat.zero_le _, hloss, hraised⟩

theorem PortUnit.ok_init : PortUnit.init.Ok := by
  refine ⟨?_, ?_, ?_⟩ <;> simp [PortUnit.init]

theorem portsOk_of_eq {s t : State} (h : t.ports = s.ports) (hs : PortsOk s) : PortsOk t := by
  unfold PortsOk at hs ⊢
  rwa [h]

/-- Every port unit changed by a function that keeps the ranges. -/
theorem portsOk_map {s t : State} {f : PortUnit → PortUnit} (ht : t.ports = s.ports.map f) (hf : ∀ u, u.Ok → (f u).Ok)
    (hs : PortsOk s) : PortsOk t := by
  intro p
  rw [ht, Fin.getElem_fin, Vector.getElem_map]
  exact hf _ (hs p)

theorem portsOk_powerOn (s : State) : PortsOk (powerOnState s) := by
  intro p
  simp only [powerOnState, State.reset, Fin.getElem_fin, Vector.getElem_replicate]
  exact PortUnit.ok_init

theorem PortUnit.ok_setSlot {u : PortUnit} (hu : u.Ok) : u.setSlot.Ok := by
  unfold PortUnit.setSlot
  split
  · exact hu
  · split <;> exact hu

theorem portsOk_writeEntry {t : Table} {y : Bool} {i : Nat} {bs : List Byte} {s : State} (hs : PortsOk s) :
    PortsOk (writeEntry t y i bs s).2 := by
  obtain h | ⟨st, r, -, hr, h⟩ | ⟨n, r, h⟩ | ⟨st, n, c, hc, h⟩ | ⟨c, r, hc, h⟩ := writeEntry_cases t y i bs s
  all_goals rw [h]; exact hs

theorem portsOk_unjudge {o n : Bank} {s : State} (hs : PortsOk s) : PortsOk (unjudgePorts o n s) := by
  intro p
  rw [unjudgePorts, Fin.getElem_fin, Vector.getElem_ofFn]
  unfold unjudgedUnit
  split
  · exact hs p
  · exact hs p

theorem setMix_ports {t : State} (m : MixState) (h : PortsOk t) : PortsOk { t with mix := m } := h

theorem ports_kept : KeptStays PortsOk where
  same s t h := portsOk_of_eq h.ports
  stays s t h hs p := PortUnit.ok_of_link (h.links p) (hs p)
  powerOn s _ := portsOk_powerOn s
  lineReset s _ := portsOk_of_eq (s := powerOnState s) (by rw [lineReset, powerOnState]) (portsOk_powerOn s)
  softReset s hs := portsOk_map (f := PortUnit.soft) (by rw [applySoftReset]) (fun _ _ => PortUnit.ok_init) hs
  unit p f s hf hs q := by
    rw [State.modPort_ports, upd_get]
    split
    · exact hf.ok (hs q)
    · exact hs q
  slots s hs := portsOk_map (f := PortUnit.setSlot) (by rw [setSlots]) (fun _ => PortUnit.ok_setSlot) hs
  frames l s hs := portsOk_map (f := fun u => { u with downSeq := u.downSeq + 1 }) (by rw [sendFrames]) (fun _ hu => hu) hs
  unjudge o n s hs := portsOk_unjudge hs
  opens s hs := portsOk_of_eq (openCompletion_ports s) hs
  copy s hs := hs
  mix s t _ ht := setMix_ports _ ht
  entry t y i bs s hs := portsOk_writeEntry hs
  revert s hs := hs
  region f q s _ hs := portsOk_of_eq (t := s.modTable (·.setRegion f q)) rfl hs
  pointer r t s _ hs := portsOk_of_eq (t := { s with table := t }) rfl hs

/-! The duck gains. -/

/-- The ranges of a record that an entry spells (R23, R185), as far as the mix and the links read them. -/
theorem decodeStation_ranges {bs : List Byte} {r : StationRecord} (h : decodeStation bs = some r) :
    r.duckDepth ≤ 256 ∧ 16 ≤ r.threshold ∧ r.threshold ≤ 248 ∧ r.threshold % 8 = 0 := by
  unfold decodeStation at h
  split at h
  · split at h
    · dsimp only at h
      rw [Option.ite_none_right_eq_some] at h
      obtain ⟨⟨-, -, -, -, -, hduck, -, -, hthreshold⟩, hr⟩ := h
      simp only [isGain, decide_eq_true_eq] at hduck
      simp only [isThreshold, decide_eq_true_eq] at hthreshold
      rw [← Option.some.inj hr]
      exact ⟨hduck, hthreshold⟩
    · cases h
  · cases h

theorem depthsOk_powerOn : DepthsOk Bank.powerOn := by
  intro st
  simp [Bank.powerOn, StationRecord.powerOn]

theorem depthsOk_setStation {b : Bank} {st : Station} {r : StationRecord} (hb : DepthsOk b) (hr : r.duckDepth ≤ 256) :
    DepthsOk { b with stations := b.stations.set st r } := by
  intro t
  rw [Fin.getElem_fin, Vector.getElem_set]
  split
  · exact hr
  · exact hb t

theorem duckMove_le {g t k m : Nat} (hg : g ≤ m) (ht : t ≤ m) : duckMove g t k ≤ m := by
  unfold duckMove
  split
  · omega
  · split <;> omega

theorem duckNext_le {s : State} (hs : DucksOk s) (st : Station) : s.duckNext st ≤ 256 := by
  obtain ⟨hlive, -, hduck⟩ := hs
  unfold State.duckNext State.duckTarget
  split
  · refine duckMove_le (hduck st) ?_
    split
    · exact hlive st
    · exact Nat.le_refl _
  · exact Nat.le_refl _

theorem ducksOk_of_eq {s t : State} (hl : t.live = s.live) (he : t.edit = s.edit) (hm : t.mix = s.mix) (hs : DucksOk s) :
    DucksOk t := by
  unfold DucksOk at hs ⊢
  rwa [hl, he, hm]

theorem ducksOk_writeEntry {t : Table} {y : Bool} {i : Nat} {bs : List Byte} {s : State} (hs : DucksOk s) :
    DucksOk (writeEntry t y i bs s).2 := by
  obtain ⟨hlive, hedit, hduck⟩ := hs
  obtain h | ⟨st, r, hr, -, h⟩ | ⟨n, r, h⟩ | ⟨st, n, c, hc, h⟩ | ⟨c, r, hc, h⟩ := writeEntry_cases t y i bs s
  all_goals rw [h]
  · exact ⟨hlive, hedit, hduck⟩
  · exact ⟨hlive, depthsOk_setStation hedit (decodeStation_ranges hr).1, hduck⟩
  · exact ⟨hlive, hedit, hduck⟩
  · exact ⟨hlive, hedit, hduck⟩
  · exact ⟨hlive, hedit, hduck⟩

theorem ducksOk_mix {s t : State} (hs : DucksOk s) (ht : DucksOk t) :
    DucksOk { t with mix := { duck := s.computeMix.duck, clip := s.computeMix.clip } } := by
  refine ⟨ht.1, ht.2.1, fun st => ?_⟩
  simp only [State.computeMix, Fin.getElem_fin, Vector.getElem_ofFn]
  exact duckNext_le hs st

theorem duck_init (st : Station) : MixState.init.duck[st] ≤ 256 := by simp [MixState.init]

theorem ducks_kept : KeptStays DucksOk where
  same s t h := ducksOk_of_eq h.live h.edit h.mix
  stays s t h := ducksOk_of_eq h.live h.edit h.mix
  powerOn s _ := ⟨depthsOk_powerOn, depthsOk_powerOn, duck_init⟩
  lineReset s hs := by
    obtain ⟨hlive, hedit, -⟩ := ducksOk_of_eq (resetMarks_same s).live (resetMarks_same s).edit (resetMarks_same s).mix hs
    exact ⟨hlive, hedit, duck_init⟩
  softReset s hs := by
    obtain ⟨hlive, hedit, -⟩ := ducksOk_of_eq (resetMarks_same s).live (resetMarks_same s).edit (resetMarks_same s).mix hs
    exact ⟨hlive, hedit, duck_init⟩
  unit p f s _ hs := ducksOk_of_eq (t := s.modPort p f) rfl rfl rfl hs
  slots s hs := ducksOk_of_eq (setSlots_live s) (setSlots_edit s) (setSlots_mix s) hs
  frames l s hs := ducksOk_of_eq (sendFrames_live l s) (sendFrames_edit l s) (sendFrames_mix l s) hs
  unjudge o n s hs := ducksOk_of_eq (unjudgePorts_live o n s) (unjudgePorts_edit o n s) (unjudgePorts_mix o n s) hs
  opens s hs := ducksOk_of_eq (openCompletion_live s) (openCompletion_edit s) (openCompletion_mix s) hs
  copy s hs := ⟨hs.2.1, hs.2.1, hs.2.2⟩
  mix s t hs ht := ducksOk_mix hs ht
  entry t y i bs s hs := ducksOk_writeEntry hs
  revert s hs := ⟨hs.1, hs.1, hs.2.2⟩
  region f q s _ hs := ducksOk_of_eq (t := s.modTable (·.setRegion f q)) rfl rfl rfl hs
  pointer r t s _ hs := ducksOk_of_eq (t := { s with table := t }) rfl rfl rfl hs

end Sys2Proof.Machine
end

section
/-! The queues' capacities, the settings' ranges and HOLD (R170, R171, R178). -/

namespace Sys2Proof.Machine

/-- The request queue, its settings and HOLD as they should be. -/
structure Management.Ok (m : Management) : Prop where
  room : m.queue.length ≤ Config.requestLimit
  settings : SettingsOk m.settings
  held : m.settings.high ≤ m.queue.length → m.hold = true
  free : m.queue.length ≤ m.settings.low → m.hold = false

/-- The bounds of every queue. -/
def QueuesOk (s : State) : Prop := s.mgmt.Ok ∧ OutboundRoom s

theorem queuesOk_iff {s : State} : QueuesOk s ↔ RequestRoom s ∧ OutboundRoom s ∧ HoldOk s := by
  constructor
  · rintro ⟨⟨hroom, hset, hheld, hfree⟩, hout⟩
    exact ⟨hroom, hout, hset, hheld, hfree⟩
  · rintro ⟨hroom, hout, hset, hheld, hfree⟩
    exact ⟨⟨hroom, hset, hheld, hfree⟩, hout⟩

/-! HOLD (R170). -/

theorem judgeHold_of_high {high low depth : Nat} {hold : Bool} (h : high ≤ depth) : judgeHold high low depth hold = true :=
  if_pos h

theorem judgeHold_of_low {high low depth : Nat} {hold : Bool} (hlt : low < high) (h : depth ≤ low) :
    judgeHold high low depth hold = false := by
  rw [judgeHold, if_neg (by omega), if_pos h]

theorem Management.Ok.setQueue {m : Management} (h : m.Ok) {q : List QueuedRequest} (hq : q.length ≤ Config.requestLimit) :
    (m.setQueue q).Ok where
  room := hq
  settings := h.settings
  held hh := judgeHold_of_high hh
  free hl := judgeHold_of_low h.settings.2.2.1 hl

theorem Management.ok_init : Management.init.Ok where
  room := by decide
  settings := by unfold SettingsOk; decide
  held := by decide
  free := fun _ => rfl

/-- What holds the head, the window and the meter are no matter. -/
theorem Management.Ok.of_eq {m g : Management} (h : m.Ok) (hq : g.queue = m.queue) (hh : g.hold = m.hold)
    (hs : g.settings = m.settings) : g.Ok := by
  obtain ⟨room, settings, held, free⟩ := h
  constructor <;> simp only [hq, hh, hs] <;> assumption

/-! The operations. -/

theorem queuesOk_of_eq {s t : State} (hm : t.mgmt = s.mgmt) (ho : t.out = s.out) (hs : QueuesOk s) : QueuesOk t := by
  unfold QueuesOk OutboundRoom at hs ⊢
  rwa [hm, ho]

theorem queuesOk_of_stays {s t : State} (h : Stays s t) (hs : QueuesOk s) : QueuesOk t :=
  ⟨h.mgmt ▸ hs.1, h.room hs.2⟩

theorem queuesOk_modMgmt {s : State} {f : Management → Management} (hs : QueuesOk s) (hf : (f s.mgmt).Ok) :
    QueuesOk (s.modMgmt f) := ⟨hf, hs.2⟩

theorem queuesOk_placeResponse {p : Port} {m : Message} {s t : State} (hs : QueuesOk s) (h : placeResponse p m s = some t) :
    QueuesOk t := by
  obtain ⟨o, ho, rfl⟩ := Option.map_eq_some_iff.mp h
  refine ⟨hs.1, fun q => ?_⟩
  simp only [Fin.getElem_fin, Vector.getElem_set]
  split
  · exact putResponse_room _ o m (hs.2 p) ho
  · exact hs.2 q

theorem queuesOk_finishService {s : State} (hs : QueuesOk s) : QueuesOk (finishService s) := by
  refine queuesOk_modMgmt hs (Management.Ok.of_eq (hs.1.setQueue (q := s.mgmt.queue.tail) ?_) rfl rfl rfl)
  have := hs.1.room
  rw [List.length_tail]
  omega

theorem queuesOk_setService {s : State} (v : Service) (hs : QueuesOk s) : QueuesOk (setService v s) :=
  queuesOk_modMgmt hs (hs.1.of_eq rfl rfl rfl)

theorem queuesOk_respond {s : State} (q : QueuedRequest) (r : Result) (body : List Byte) (hs : QueuesOk s) :
    QueuesOk (respond q r body s) := by
  unfold respond
  dsimp only
  split
  · next t ht => exact queuesOk_finishService (queuesOk_placeResponse hs ht)
  · exact queuesOk_modMgmt hs (hs.1.of_eq rfl rfl rfl)

theorem queuesOk_takeRespond {s : State} (p : Port) (tag : Byte) (r : Result) (hs : QueuesOk s) :
    QueuesOk (takeRespond p tag r s) := by
  unfold takeRespond
  dsimp only
  split
  · next t ht => exact queuesOk_placeResponse hs ht
  · exact hs

theorem queuesOk_placeReport {s : State} (p : Port) (m : Message) (hs : QueuesOk s) : QueuesOk (placeReport p m s) :=
  queuesOk_of_stays (placeReport_stays p m s) hs

theorem queuesOk_setUnverified {s : State} (t : Table) (hs : QueuesOk s) : QueuesOk (setUnverified t s) := by
  cases t <;> exact hs

theorem queuesOk_clearUnverified {s : State} (t : Table) (hs : QueuesOk s) : QueuesOk (clearUnverified t s) := by
  cases t <;> exact hs

theorem queuesOk_endWindow {s : State} (hs : QueuesOk s) : QueuesOk (endWindow s) := by
  rw [endWindow_eq]
  exact ⟨hs.1.of_eq rfl rfl rfl, hs.2⟩

theorem queuesOk_placeWaiting {s : State} (hs : QueuesOk s) : QueuesOk (placeWaiting s) := by
  unfold placeWaiting
  split
  · split
    · next t ht =>
      split
      · exact queuesOk_setService _ (queuesOk_placeResponse hs ht)
      · exact queuesOk_finishService (queuesOk_placeResponse hs ht)
    · exact hs
  · exact hs

theorem queuesOk_streamOne {s : State} (hs : QueuesOk s) : QueuesOk (streamOne s) := by
  unfold streamOne
  split
  · dsimp only
    split
    · next t ht =>
      split
      · exact queuesOk_finishService (queuesOk_placeResponse hs ht)
      · exact queuesOk_setService _ (queuesOk_placeResponse hs ht)
    · exact hs
  · exact hs

theorem queuesOk_streamAll (n : Nat) {s : State} (hs : QueuesOk s) : QueuesOk (streamAll n s) := by
  induction n generalizing s with
  | zero => exact hs
  | succ n ih => exact ih (queuesOk_streamOne hs)

theorem queuesOk_reportMeter {s : State} (hs : QueuesOk s) : QueuesOk (reportMeter s) := by
  unfold reportMeter
  split
  · exact queuesOk_placeReport _ _ (queuesOk_modMgmt hs (hs.1.of_eq rfl rfl rfl))
  · exact hs

theorem queuesOk_abortMeter {s : State} (hs : QueuesOk s) : QueuesOk (abortMeter s) := by
  unfold abortMeter
  split
  · exact queuesOk_placeReport _ _ (queuesOk_modMgmt hs (hs.1.of_eq rfl rfl rfl))
  · exact hs

theorem queuesOk_modPort {s : State} (p : Port) (f : PortUnit → PortUnit) (hs : QueuesOk s) : QueuesOk (s.modPort p f) := hs

theorem queuesOk_takeDown {s : State} (p : Port) (hs : QueuesOk s) : QueuesOk (takeDown p s) := by
  unfold takeDown
  refine queuesOk_of_stays ((authPortDown_stays p _).trans (judgePort_stays p _)) (queuesOk_modPort p _ ?_)
  split
  · split
    · exact hs
    · exact queuesOk_of_stays (modArb_stays _ s) hs
  · exact hs

theorem outboundRoom_init (s : State) (h : s.out = Vector.replicate 24 Outbound.init) : OutboundRoom s := by
  intro p
  simp [h, Outbound.init]

theorem queuesOk_softReset {s : State} (hs : QueuesOk s) : QueuesOk (applySoftReset s) := by
  refine ⟨?_, outboundRoom_init _ rfl⟩
  show (Management.soft s.mgmt).Ok
  obtain ⟨h1, h2, h3, h4⟩ := hs.1.settings
  refine ⟨Nat.zero_le _, hs.1.settings, fun h => ?_, fun _ => rfl⟩
  have : s.mgmt.settings.high ≤ 0 := h
  omega

theorem queuesOk_due {d : Due} {s : State} (hs : QueuesOk s) : QueuesOk (d.take s) := by
  cases hb : d.ofBlocks with
  | true => exact queuesOk_of_stays (due_stays hb s) hs
  | false =>
    cases d with
    | linkDown p => exact queuesOk_takeDown p hs
    | meterBlank => exact queuesOk_modMgmt hs (hs.1.of_eq rfl rfl rfl)
    | meterResult => exact queuesOk_reportMeter hs
    | softReset => exact queuesOk_softReset hs
    | service =>
      show QueuesOk (settleService s)
      unfold settleService
      split
      · exact queuesOk_placeWaiting hs
      · exact queuesOk_streamAll _ hs
      · exact hs
      · exact hs
      · exact hs
    | _ => simp [Due.ofBlocks] at hb

theorem queuesOk_applyTake {s : State} (hs : QueuesOk s) : QueuesOk (applyTake s) := by
  have hcleared : QueuesOk { s with takePending := none, takeDue := false } := hs
  unfold applyTake
  split
  · exact hs
  · next o _ =>
    dsimp only
    split
    · unfold abandonTake
      split
      · exact queuesOk_takeRespond _ _ _ hcleared
      · exact queuesOk_of_stays (reportCue_stays _ _ _ _ _ _) hcleared
    · unfold copyTake
      refine queuesOk_of_stays (handTake_stays _ _) ?_
      have hcopied : ∀ t : State, t.mgmt = s.mgmt → t.out = s.out → QueuesOk (takeAnswer o .ok t) := by
        intro t hm ho
        have ht : QueuesOk t := queuesOk_of_eq hm ho hs
        unfold takeAnswer
        split
        · exact queuesOk_takeRespond _ _ _ ht
        · exact ht
      exact hcopied _ (by rw [unjudgePorts]) (by rw [unjudgePorts])

theorem fillArea_stays_le (room : Nat) (q : List Message) : (fillArea room q).2.length ≤ q.length := by
  have h := congrArg List.length (fillArea_append room q)
  rw [List.length_append] at h
  omega

theorem queuesOk_sendFrames {s : State} (l : Vector (Option Block) 24) (hs : QueuesOk s) : QueuesOk (sendFrames l s) := by
  refine ⟨hs.1, fun p => ?_⟩
  rw [sendFrames_out]
  exact le_trans (fillArea_stays_le _ _) (hs.2 p)

theorem queuesOk_placeTakeWaiting {s : State} (hs : QueuesOk s) : QueuesOk (placeTakeWaiting s) := by
  unfold placeTakeWaiting
  refine foldl_keeps (P := QueuesOk) (fun t w ht => ?_) _ hs
  split
  · split
    · next u hu => exact queuesOk_placeResponse ht hu
    · exact ht
  · exact ht

theorem queuesOk_setMix {s : State} (m : MixState) (hs : QueuesOk s) : QueuesOk { s with mix := m } := hs

theorem queuesOk_close {s : State} (o d : Bool) (hs : QueuesOk s) : QueuesOk { s with opened := o, takeDue := d } := hs

theorem queuesOk_compose {s : State} (hs : QueuesOk s) : QueuesOk (composeCompletion s) := by
  have hsent : QueuesOk (noteReset (setSlots s).resetLeaves
      (placeTakeWaiting (sendFrames (setSlots s).computeMix.listen (setSlots s)))) := by
    have hplaced : QueuesOk (placeTakeWaiting (sendFrames (setSlots s).computeMix.listen (setSlots s))) :=
      queuesOk_placeTakeWaiting (queuesOk_sendFrames _ hs)
    unfold noteReset
    split
    · exact queuesOk_setService _ hplaced
    · exact hplaced
  unfold composeCompletion
  dsimp only
  generalize noteReset _ _ = t at hsent
  have hmix : QueuesOk (putMix (setSlots s).computeMix t) :=
    queuesOk_of_stays (Stays.foldl (fun t st => clipPresent_stays st t) _ _) (queuesOk_setMix _ hsent)
  generalize putMix _ t = u at hmix
  have hput : QueuesOk (putMeter (setSlots s).computeMix (putMarks u)) :=
    queuesOk_modMgmt (queuesOk_of_stays (putMarks_stays u) hmix) (hmix.1.of_eq rfl rfl rfl)
  have hticked : QueuesOk (tickPorts (putMeter (setSlots s).computeMix (putMarks u))) := by
    have htick : ∀ (p : Port) (t : State), QueuesOk t → QueuesOk (portTick p t) := fun p t ht =>
      queuesOk_of_stays (judgePort_stays p _) (queuesOk_modPort p _ ht)
    exact inAnyOrder_keeps (fun t n ht => queuesOk_of_stays (spend_stays n t) ht) htick _ _
      (foldl_keeps (fun t p ht => htick p t ht) _ hput)
  exact queuesOk_close _ _ hticked

theorem queuesOk_arriveArea {s : State} (p : Port) (area : List Byte) (hs : QueuesOk s) : QueuesOk (arriveArea p area s) := by
  unfold arriveArea
  refine foldl_keeps (P := QueuesOk) (fun t m ht => ?_) _ hs
  have hanswer : ∀ k tag r, QueuesOk (answer p k tag r t) := fun k tag r =>
    queuesOk_of_stays (modOut_stays p _ t fun o h => putAnswer_room o _ h) ht
  unfold arrive
  split
  · exact hanswer _ _ _
  · split
    · exact hanswer _ _ _
    · split
      · exact hanswer _ _ _
      · next hroom =>
        refine queuesOk_modMgmt ht (ht.1.setQueue ?_)
        rw [List.length_append]
        exact Nat.lt_of_not_le hroom

theorem queuesOk_receive {s : State} (p : Port) (bytes : List Byte) (hs : QueuesOk s) : QueuesOk (receive p bytes s) := by
  unfold receive
  split
  · exact queuesOk_modPort p _ hs
  next f _ =>
    split
    · exact hs
    · unfold validFrame
      have hjudged := queuesOk_of_stays (judgePort_stays p _)
        (queuesOk_modPort p (fun u => (u.valid f.seq).acquireStep) hs)
      dsimp only
      split
      · exact queuesOk_arriveArea p _ (queuesOk_of_stays (takeLevels_stays _ _ _ _) (queuesOk_modPort p _ hjudged))
      · exact hjudged

/-! The requests. -/

theorem queuesOk_putSettings {s : State} {v : Settings} (hv : SettingsOk v) (hs : QueuesOk s) :
    QueuesOk (putSettings v s) := by
  have hput : QueuesOk (s.modMgmt fun m =>
      { m with settings := v, hold := judgeHold v.high v.low m.queue.length m.hold }) :=
    queuesOk_modMgmt hs ⟨hs.1.room, hv, judgeHold_of_high, judgeHold_of_low hv.2.2.1⟩
  unfold putSettings judgeSupervision
  split <;> exact queuesOk_of_stays (modAuth_stays _ _) hput

theorem queuesOk_writeEntry {t : Table} {y : Bool} {i : Nat} {bs : List Byte} {s : State} (hs : QueuesOk s) :
    QueuesOk (writeEntry t y i bs s).2 := by
  obtain h | ⟨st, r, -, hr, h⟩ | ⟨n, r, h⟩ | ⟨st, n, c, hc, h⟩ | ⟨c, r, hc, h⟩ := writeEntry_cases t y i bs s
  all_goals rw [h]; exact hs

theorem queuesOk_closeMark {s : State} (w : Window) (e : Option Word) (hs : QueuesOk s) : QueuesOk (closeMark w e s) := by
  unfold closeMark
  split
  · exact queuesOk_setUnverified _ hs
  · split
    · exact queuesOk_clearUnverified _ hs
    · exact hs

theorem queuesOk_clearLost {s : State} (p : Port) (i : StatusItem) (hs : QueuesOk s) : QueuesOk (clearLost p i s) := by
  unfold clearLost
  split
  · exact queuesOk_of_stays (modOut_stays _ _ _ fun _ h => h) hs
  · exact hs

theorem queues_served : KeptServed QueuesOk where
  respond q r body s hs := queuesOk_respond q r body hs
  finish s hs := queuesOk_finishService hs
  ended s hs := queuesOk_endWindow hs
  place p m s t ht hs := queuesOk_placeResponse hs ht
  service v s hs := queuesOk_setService v hs
  window w s hs := queuesOk_modMgmt hs (hs.1.of_eq rfl rfl rfl)
  meter x s hs := queuesOk_modMgmt hs (hs.1.of_eq rfl rfl rfl)
  stream s hs := queuesOk_streamOne hs
  mark w e s hs := queuesOk_closeMark w e hs
  abort s hs := queuesOk_abortMeter hs
  lost p i s hs := queuesOk_clearLost p i hs
  taken o s hs := hs
  served s t h hs := queuesOk_of_stays h.stays hs
  entry t y i bs s hs := queuesOk_writeEntry hs
  revert s hs := hs
  settings v s hv hs := queuesOk_putSettings hv hs
  region f q s _ hs := hs
  pointer r t s _ hs := hs

theorem queuesOk_fresh {s : State} (hm : s.mgmt = Management.init) (ho : s.out = Vector.replicate 24 Outbound.init) :
    QueuesOk s :=
  ⟨hm ▸ Management.ok_init, outboundRoom_init s ho⟩

theorem queues_kept : Kept QueuesOk where
  spend s n hs := queuesOk_of_stays (spend_stays n s) hs
  line s hs := hs
  powerOn s _ := queuesOk_fresh rfl rfl
  lineReset s _ := queuesOk_fresh rfl rfl
  waiting s hs := queuesOk_placeWaiting hs
  stream s hs := queuesOk_streamOne hs
  due d s _ _ hs := queuesOk_due hs
  opens s hs := queuesOk_of_eq rfl rfl hs
  take s hs := queuesOk_applyTake hs
  compose s hs := queuesOk_compose hs
  receive p bytes s hs := queuesOk_receive p bytes hs
  request q s _ hs := queues_served.request q hs

/-- Settles O54: every queue takes a message or a request only while there is room, and HOLD is judged with each change of
the depth or the watermarks. -/
theorem queuesKeepTheirBounds : Obligations.QueuesKeepTheirBounds := by
  intro s t hs e
  exact queuesOk_iff.mp (queues_kept.step (fun s l hs => hs) (queuesOk_iff.mpr hs) e)

end Sys2Proof.Machine
end

section
/-! The step, the queue of commands, the asserted line and the resets (R1, R34, R37, R126, R181). -/

namespace Sys2Proof.Machine

/-- Settles O1: the two forms of the queue are the two cases of a step. -/
theorem stepRunsTheFrontCommand : Obligations.StepRunsTheFrontCommand := by
  refine ⟨fun c rest s h => ?_, fun s h => ?_⟩
  · rw [step, h]
  · rw [step, h]

/-! Every command answers a next state. -/

/-- Every command but those of the supply and the line runs an effect while the line is not asserted. -/
theorem exec_eq_running {c : Instr} (h1 : c ≠ .powerOn) (h2 : c ≠ .resetLineAssert) (h3 : c ≠ .resetLineRelease) :
    ∃ f : State → State, ∀ s, exec c s = running f s := by
  cases c
  case powerOn => exact absurd rfl h1
  case resetLineAssert => exact absurd rfl h2
  case resetLineRelease => exact absurd rfl h3
  all_goals exact ⟨_, fun s => rfl⟩

theorem exec_answers (c : Instr) (s : State) : ∃ t, exec c s = .next t := by
  by_cases h1 : c = .powerOn
  · exact ⟨powerOnState s, by rw [h1]; rfl⟩
  · by_cases h2 : c = .resetLineAssert
    · exact ⟨{ s with resetLine := true }, by rw [h2]; rfl⟩
    · by_cases h3 : c = .resetLineRelease
      · exact ⟨if s.resetLine then lineReset s else s, by rw [h3]; rfl⟩
      · obtain ⟨f, hf⟩ := exec_eq_running h1 h2 h3
        exact ⟨_, hf s⟩

theorem pending_writeEntry (t : Table) (y : Bool) (i : Nat) (bs : List Byte) (s : State) :
    (writeEntry t y i bs s).2.pending = s.pending := by
  obtain h | ⟨st, r, -, hr, h⟩ | ⟨n, r, h⟩ | ⟨st, n, c, hc, h⟩ | ⟨c, r, hc, h⟩ := writeEntry_cases t y i bs s
  all_goals rw [h]
  rfl

/-- No part of a command takes or puts a command that waits. -/
theorem pending_kept (l : List Instr) : KeptStays fun s => s.pending = l where
  same _ _ h := h.pending.trans
  stays _ _ h := h.pending.trans
  powerOn _ h := h
  lineReset _ h := h
  softReset _ h := h
  unit p f s _ := (State.modPort_pending s p f).trans
  slots s := (setSlots_pending s).trans
  frames l s := (sendFrames_pending l s).trans
  unjudge o n s := (unjudgePorts_pending o n s).trans
  opens s := (openCompletion_pending s).trans
  copy _ h := h
  mix _ _ _ h := h
  entry t y i bs s := (pending_writeEntry t y i bs s).trans
  revert _ h := h
  region f q s _ := (State.modTable_pending s _).trans
  pointer _ _ _ _ h := h

/-- Settles O2: each command runs one effect, and no effect takes or puts a command that waits. -/
theorem everyCommandAnswersNext : Obligations.EveryCommandAnswersNext := by
  intro c s
  obtain ⟨t, ht⟩ := exec_answers c s
  exact ⟨t, ht, (pending_kept s.pending).core.kept.exec c rfl ht⟩

/-- Settles O3: the assertion of an asserted line changes nothing, and every other command is held. -/
theorem assertedLineHoldsThePart : Obligations.AssertedLineHoldsThePart := by
  intro c s hline hpower hrelease
  by_cases hassert : c = .resetLineAssert
  · rw [hassert]
    show Host.Outcome.next { s with resetLine := true } = .next s
    rw [← hline]
  · obtain ⟨f, hf⟩ := exec_eq_running hpower hassert hrelease
    rw [hf, running_held hline]

/-! The three resets. -/

/-- Settles O4: power-on gives the reset state, whose values are read off item by item. -/
theorem powerOnGivesThePowerOnValues : Obligations.PowerOnGivesThePowerOnValues := by
  intro s
  refine ⟨powerOnState s, exec_powerOn s, fun st => ?_, fun n => ?_, fun st n => ?_, rfl, rfl, rfl, fun c => ?_, rfl, rfl,
    rfl, rfl, rfl, rfl, rfl, rfl, rfl, fun st => ?_, fun p => ?_, rfl, rfl, rfl, rfl⟩
  all_goals
    simp [powerOnState, State.reset, Bank.powerOn, Bank.cell, Cell.powerOn, CueTable.powerOn, MixState.init, Outbound.init]

/-- R173: the marks of the tables after an open check-required window has been ended by a reset. -/
theorem resetMarks_eq (s : State) :
    resetMarks s = { s with
      unverified := s.unverified || s.bankCheckOpen,
      table := { s.table with unverified := s.table.unverified || s.cueCheckOpen } } := by
  unfold resetMarks State.bankCheckOpen State.cueCheckOpen
  cases s.mgmt.window with
  | none => simp
  | some w =>
    obtain ⟨o, T, y, fi, la, cr, ad, ch⟩ := w
    cases T <;> cases cr <;> simp [setUnverified, State.modTable]

/-- Settles O5: an assertion changes the line alone; a release gives the reset-line values, with the marks that a reset
sets. -/
theorem resetLineKeepsTheTables : Obligations.ResetLineKeepsTheTables := by
  refine ⟨fun s => rfl, fun s h => ?notAsserted, fun s h => ?asserted⟩
  case notAsserted =>
    show Host.Outcome.next (if s.resetLine then lineReset s else s) = _
    rw [h]
    rfl
  case asserted =>
    refine ⟨lineReset s, exec_resetLineRelease_asserted h, rfl, ?_⟩
    unfold lineReset
    rw [resetMarks_eq]
    refine ⟨rfl, rfl, rfl, rfl, fun st => ?_, rfl, rfl, rfl, rfl, rfl, rfl, rfl, rfl, rfl, fun p => ?_⟩
    · rw [Fin.getElem_fin, Vector.getElem_ofFn]
      rfl
    · simp [State.reset, Outbound.init]

theorem Homing.soft_eq (h : Homing) :
    h.soft = { h with
      state := if h.state = .switching then .isolated else h.state,
      active := if h.state = .switching then none else h.active,
      switchRem := none, restorePending := false, restoreDue := false } := by
  unfold Homing.soft
  by_cases hsw : h.state = .switching <;> simp [hsw]

/-- Settles O6: the soft reset, with the marks that a reset sets, block by block. -/
theorem softResetKeepsWhatItSays : Obligations.SoftResetKeepsWhatItSays := by
  intro s hline hdue
  refine ⟨applySoftReset s, exec_softResetEffect_due hline hdue, ?_⟩
  unfold applySoftReset
  rw [resetMarks_eq]
  refine ⟨rfl, rfl, rfl, rfl, fun p => ?_, fun st => ?_, rfl, rfl, rfl, rfl, rfl, rfl, rfl, rfl, rfl⟩
  · simp [State.reset, PortUnit.soft, Outbound.init]
  · rw [Fin.getElem_fin, Vector.getElem_map, Homing.soft_eq]
    rfl

/-! The reset state (O60). -/

theorem homingFits_init {r : StationRecord} (h : r.enabled = false) : HomingFits r Homing.init := by
  refine ⟨fun _ => rfl, by simp [Homing.init], ?_⟩
  rw [if_neg (by simp [h])]
  exact ⟨rfl, rfl, rfl, rfl, rfl⟩

theorem powerOn_serves (p : Port) : Bank.powerOn.serves p = none := by
  simp [Bank.serves, StationRecord.names, Bank.powerOn, StationRecord.powerOn]

theorem thresholdsOk_powerOn : ThresholdsOk Bank.powerOn := by
  intro st
  simp [Bank.powerOn, StationRecord.powerOn]

theorem agrees_init (b : Bank) : Arbiter.init.Agrees b := by
  refine ⟨fun n => ?_, fun n m h hn => ?_, fun st k => ?_⟩
  · simp [Arbiter.entries, Arbiter.init]
  · simp [Arbiter.entries, Arbiter.init] at hn
  · simp [Arbiter.init]

/-- Settles O60: after power-on every queue and list is empty, every record disabled and every port unit at its reset
value. -/
theorem resetStateHasTheInvariants : Obligations.ResetStateHasTheInvariants := by
  obtain ⟨hroom, hout, hhold⟩ := queuesOk_iff.mp (queuesOk_fresh (s := State.reset) rfl rfl)
  refine ⟨hroom, hout, hhold, cueListOk_nil rfl, ?pointer, ?ports, ⟨depthsOk_powerOn, depthsOk_powerOn, duck_init⟩,
    ⟨rfl, fun _ => ⟨rfl, rfl⟩⟩, banksOk_iff.mpr ⟨bankOk_powerOn, bankOk_powerOn⟩, fun st => ?homing, fun n => ?talk, ?claims,
    ⟨thresholdsOk_powerOn, thresholdsOk_powerOn, fun p => ?conds⟩, agrees_init _, trivial⟩
  case pointer => unfold PointerOk; decide
  case ports =>
    intro p
    simp only [State.reset, Fin.getElem_fin, Vector.getElem_replicate]
    exact PortUnit.ok_init
  case homing =>
    rw [show State.reset.homing[st] = Homing.init by simp [State.reset]]
    exact homingFits_init (by simp [State.station, State.reset, Bank.powerOn, StationRecord.powerOn])
  case talk => simp [State.reset, Arbiter.init]
  case claims => exact ⟨List.nodup_nil, fun x hx => absurd hx List.not_mem_nil, fun e he => absurd he List.not_mem_nil⟩
  case conds =>
    refine ⟨by simp [State.reset, Faults.init, PortFaults.init, PortUnit.init], fun st hst => ?_⟩
    exact absurd ((powerOn_serves p).symm.trans hst) (by simp)

end Sys2Proof.Machine
end

section
/-! The block completion as a whole and the events that it brings (R38, notes/assumptions/1.md and 3.md); call holds and lamp
tests that run out (R14, R104), and what a Take does to lamp tests (R105). -/

namespace Sys2Proof.Machine

/-! The commands. -/

theorem exec_blockCompletion_calm {s : State} (h : Calm s) : exec .blockCompletion s = .next (blockCompletion s) :=
  settled_calm (f := blockCompletion) h

theorem exec_event {c : Instr} {d : Due} {s : State} (hc : eventOf c = some d) (h : Calm s) :
    exec c s = .next (atCompletion d s) := by
  cases c with
  | overloadCount | linkDown | callHoldExpiry | ackDeadlineExpiry | goHoldExpiry | followCountdownExpiry
      | switchoverTimeout | supervisionWindowExpiry | lampTestExpiry | meterBlankEnd | meterResult | restoreApply
      | softResetEffect =>
    cases hc
    exact settled_calm (f := atCompletion _) h
  | _ => cases hc

/-- The command of an event that is due takes it. -/
theorem exec_event_due {c : Instr} {d : Due} {s : State} (hc : eventOf c = some d) (h : Calm s) (hd : d.isDue s = true) :
    exec c s = .next (d.take s) := by
  rw [exec_event hc h, atCompletion_due hd]

theorem atCompletion_opened {d : Due} {s : State} (ho : s.opened = true) (hd : d.isDue s = false) : atCompletion d s = s := by
  simp [atCompletion, ensureOpen_opened ho, hd]

theorem atCompletion_closed {d : Due} {s : State} (ho : s.opened = false) (hn : NoneDue s) :
    atCompletion d s = if d.isDue (openCompletion s) then d.take (openCompletion s) else s := by
  simp [atCompletion, ensureOpen_closed ho hn, hn d]

/-- Settles O9: an event command looks at the state as it is, and then at the completion that it opens. -/
theorem eventCommandsTakeWhatIsDue : Obligations.EventCommandsTakeWhatIsDue := by
  intro c d s hc h
  refine ⟨fun hd => exec_event_due hc h hd, fun hd ho => ?_, fun ho hn => ?_⟩
  · rw [exec_event hc h, atCompletion_opened ho hd]
  · rw [exec_event hc h, atCompletion_closed ho hn]

/-! The fall of the timers. -/

theorem callState_fall_of_not_holding {c : CallState} (h : ∀ u r, c ≠ .holding u r) : c.fall = c := by
  cases c with
  | holding u r => exact absurd rfl (h u r)
  | idle => rfl
  | calling st k => rfl

theorem cueEntry_fall_eq (e : CueEntry) :
    e.fall = { e with
      deadline := match e.deadline with
        | .running r => .running (r - 1)
        | d => d,
      goHold := e.goHold - 1,
      follow := e.follow.map fun f => { f with remaining := f.remaining - 1, due := decide (f.remaining ≤ 1) } } := by
  unfold CueEntry.fall
  cases e.deadline <;> rfl

/-- Settles O8: a completion already open is composed at once; another is opened first, its timers falling field by
field. -/
theorem completionIsOneComputation : Obligations.CompletionIsOneComputation := by
  refine ⟨fun s h ho => ?opened, fun s h ho hn => ?closed, fun s => ?timers⟩
  case opened =>
    rw [exec_blockCompletion_calm h, blockCompletion, ensureOpen_opened ho]
  case closed =>
    rw [exec_blockCompletion_calm h, blockCompletion, ensureOpen_closed ho hn]
  case timers =>
    have hcalls : ∀ n : Net, (openCompletion s).arb.calls[n] = CallState.fall s.arb.calls[n] := by
      intro n
      simp [openCompletion]
    refine ⟨fun n c r hr => ?_, fun n hn => ?_, ?_, fun st => ⟨?_, ?_⟩, rfl, rfl⟩
    · rw [hcalls, hr]
      rfl
    · rw [hcalls, callState_fall_of_not_holding hn]
    · show s.cues.map CueEntry.fall = _
      exact List.map_congr_left fun e _ => cueEntry_fall_eq e
    · simp [openCompletion, LampState.fall]
    · simp [openCompletion, Homing.fall]

/-! Call holds and lamp tests (R14, R104). -/

theorem callHold_isDue {s : State} {n : Net} {c : Option Station} (h : s.arb.calls[n] = .holding c 0) :
    (Due.callHold n).isDue s = true := by
  rw [Due.isDue, h]
  rfl

theorem lamp_isDue {s : State} {st : Station} (h : s.lamps.timer[st] = some 0) : (Due.lamp st).isDue s = true := by
  rw [Due.isDue, h]
  rfl

/-! The lamp resolver's part of a Take (R105). -/

/-- What the part does to one station: the test row and the timer afterwards. -/
theorem takeStation_same (old new : Bank) (l : LampState) (st : Station) :
    let t := LampState.takeStation old new l st
    t.claims = l.claims ∧ (∀ u : Station, u ≠ st → t.test[u] = l.test[u] ∧ t.timer[u] = l.timer[u]) := by
  have hend : ∀ l : LampState, (l.endTest st).claims = l.claims
      ∧ ∀ u : Station, u ≠ st → (l.endTest st).test[u] = l.test[u] ∧ (l.endTest st).timer[u] = l.timer[u] := by
    intro l
    refine ⟨rfl, fun u hu => ?_⟩
    have hne : st.val ≠ u.val := fun e => hu (Fin.ext e.symm)
    simp [LampState.endTest, hne]
  intro t
  simp only [t, LampState.takeStation]
  split
  · exact hend l
  · split
    · unfold LampState.trimTest
      split
      · exact hend l
      · refine ⟨rfl, fun u hu => ⟨?_, rfl⟩⟩
        exact upd_other _ _ _ _ (Ne.symm hu)
    · exact ⟨rfl, fun u _ => ⟨rfl, rfl⟩⟩

/-- A fold over stations that changes each one's part by itself gives, for a station of the list, that station's part. -/
theorem takeStation_fold (old new : Bank) (l : LampState) (st : Station) (sts : List Station) (hn : sts.Nodup) :
    let t := sts.foldl (LampState.takeStation old new) l
    t.claims = l.claims
      ∧ (st ∉ sts → t.test[st] = l.test[st] ∧ t.timer[st] = l.timer[st])
      ∧ (st ∈ sts → ∃ k : LampState, k.test[st] = l.test[st] ∧ k.timer[st] = l.timer[st]
          ∧ t.test[st] = (LampState.takeStation old new k st).test[st]
          ∧ t.timer[st] = (LampState.takeStation old new k st).timer[st]) := by
  induction sts generalizing l with
  | nil => exact ⟨rfl, fun _ => ⟨rfl, rfl⟩, fun h => absurd h List.not_mem_nil⟩
  | cons u us ih =>
    obtain ⟨hu, hus⟩ := List.nodup_cons.mp hn
    obtain ⟨hclaims, hout, hin⟩ := ih (LampState.takeStation old new l u) hus
    obtain ⟨hsame, hother⟩ := takeStation_same old new l u
    refine ⟨hclaims.trans hsame, fun hst => ?_, fun hst => ?_⟩
    · obtain ⟨hne, hst⟩ := List.ne_and_not_mem_of_not_mem_cons hst
      obtain ⟨h1, h2⟩ := hout hst
      obtain ⟨h3, h4⟩ := hother st hne
      exact ⟨h1.trans h3, h2.trans h4⟩
    · by_cases hmem : st ∈ us
      · obtain ⟨h3, h4⟩ := hother st (fun e => hu (e ▸ hmem))
        obtain ⟨k, h5, h6, h7, h8⟩ := hin hmem
        exact ⟨k, h5.trans h3, h6.trans h4, h7, h8⟩
      · obtain rfl : st = u := (List.mem_cons.mp hst).resolve_right hmem
        obtain ⟨h1, h2⟩ := hout hu
        exact ⟨l, rfl, rfl, h1, h2⟩

theorem takeStation_ended {old new : Bank} {l : LampState} {st : Station}
    (h : new.stations[st].enabled = false ∨ new.stations[st].kind = .source) :
    LampState.takeStation old new l st = l.endTest st := by
  refine if_pos ?_
  rcases h with h | h <;> simp [-Fin.getElem_fin, h]

theorem endTest_same (l : LampState) (st : Station) :
    (l.endTest st).test[st] = Vector.replicate 4 false ∧ (l.endTest st).timer[st] = none := by
  simp [LampState.endTest]

theorem takeStation_enabled {old new : Bank} {l : LampState} {st : Station} (he : new.stations[st].enabled = true)
    (hk : new.stations[st].kind ≠ .source) :
    LampState.takeStation old new l st =
      if new.stations[st].lampCount < old.stations[st].lamps then l.trimTest st new.stations[st].lampCount else l := by
  unfold LampState.takeStation
  simp [-Fin.getElem_fin, he, hk, StationRecord.lamps_of_not_source hk]

theorem lamps_eq (r : StationRecord) : r.lamps = if r.kind = .source then 0 else r.lampCount := rfl

theorem trimTest_same (l : LampState) (st : Station) (count : Nat) :
    (∀ j : Lamp, (l.trimTest st count).test[st][j] = (l.test[st][j] && decide (j.val < count)))
      ∧ (l.trimTest st count).timer[st] = if count = 0 then none else l.timer[st] := by
  unfold LampState.trimTest
  by_cases h : count = 0
  · obtain ⟨htest, htimer⟩ := endTest_same l st
    rw [if_pos h, if_pos h, htest, htimer]
    exact ⟨fun j => by simp [h], rfl⟩
  · rw [if_neg h, if_neg h]
    refine ⟨fun j => ?_, rfl⟩
    rw [upd_same]
    simp

/-- Settles O15: each expiry is due and takes one assignment; the part of a Take is a fold whose result for a station is
what it does to that station. -/
theorem callHoldAndLampTestEnd : Obligations.CallHoldAndLampTestEnd := by
  refine ⟨fun s h => ⟨fun n c hc => ?_, fun st hst => ?_⟩, fun old new l => ?_⟩
  · rw [exec_event_due (d := .callHold n) rfl h (callHold_isDue hc)]
    rfl
  · rw [exec_event_due (d := .lamp st) rfl h (lamp_isDue hst)]
    rfl
  · refine ⟨(takeStation_fold old new l 0 allStations (List.nodup_finRange 24)).1, fun st => ?_⟩
    obtain ⟨-, -, hin⟩ := takeStation_fold old new l st allStations (List.nodup_finRange 24)
    obtain ⟨k, hktest, hktimer, htest, htimer⟩ := hin (List.mem_finRange st)
    dsimp only
    rw [← lamps_eq, LampState.applyTake, htest, htimer, ← hktest, ← hktimer]
    refine ⟨fun hoff => ?_, fun he hk hlt => ?_, fun he hk hle => ?_⟩
    · rw [takeStation_ended hoff]
      exact endTest_same k st
    · rw [takeStation_enabled he hk, if_pos hlt]
      exact trimTest_same k st _
    · rw [takeStation_enabled he hk, if_neg (Nat.not_lt.mpr hle)]
      exact ⟨rfl, rfl⟩

/-- Settles O31: with a free slot the first branch of a placed press is taken. -/
theorem pressTakesAFreeSlot : Obligations.PressTakesAFreeSlot := by
  intro b n st k a hfree
  rw [Arbiter.placePress, if_pos hfree]
  rfl

end Sys2Proof.Machine
end

section
/-! What the events of talk, calls, announce and faults do to the other blocks: nothing but to the talk arbiter, by its own
steps (`ArbStep`), and to the flags of the fault supervisor (`Aside`). -/

namespace Sys2Proof.Machine

/-! The steps of the talk arbiter. -/

/-- What an event does to the talk arbiter while bank `b` is LIVE: it places a press on the net whose cell carries the key,
marks or releases a key, withdraws a station, or leaves the lists and the talk standings as they are. -/
inductive ArbStep (b : Bank) : Arbiter → Arbiter → Prop where
  | place (a : Arbiter) (n : Net) (st : Station) (k : Key) : b.netOfKey st k = some n → a.stands st k = false →
      ArbStep b a (a.placePress b n ⟨st, k⟩)
  | mute (a : Arbiter) (st : Station) (k : Key) : a.stands st k = false → ArbStep b a (a.setTalk st k .muted)
  | release (a : Arbiter) (st : Station) (k : Key) : ArbStep b a (a.talkRelease b st k)
  | withdraw (a : Arbiter) (st : Station) (c : WithdrawCause) : ArbStep b a (a.withdraw b st c)
  | quiet (a a' : Arbiter) : a'.holders = a.holders → a'.waits = a.waits → a'.talk = a.talk → ArbStep b a a'

/-- Any number of steps of the talk arbiter. -/
def ArbReach (b : Bank) : Arbiter → Arbiter → Prop := Relation.ReflTransGen (ArbStep b)

namespace ArbReach

variable {b : Bank}

theorem refl (a : Arbiter) : ArbReach b a a := Relation.ReflTransGen.refl

theorem trans {a a' a'' : Arbiter} (h : ArbReach b a a') (k : ArbReach b a' a'') : ArbReach b a a'' := Relation.ReflTransGen.trans h k

theorem step {a a' : Arbiter} (h : ArbStep b a a') : ArbReach b a a' := .single h

theorem foldl {α : Type} {f : Arbiter → α → Arbiter} (h : ∀ a x, ArbReach b a (f a x)) (l : List α) (a : Arbiter) :
    ArbReach b a (l.foldl f a) := by
  induction l generalizing a with
  | nil => exact refl a
  | cons x l ih => exact (h a x).trans (ih (f a x))

end ArbReach

theorem endCalls_quiet (b : Bank) (st : Station) (p : Key → Bool) (a : Arbiter) : ArbStep b a (a.endCalls b st p) :=
  .quiet _ _ (by rw [Arbiter.endCalls]) (by rw [Arbiter.endCalls]) (by rw [Arbiter.endCalls])

theorem setCall_quiet (b : Bank) (n : Net) (c : CallState) (a : Arbiter) : ArbStep b a (a.setCall n c) :=
  .quiet _ _ rfl rfl rfl

theorem announceRelease_quiet (b : Bank) (st : Station) (a : Arbiter) : ArbStep b a (a.announceRelease st) := by
  unfold Arbiter.announceRelease Arbiter.freeAnnounce
  split <;> exact .quiet _ _ rfl rfl rfl

theorem announceTake_quiet (b b' : Bank) (st : Station) (a : Arbiter) :
    ArbStep b a (a.announceTake b' st) := by
  unfold Arbiter.announceTake
  split
  · exact .quiet _ _ rfl rfl rfl
  · split <;> exact .quiet _ _ rfl rfl rfl

theorem cueCall_reach (b : Bank) (n : Net) (a : Arbiter) : ArbReach b a (a.cueCall b n) := by
  unfold Arbiter.cueCall
  split
  · split
    · exact .refl a
    · exact .step (setCall_quiet b n _ a)
    · exact .step (setCall_quiet b n _ a)
  · exact .refl a

/-- R131: the releases of the levels held. -/
theorem releaseHeld_reach (b : Bank) (st : Station) (held : Levels) (a : Arbiter) :
    ArbReach b a (releaseHeld b st held a) := by
  have hkeys : ArbReach b a (allKeys.foldl (fun a k => if held.talk[k] then a.talkRelease b st k else a) a) := by
    refine ArbReach.foldl (fun a k => ?_) _ a
    split
    · exact .step (.release a st k)
    · exact .refl a
  unfold releaseHeld
  dsimp only
  generalize allKeys.foldl _ a = a1 at hkeys
  have hann : ArbReach b a1 (if held.announce then a1.announceRelease st else a1) := by
    split
    · exact .step (announceRelease_quiet b st a1)
    · exact .refl a1
  split
  · exact (hkeys.trans hann).trans (.step (endCalls_quiet b st _ _))
  · exact hkeys.trans hann

/-- R12: the releases of a reconciling frame. -/
theorem reconcileArb_reach (b : Bank) (st : Station) (new : Levels) (a : Arbiter) :
    ArbReach b a (reconcileArb b st new a) := by
  have hkeys : ArbReach b a
      (allKeys.foldl (fun a k => if a.talk[st][k] ≠ .off && !new.talk[k] then a.talkRelease b st k else a) a) := by
    refine ArbReach.foldl (fun a k => ?_) _ a
    split
    · exact .step (.release a st k)
    · exact .refl a
  unfold reconcileArb
  dsimp only
  generalize allKeys.foldl _ a = a1 at hkeys
  have hcalls : ArbReach b a1 (a1.endCalls b st fun k => new.call ≠ some k) := .step (endCalls_quiet b st _ a1)
  split
  · exact (hkeys.trans hcalls).trans (.step (announceRelease_quiet b st _))
  · exact hkeys.trans hcalls

/-! What an event of talk, cues or faults leaves alone. -/

/-- `t` has the authority, the homing and the link conditions of `s`, and an arbiter that `s`'s reaches by its own steps. -/
structure Aside (s t : State) : Prop where
  stays : Stays s t
  auth : t.auth = s.auth
  homing : t.homing = s.homing
  conds : ∀ p : Port, t.ports[p].cond = s.ports[p].cond ∧ t.faults.ports[p].linkCond = s.faults.ports[p].linkCond
  talk : ArbReach s.live s.arb t.arb

/-- The claims agree with the targets afterwards if they did before. -/
def ClaimsKept (s t : State) : Prop := CueListOk s → ClaimsOk s → ClaimsOk t

/-- An event that leaves everything `Aside` leaves alone, and the claims in order. -/
structure Beside (s t : State) : Prop extends Aside s t where
  claims : ClaimsKept s t

theorem claimsOk_of_eq {s t : State} (hl : t.lamps.claims = s.lamps.claims) (hc : t.cues = s.cues)
    (hr : t.table.records = s.table.records) (h : ClaimsOk s) : ClaimsOk t := by
  unfold ClaimsOk State.cueRec at h ⊢
  rwa [hl, hc, hr]

theorem claimsKept_of_eq {s t : State} (hl : t.lamps.claims = s.lamps.claims) (hc : t.cues = s.cues)
    (hr : t.table.records = s.table.records) : ClaimsKept s t := fun _ => claimsOk_of_eq hl hc hr

namespace Aside

theorem refl (s : State) : Aside s s := ⟨Stays.refl s, rfl, rfl, fun _ => ⟨rfl, rfl⟩, .refl _⟩

theorem trans {s t u : State} (h : Aside s t) (k : Aside t u) : Aside s u where
  stays := h.stays.trans k.stays
  auth := k.auth.trans h.auth
  homing := k.homing.trans h.homing
  conds p := ⟨(k.conds p).1.trans (h.conds p).1, (k.conds p).2.trans (h.conds p).2⟩
  talk := h.talk.trans (h.stays.live ▸ k.talk)

theorem foldl {α : Type} {f : State → α → State} (h : ∀ s a, Aside s (f s a)) (l : List α) (s : State) :
    Aside s (l.foldl f s) := by
  induction l generalizing s with
  | nil => exact refl s
  | cons a l ih => exact (h s a).trans (ih (f s a))

end Aside

namespace Beside

theorem refl (s : State) : Beside s s := ⟨Aside.refl s, fun _ h => h⟩

theorem trans {s t u : State} (h : Beside s t) (k : Beside t u) : Beside s u :=
  ⟨h.toAside.trans k.toAside, fun hl hc => k.claims (h.stays.cueList hl) (h.claims hl hc)⟩

theorem foldl {α : Type} {f : State → α → State} (h : ∀ s a, Beside s (f s a)) (l : List α) (s : State) :
    Beside s (l.foldl f s) := by
  induction l generalizing s with
  | nil => exact refl s
  | cons a l ih => exact (h s a).trans (ih (f s a))

end Beside

/-! Updates that are beside the rest. -/

theorem modArb_beside {f : Arbiter → Arbiter} {s : State} (h : ArbReach s.live s.arb (f s.arb)) : Beside s (s.modArb f) :=
  ⟨⟨modArb_stays f s, rfl, rfl, fun _ => ⟨rfl, rfl⟩, h⟩, claimsKept_of_eq rfl rfl rfl⟩

theorem setFaults_beside {f : Faults} {s : State} (h : ∀ p : Port, f.ports[p].linkCond = s.faults.ports[p].linkCond) :
    Beside s { s with faults := f } :=
  ⟨⟨setFaults_stays f s, rfl, rfl, fun p => ⟨rfl, h p⟩, .refl _⟩, claimsKept_of_eq rfl rfl rfl⟩

theorem modStFaults_beside (st : Station) (f : StationFaults → StationFaults) (s : State) : Beside s (s.modStFaults st f) :=
  setFaults_beside fun _ => rfl

theorem modPortFaults_beside {p : Port} {f : PortFaults → PortFaults} {s : State} (h : ∀ x, (f x).linkCond = x.linkCond) :
    Beside s (s.modPortFaults p f) := by
  refine setFaults_beside fun q => ?_
  dsimp only
  rw [upd_get]
  split
  · exact h _
  · rfl

theorem modPort_beside {p : Port} {f : PortUnit → PortUnit} {s : State} (hl : ∀ u, (f u).link = u.link)
    (hc : ∀ u, (f u).cond = u.cond) : Beside s (s.modPort p f) := by
  refine ⟨⟨modPort_stays p f s hl, rfl, rfl, fun q => ⟨?_, rfl⟩, .refl _⟩, claimsKept_of_eq rfl rfl rfl⟩
  rw [State.modPort_ports, upd_get]
  split
  · exact hc _
  · rfl

theorem setOut_beside {v : Vector Outbound 24} {s : State} (h : Stays s { s with out := v }) : Beside s { s with out := v } :=
  ⟨⟨h, rfl, rfl, fun _ => ⟨rfl, rfl⟩, .refl _⟩, claimsKept_of_eq rfl rfl rfl⟩

theorem broadcast_beside (m : Message) (s : State) : Beside s (broadcast m s) := setOut_beside (broadcast_stays m s)

theorem placeReport_beside (p : Port) (m : Message) (s : State) : Beside s (placeReport p m s) :=
  setOut_beside (placeReport_stays p m s)

theorem cueReport_beside (m : Message) (s : State) : Beside s (cueReport m s) := by
  unfold cueReport
  split
  · exact placeReport_beside _ _ s
  · exact .refl s

theorem reportCue_beside (k : Nat) (c : CueIx) (d1 d2 d3 : Nat) (s : State) : Beside s (reportCue k c d1 d2 d3 s) :=
  cueReport_beside _ s

theorem reportHoming_beside (k : Nat) (st : Station) (r : List Byte) (s : State) : Beside s (reportHoming k st r s) :=
  broadcast_beside _ s

theorem spend_beside (n : Nat) (s : State) : Beside s (s.spend n) := by
  have h := spend_stays n s
  by_cases hn : n ≤ 1
  · rw [State.spend, if_pos hn]
    exact .refl s
  · rw [State.spend, if_neg hn] at h ⊢
    exact ⟨⟨h, rfl, rfl, fun _ => ⟨rfl, rfl⟩, .refl _⟩, claimsKept_of_eq rfl rfl rfl⟩

theorem setTakePending_beside (o : Option TakeOrigin) (s : State) : Beside s { s with takePending := o } :=
  ⟨⟨setTakePending_stays o s, rfl, rfl, fun _ => ⟨rfl, rfl⟩, .refl _⟩, claimsKept_of_eq rfl rfl rfl⟩

theorem modLamps_beside {f : LampState → LampState} {s : State} (h : (f s.lamps).claims = s.lamps.claims) :
    Beside s (s.modLamps f) :=
  ⟨⟨modLamps_stays f s, rfl, rfl, fun _ => ⟨rfl, rfl⟩, .refl _⟩, claimsKept_of_eq h rfl rfl⟩

theorem cueEvent_beside (s : State) : Beside s (cueEvent s) := by
  unfold cueEvent
  split
  · exact setFaults_beside fun _ => rfl
  · exact .refl s

/-! Talk, calls and announce. -/

theorem endMute_beside (st : Station) (c : MuteEnd) (s : State) : Beside s (endMute st c s) :=
  (modStFaults_beside st _ s).trans (broadcast_beside _ _)

theorem pressNet_netOfKey {s : State} {st : Station} {k : Key} {n : Net} (h : s.pressNet st k = some n) :
    s.live.netOfKey st k = some n := by
  unfold State.pressNet at h
  split at h
  · split at h
    · next m hm =>
      split at h
      · cases h; exact hm
      · cases h
    · cases h
  · cases h

@[simp] theorem broadcast_arb (m : Message) (s : State) : (broadcast m s).arb = s.arb := by rw [broadcast]

theorem endMute_arb (st : Station) (c : MuteEnd) (s : State) : (endMute st c s).arb = s.arb := by
  rw [endMute, broadcast_arb, State.modStFaults]

theorem place_beside {s u : State} {n : Net} {st : Station} {k : Key} (hl : u.live = s.live) (ha : u.arb = s.arb)
    (hkey : s.live.netOfKey st k = some n) (hnot : s.arb.stands st k = false) :
    Beside u (u.modArb (Arbiter.placePress s.live n ⟨st, k⟩)) := by
  refine modArb_beside (.step ?_)
  rw [hl, ha]
  exact .place _ n st k hkey hnot

theorem announceTake_beside (b : Bank) (st : Station) (s : State) : Beside s (s.modArb (Arbiter.announceTake b st)) :=
  modArb_beside (f := Arbiter.announceTake b st) (.step (announceTake_quiet _ b st _))

theorem talkPress_beside (st : Station) (k : Key) (s : State) : Beside s (talkPress st k s) := by
  unfold talkPress
  split
  · exact .refl s
  · next n hn =>
    split
    · exact .refl s
    · next hst =>
      have hnot : s.arb.stands st k = false := Bool.eq_false_iff.mpr hst
      have hkey := pressNet_netOfKey hn
      split
      · exact (endMute_beside st _ s).trans (place_beside (endMute_stays st _ s).live (endMute_arb st _ s) hkey hnot)
      · split
        · exact place_beside rfl rfl hkey hnot
        · exact modArb_beside (f := (·.setTalk st k .muted)) (.step (.mute _ st k hnot))

theorem callPress_beside (st : Station) (k : Key) (s : State) : Beside s (callPress st k s) := by
  unfold callPress
  split
  · exact .refl s
  · split
    · exact modArb_beside (.step (setCall_quiet _ _ _ _))
    · exact .refl s

theorem announcePress_beside (st : Station) (s : State) : Beside s (announcePress st s) := by
  unfold announcePress
  split
  · split
    · exact (endMute_beside st _ s).trans (announceTake_beside _ st _)
    · split
      · exact announceTake_beside _ st s
      · exact modArb_beside (f := (·.setAnn st .refused)) (.step (.quiet _ _ rfl rfl rfl))
  · exact .refl s

theorem talkRelease_beside (st : Station) (k : Key) (s : State) : Beside s (s.modArb (Arbiter.talkRelease s.live st k)) :=
  modArb_beside (.step (.release _ st k))

theorem withdraw_beside (st : Station) (c : WithdrawCause) (s : State) :
    Beside s (s.modArb (Arbiter.withdraw s.live st c)) := modArb_beside (.step (.withdraw _ st c))

theorem talkEdges_beside (st : Station) (o n : Levels) (s : State) : Beside s (talkEdges st o n s) := by
  unfold talkEdges
  refine Beside.foldl (fun t k => ?_) _ s
  split
  · exact .refl t
  · split
    · exact talkPress_beside st k t
    · exact talkRelease_beside st k t

theorem callRelease_beside (st : Station) (k : Key) (s : State) : Beside s (s.modArb (Arbiter.callRelease s.live st k)) :=
  modArb_beside (.step (endCalls_quiet _ st _ _))

theorem callEdges_beside (st : Station) (o n : Levels) (s : State) : Beside s (callEdges st o n s) := by
  unfold callEdges
  split
  · exact .refl s
  · cases o.call <;> cases n.call <;> dsimp only
    · exact .refl s
    · exact callPress_beside _ _ s
    · exact callRelease_beside _ _ s
    · exact (callRelease_beside _ _ s).trans (callPress_beside _ _ _)

theorem announceEdges_beside (st : Station) (o n : Levels) (s : State) : Beside s (announceEdges st o n s) := by
  unfold announceEdges
  split
  · exact .refl s
  · split
    · exact announcePress_beside _ s
    · exact modArb_beside (.step (announceRelease_quiet _ st _))

/-! Faults. -/

theorem beginMute_beside (st : Station) (m : Mute) (s : State) : Beside s (beginMute st m s) :=
  (modStFaults_beside st _ s).trans (withdraw_beside st .mute _)

theorem overloadAct_beside (st : Station) (m : Mode) (s : State) : Beside s (overloadAct st m s) := by
  unfold overloadAct
  split
  · split
    · exact beginMute_beside _ _ s
    · exact .refl s
  · split
    · exact modStFaults_beside _ _ s
    · split
      · exact beginMute_beside _ _ s
      · exact .refl s
  · exact modStFaults_beside _ _ s
  · exact .refl s
  · exact .refl s

theorem overloadBegun_beside (st : Station) (s : State) : Beside s (overloadBegun st s) := by
  unfold overloadBegun
  dsimp only
  split
  · exact .refl s
  · exact (overloadAct_beside _ _ s).trans (broadcast_beside _ _)

theorem overloadEnded_beside (st : Station) (s : State) : Beside s (overloadEnded st s) := by
  unfold overloadEnded
  split
  · exact .refl s
  · exact broadcast_beside _ s

theorem countMark_beside (st : Station) (m : Bool) (s : State) : Beside s (countMark st m s) := by
  unfold countMark
  dsimp only
  have h := modStFaults_beside st (fun _ => (s.faults.stations[st]).count m) s
  split
  · exact h
  · split
    · exact h.trans (overloadBegun_beside _ _)
    · exact h.trans (overloadEnded_beside _ _)

theorem takeMark_beside (st : Station) (s : State) : Beside s (takeMark st s) := by
  unfold takeMark
  split
  · exact countMark_beside _ _ s
  · exact .refl s

theorem clipPresent_beside (st : Station) (s : State) : Beside s (clipPresent st s) := by
  unfold clipPresent
  split
  · exact (modStFaults_beside _ _ s).trans (broadcast_beside _ _)
  · exact .refl s

theorem clearMute_beside (s : State) (st : Station) : Beside s (clearMute s st) := by
  unfold clearMute
  split
  · exact endMute_beside _ _ s
  · exact .refl s

theorem clearFlags_beside (s : State) : Beside s (clearFlags s) := by
  unfold clearFlags
  refine setFaults_beside fun p => ?_
  simp [PortFaults.cleared]

theorem linkRaised_beside (p : Port) (st : Station) (s : State) : Beside s (linkRaised p st s) := by
  unfold linkRaised
  dsimp only
  split
  · exact broadcast_beside _ s
  · exact broadcast_beside _ s
  · exact (modPortFaults_beside fun _ => by rfl).trans (broadcast_beside _ _)
  · exact .refl s
  · exact .refl s

theorem linkEnded_beside (p : Port) (st : Station) (s : State) : Beside s (linkEnded p st s) := by
  unfold linkEnded
  split
  · exact .refl s
  · exact broadcast_beside _ s

theorem reoverload_beside (s : State) (st : Station) : Beside s (reoverload s st) := by
  unfold reoverload
  split
  · exact overloadBegun_beside _ s
  · exact .refl s

theorem reportUnmuted_beside (v : Vector StationFaults 24) (s : State) (st : Station) :
    Beside s (reportUnmuted v s st) := by
  unfold reportUnmuted
  split
  · exact broadcast_beside _ s
  · exact .refl s

theorem evalOverload_beside (s : State) : Beside s (evalOverload s) := by
  have h : Beside s (s.modAllStFaults fun f => { f with mute := .none, overWarn := false }) := setFaults_beside fun _ => rfl
  exact (h.trans (Beside.foldl reoverload_beside _ _)).trans (Beside.foldl (reportUnmuted_beside _) _ _)

theorem reclip_beside (s : State) (st : Station) : Beside s (reclip s st) := by
  unfold reclip
  split
  · exact clipPresent_beside _ s
  · exact .refl s

theorem evalClip_beside (s : State) : Beside s (evalClip s) := by
  have h : Beside s (s.modAllStFaults fun f => { f with clipWarn := false }) := setFaults_beside fun _ => rfl
  exact h.trans (Beside.foldl reclip_beside _ _)

theorem modAllPortFaults_beside {f : PortFaults → PortFaults} {s : State} (h : ∀ x, (f x).linkCond = x.linkCond) :
    Beside s (s.modAllPortFaults f) := by
  refine setFaults_beside fun p => ?_
  simp only [Fin.getElem_fin, Vector.getElem_map]
  exact h _

theorem setAwaiting_beside (p : Port) (b : Bool) (s : State) : Beside s (setAwaiting p b s) :=
  modPort_beside (fun _ => rfl) fun _ => rfl

theorem clearAwaiting_beside (r : StationRecord) (s : State) : Beside s (clearAwaiting r s) := by
  unfold clearAwaiting
  split
  · exact (setAwaiting_beside _ _ s).trans (setAwaiting_beside _ _ _)
  · exact setAwaiting_beside _ _ s

theorem restartInput_beside (p : Port) (s : State) : Beside s (restartInput p s) :=
  modPort_beside (fun _ => rfl) fun _ => rfl

end Sys2Proof.Machine
end

section
/-! The cue controller's claims (R75, R101): what placing and withdrawing a claim do to the claims, what each change of a
target keeps, and the invariant that every event of the cues keeps. -/

namespace Sys2Proof.Machine

/-! The claims of the lamp resolver (R101). -/

theorem Claim.isOf_iff {x : Claim} {c : CueIx} {i : Nat} : x.isOf c i = true ↔ x.cue = c ∧ x.pos = i := by
  simp [Claim.isOf]

theorem LampState.any_isOf {l : LampState} {c : CueIx} {i : Nat} :
    l.claims.any (·.isOf c i) = true ↔ ∃ x ∈ l.claims, x.cue = c ∧ x.pos = i := by
  simp [Claim.isOf_iff]

/-- The claims of other sources are left alone. -/
theorem LampState.mem_place_other {l : LampState} {c : CueIx} {i : Nat} {st : Station} {j : Lamp} {r : Rank} {x : Claim}
    (h : ¬ (x.cue = c ∧ x.pos = i)) : x ∈ (l.place c i st j r).claims ↔ x ∈ l.claims := by
  unfold LampState.place
  split
  · constructor
    · intro hx
      obtain ⟨y, hy, rfl⟩ := List.mem_map.mp hx
      by_cases hof : y.isOf c i = true
      · rw [if_pos hof] at h
        exact absurd (Claim.isOf_iff.mp hof) h
      · rwa [if_neg hof]
    · intro hx
      exact List.mem_map.mpr ⟨x, hx, if_neg fun hof => h (Claim.isOf_iff.mp hof)⟩
  · rw [List.mem_append, List.mem_singleton]
    exact ⟨fun hx => hx.resolve_right fun e => h (by rw [e]; exact ⟨rfl, rfl⟩), .inl⟩

/-- The source has a claim of the rank. -/
theorem LampState.exists_mem_place (l : LampState) (c : CueIx) (i : Nat) (st : Station) (j : Lamp) (r : Rank) :
    ∃ x ∈ (l.place c i st j r).claims, x.cue = c ∧ x.pos = i ∧ x.rank = r := by
  unfold LampState.place
  split
  · next h =>
    obtain ⟨x, hx, hc, hi⟩ := LampState.any_isOf.mp h
    have hof : x.isOf c i = true := Claim.isOf_iff.mpr ⟨hc, hi⟩
    exact ⟨{ x with rank := r }, List.mem_map.mpr ⟨x, hx, if_pos hof⟩, hc, hi, rfl⟩
  · exact ⟨⟨c, i, st, j, r⟩, List.mem_append_right _ (List.mem_singleton_self _), rfl, rfl, rfl⟩

/-- Every claim of cue `c` stands on the station and lamp that the targets `R` give its position. -/
def LampState.Follows (l : LampState) (c : CueIx) (R : List (Station × Lamp)) : Prop :=
  ∀ x ∈ l.claims, x.cue = c → R[x.pos]? = some (x.st, x.lamp)

/-- A claim of the source has the rank, and the place that the targets give it. -/
theorem LampState.eq_of_mem_place {l : LampState} {c : CueIx} {i : Nat} {st : Station} {j : Lamp} {r : Rank}
    {R : List (Station × Lamp)} (hl : l.Follows c R) (hR : R[i]? = some (st, j)) {x : Claim}
    (hx : x ∈ (l.place c i st j r).claims) (hc : x.cue = c) (hi : x.pos = i) : x = ⟨c, i, st, j, r⟩ := by
  unfold LampState.place at hx
  split at hx
  · obtain ⟨y, hy, rfl⟩ := List.mem_map.mp hx
    by_cases hof : y.isOf c i = true
    · obtain ⟨rfl, rfl⟩ := Claim.isOf_iff.mp hof
      have hy' := hl y hy rfl
      rw [hR] at hy'
      obtain ⟨rfl, rfl⟩ := Prod.mk.inj (Option.some.inj hy')
      rw [if_pos hof]
    · rw [if_neg hof] at hc hi
      exact absurd (Claim.isOf_iff.mpr ⟨hc, hi⟩) hof
  · next h =>
    rcases List.mem_append.mp hx with hx | hx
    · exact absurd (LampState.any_isOf.mpr ⟨x, hx, hc, hi⟩) h
    · exact List.mem_singleton.mp hx

theorem LampState.mem_place {l : LampState} {c : CueIx} {i : Nat} {st : Station} {j : Lamp} {r : Rank}
    {R : List (Station × Lamp)} (hl : l.Follows c R) (hR : R[i]? = some (st, j)) {x : Claim} :
    x ∈ (l.place c i st j r).claims ↔ x = ⟨c, i, st, j, r⟩ ∨ (x ∈ l.claims ∧ ¬ (x.cue = c ∧ x.pos = i)) := by
  by_cases h : x.cue = c ∧ x.pos = i
  · constructor
    · exact fun hx => .inl (LampState.eq_of_mem_place hl hR hx h.1 h.2)
    · rintro (rfl | ⟨-, hx⟩)
      · obtain ⟨y, hy, hc, hi, -⟩ := l.exists_mem_place c i st j r
        rwa [← LampState.eq_of_mem_place hl hR hy hc hi]
      · exact absurd h hx
  · rw [LampState.mem_place_other h]
    exact ⟨fun hx => .inr ⟨hx, h⟩, fun hx => hx.elim (fun e => absurd (by rw [e]; exact ⟨rfl, rfl⟩) h) And.left⟩

theorem LampState.Follows.place {l : LampState} {c : CueIx} {i : Nat} {st : Station} {j : Lamp} {r : Rank}
    {R : List (Station × Lamp)} (hl : l.Follows c R) (hR : R[i]? = some (st, j)) :
    (l.place c i st j r).Follows c R := by
  intro x hx hc
  rcases (LampState.mem_place hl hR).mp hx with rfl | ⟨hx, -⟩
  · exact hR
  · exact hl x hx hc

/-- The sources of claims. -/
def LampState.sources (l : LampState) : List (CueIx × Nat) := l.claims.map fun x => (x.cue, x.pos)

theorem LampState.sources_place {l : LampState} (h : l.sources.Nodup) (c : CueIx) (i : Nat) (st : Station) (j : Lamp)
    (r : Rank) : (l.place c i st j r).sources.Nodup := by
  unfold LampState.sources LampState.place at *
  split
  · rw [List.map_map]
    rw [List.map_congr_left (g := fun x : Claim => (x.cue, x.pos))]
    · exact h
    · intro x _
      dsimp only [Function.comp_apply]
      split <;> rfl
  · next hnone =>
    rw [List.map_append, List.nodup_append]
    refine ⟨h, List.nodup_singleton _, fun a ha b hb hab => ?_⟩
    obtain ⟨x, hx, rfl⟩ := List.mem_map.mp ha
    rw [List.map_singleton, List.mem_singleton] at hb
    obtain ⟨hc, hi⟩ := Prod.mk.inj (hab.trans hb)
    exact hnone (LampState.any_isOf.mpr ⟨x, hx, hc, hi⟩)

theorem LampState.mem_withdraw {l : LampState} {c : CueIx} {i : Nat} {x : Claim} :
    x ∈ (l.withdraw c i).claims ↔ x ∈ l.claims ∧ ¬ (x.cue = c ∧ x.pos = i) := by
  simp only [LampState.withdraw, List.mem_filter, Bool.not_eq_true', ← Claim.isOf_iff, Bool.not_eq_true]

theorem LampState.sources_withdraw {l : LampState} (h : l.sources.Nodup) (c : CueIx) (i : Nat) :
    (l.withdraw c i).sources.Nodup := h.sublist (List.filter_sublist.map _)

/-! The list of entries. -/

theorem CueListOk.unique {s : State} (h : CueListOk s) {d e : CueEntry} (hd : d ∈ s.cues) (he : e ∈ s.cues)
    (hc : d.cue = e.cue) : d = e := List.inj_on_of_nodup_map h.2.1 hd he hc

theorem entry_of_mem {s : State} (h : CueListOk s) {e : CueEntry} (he : e ∈ s.cues) : s.entry e.cue = some e := by
  cases hf : s.entry e.cue with
  | none => exact absurd (List.find?_eq_none.mp hf e he) (by simp)
  | some d => rw [h.unique (entry_mem hf) he (entry_cue hf)]

theorem isActive_iff {s : State} {c : CueIx} : s.isActive c = true ↔ ∃ e ∈ s.cues, e.cue = c := by
  simp [State.isActive]

/-- The targets of an active cue: each position with what the record and the entry have there. -/
theorem mem_targetsOf {s : State} {c : CueIx} {e : CueEntry} (he : s.entry c = some e) {i : Nat} {st : Station} {j : Lamp}
    {y : TargetState} :
    (i, st, j, y) ∈ s.targetsOf c ↔ (s.cueRec c).targets[i]? = some (st, j) ∧ e.targets[i]? = some y := by
  unfold State.targetsOf
  rw [he]
  simp only [List.mem_map, Prod.mk.injEq, Prod.exists, List.mem_zipIdx_iff_getElem?, List.getElem?_zip_eq_some]
  constructor
  · rintro ⟨a, b, d, n, ⟨h1, h2⟩, rfl, rfl, rfl, rfl⟩
    exact ⟨h1, h2⟩
  · exact fun h => ⟨st, j, y, i, h, rfl, rfl, rfl, rfl⟩

/-! One target changed. -/

/-- The claim that goes with a target's new state: placed with its rank, or withdrawn. -/
def LampState.follow (l : LampState) (c : CueIx) (i : Nat) (st : Station) (j : Lamp) : Option Rank → LampState
  | some r => l.place c i st j r
  | none => l.withdraw c i

theorem LampState.mem_follow {l : LampState} {c : CueIx} {i : Nat} {st : Station} {j : Lamp} {o : Option Rank}
    {R : List (Station × Lamp)} (hl : l.Follows c R) (hR : R[i]? = some (st, j)) {x : Claim} :
    x ∈ (l.follow c i st j o).claims ↔
      (∃ r, o = some r ∧ x = ⟨c, i, st, j, r⟩) ∨ (x ∈ l.claims ∧ ¬ (x.cue = c ∧ x.pos = i)) := by
  cases o with
  | none => simp [LampState.follow, LampState.mem_withdraw]
  | some r => simp [LampState.follow, LampState.mem_place hl hR]

theorem LampState.sources_follow {l : LampState} (h : l.sources.Nodup) (c : CueIx) (i : Nat) (st : Station) (j : Lamp)
    (o : Option Rank) : (l.follow c i st j o).sources.Nodup := by
  cases o with
  | none => exact LampState.sources_withdraw h c i
  | some r => exact LampState.sources_place h c i st j r

theorem ClaimsOk.follows {s : State} (h : ClaimsOk s) (c : CueIx) : s.lamps.Follows c (s.cueRec c).targets := by
  intro x hx hc
  obtain ⟨e, -, hec, hR, -⟩ := h.2.1 x hx
  rwa [hec, hc] at hR

/-- A target of an entry changed together with its claim keeps the claims in order. -/
theorem claimsOk_target {s t : State} {c : CueIx} {e : CueEntry} {i : Nat} {st : Station} {j : Lamp} {y : TargetState}
    (hlist : CueListOk s) (hs : ClaimsOk s) (he : e ∈ s.cues) (hc : e.cue = c)
    (hR : (s.cueRec c).targets[i]? = some (st, j)) (hrec : t.table.records = s.table.records)
    (hcues : t.cues = (setTarget c i y s).cues)
    (hclaims : t.lamps.claims = (s.lamps.follow c i st j (claimRank e.state y)).claims) : ClaimsOk t := by
  have hcueRec : ∀ d, t.cueRec d = s.cueRec d := fun d => by rw [State.cueRec, hrec, State.cueRec]
  have hfollows := hs.follows c
  have hmem : ∀ d, d ∈ t.cues ↔ (d ∈ s.cues ∧ d.cue ≠ c) ∨ d = { e with targets := e.targets.set i y } := by
    intro d
    rw [hcues, setTarget, State.modEntry_cues, List.mem_map]
    constructor
    · rintro ⟨d, hd, rfl⟩
      by_cases hdc : d.cue = c
      · rw [if_pos hdc, hlist.unique hd he (hdc.trans hc.symm)]
        exact .inr rfl
      · rw [if_neg hdc]
        exact .inl ⟨hd, hdc⟩
    · rintro (⟨hd, hdc⟩ | rfl)
      · exact ⟨d, hd, if_neg hdc⟩
      · exact ⟨e, he, if_pos hc⟩
  have hlen : i < e.targets.length := by
    rw [hlist.2.2 e he, hc]
    exact (List.getElem?_eq_some_iff.mp hR).1
  obtain ⟨hnodup, hclaim, hentry⟩ := hs
  refine ⟨?_, fun x hx => ?_, fun d hd => ?_⟩
  · rw [hclaims]
    exact LampState.sources_follow hnodup c i st j _
  · rw [hclaims, LampState.mem_follow hfollows hR] at hx
    simp only [hcueRec]
    rcases hx with ⟨r, hr, rfl⟩ | ⟨hx, hne⟩
    · refine ⟨_, (hmem _).mpr (.inr rfl), hc, ?_, y, ?_, hr⟩
      · dsimp only; rwa [hc]
      · dsimp only; rw [List.getElem?_set_self hlen]
    · obtain ⟨d, hd, hdc, hdR, z, hz, hrank⟩ := hclaim x hx
      by_cases h : d.cue = c
      · obtain rfl := hlist.unique hd he (h.trans hc.symm)
        refine ⟨_, (hmem _).mpr (.inr rfl), hdc, hdR, z, ?_, hrank⟩
        have hpos : i ≠ x.pos := fun hpos => hne ⟨hdc.symm.trans h, hpos.symm⟩
        dsimp only
        rwa [List.getElem?_set_ne hpos]
      · exact ⟨d, (hmem d).mpr (.inl ⟨hd, h⟩), hdc, hdR, z, hz, hrank⟩
  · rcases (hmem d).mp hd with ⟨hd, hdc⟩ | rfl
    · obtain ⟨hcover, hgoing⟩ := hentry d hd
      refine ⟨fun n z hz hlost => ?_, hgoing⟩
      obtain ⟨x, hx, hxc, hxn⟩ := hcover n z hz hlost
      refine ⟨x, ?_, hxc, hxn⟩
      rw [hclaims, LampState.mem_follow hfollows hR]
      exact .inr ⟨hx, fun h => hdc (hxc.symm.trans h.1)⟩
    · obtain ⟨hcover, hgoing⟩ := hentry e he
      refine ⟨fun n z hz hlost => ?_, hgoing⟩
      dsimp only at hz ⊢
      by_cases hn : i = n
      · subst hn
        rw [List.getElem?_set_self hlen] at hz
        obtain rfl := Option.some.inj hz
        obtain ⟨r, hr⟩ : ∃ r, claimRank e.state y = some r := by
          cases y <;> first | exact absurd rfl hlost | (unfold claimRank; dsimp only; split <;> exact ⟨_, rfl⟩)
        refine ⟨⟨c, i, st, j, r⟩, ?_, hc.symm, rfl⟩
        rw [hclaims, LampState.mem_follow hfollows hR]
        exact .inl ⟨r, hr, rfl⟩
      · rw [List.getElem?_set_ne hn] at hz
        obtain ⟨x, hx, hxc, hxn⟩ := hcover n z hz hlost
        refine ⟨x, ?_, hxc, hxn⟩
        rw [hclaims, LampState.mem_follow hfollows hR]
        exact .inr ⟨hx, fun h => hn (h.2.symm.trans hxn)⟩

/-! Entries changed where no target and no rank is. -/

/-- A change of an entry that keeps its cue, its targets and the rank its claims take, and does not start a deadline of a
GOING entry. -/
def KeepsClaims (e f : CueEntry) : Prop :=
  f.cue = e.cue ∧ f.targets = e.targets ∧ (∀ y, claimRank f.state y = claimRank e.state y)
    ∧ (f.state = .going → ∀ r, f.deadline = .running r → e.state = .going ∧ ∃ r, e.deadline = .running r)

theorem KeepsClaims.refl (e : CueEntry) : KeepsClaims e e := ⟨rfl, rfl, fun _ => rfl, fun h r hr => ⟨h, r, hr⟩⟩

theorem claimsOk_entries {s t : State} {f : CueEntry → CueEntry} (hs : ClaimsOk s)
    (hrec : t.table.records = s.table.records) (hcues : t.cues = s.cues.map f) (hclaims : t.lamps.claims = s.lamps.claims)
    (hf : ∀ e ∈ s.cues, KeepsClaims e (f e)) : ClaimsOk t := by
  have hcueRec : ∀ d, t.cueRec d = s.cueRec d := fun d => by rw [State.cueRec, hrec, State.cueRec]
  obtain ⟨hnodup, hclaim, hentry⟩ := hs
  refine ⟨by rwa [hclaims], fun x hx => ?_, fun d hd => ?_⟩
  · rw [hclaims] at hx
    obtain ⟨e, he, hec, hR, y, hy, hrank⟩ := hclaim x hx
    obtain ⟨h1, h2, h3, -⟩ := hf e he
    refine ⟨f e, ?_, h1.trans hec, ?_, y, ?_, ?_⟩
    · rw [hcues]; exact List.mem_map_of_mem he
    · rwa [hcueRec, h1]
    · rwa [h2]
    · rwa [h3]
  · rw [hcues] at hd
    obtain ⟨e, he, rfl⟩ := List.mem_map.mp hd
    obtain ⟨h1, h2, -, h4⟩ := hf e he
    obtain ⟨hcover, hgoing⟩ := hentry e he
    rw [h1, h2, hclaims]
    refine ⟨hcover, fun hg r hr => ?_⟩
    obtain ⟨hg', r', hr'⟩ := h4 hg r hr
    exact hgoing hg' r' hr'

theorem claimsKept_modEntry {c : CueIx} {f : CueEntry → CueEntry} {s : State}
    (hf : ∀ e ∈ s.cues, e.cue = c → KeepsClaims e (f e)) : ClaimsKept s (s.modEntry c f) := by
  intro _ hs
  refine claimsOk_entries hs rfl (State.modEntry_cues s c f) rfl fun e he => ?_
  split
  · next hc => exact hf e he hc
  · exact KeepsClaims.refl e

/-! The events: what they leave alone. -/

theorem modEntry_aside {c : CueIx} {f : CueEntry → CueEntry} {s : State} (h : Stays s (s.modEntry c f)) :
    Aside s (s.modEntry c f) := ⟨h, rfl, rfl, fun _ => ⟨rfl, rfl⟩, .refl _⟩

theorem modLamps_aside (f : LampState → LampState) (s : State) : Aside s (s.modLamps f) :=
  ⟨modLamps_stays f s, rfl, rfl, fun _ => ⟨rfl, rfl⟩, .refl _⟩

theorem setTarget_aside (c : CueIx) (i : Nat) (t : TargetState) (s : State) : Aside s (setTarget c i t s) :=
  modEntry_aside (setTarget_stays c i t s)

theorem placeClaim_aside (c : CueIx) (i : Nat) (st : Station) (l : Lamp) (r : Rank) (s : State) :
    Aside s (placeClaim c i st l r s) := modLamps_aside _ s

theorem recompute_beside (c : CueIx) (s : State) : Beside s (recompute c s) := by
  have hstate : ∀ {a b : EntryState} {e : CueEntry}, s.entry c = some e → e.state = a → a ≠ .going → b ≠ .going →
      (∀ y, claimRank b y = claimRank a y) → Beside s (s.modEntry c fun e => { e with state := b }) := by
    intro a b e he hea ha hb hrank
    refine ⟨modEntry_aside (modEntry_stays c _ s (by intros; exact ⟨rfl, rfl⟩)), fun hlist hs => ?_⟩
    refine claimsKept_modEntry (fun d hd hdc => ⟨rfl, rfl, fun y => ?_, fun hg => absurd hg hb⟩) hlist hs
    rw [hlist.unique hd (entry_mem he) (hdc.trans (entry_cue he).symm), hea]
    exact hrank y
  unfold recompute
  split
  · next e he =>
    dsimp only
    split
    · next h =>
      simp only [Bool.and_eq_true, decide_eq_true_eq] at h
      refine (hstate he h.1 (by decide) (by decide) fun y => ?_).trans (reportCue_beside _ _ _ _ _ _)
      cases y <;> rfl
    · split
      · next h =>
        simp only [Bool.and_eq_true, decide_eq_true_eq] at h
        refine (hstate he h.1 (by decide) (by decide) fun y => ?_).trans (reportCue_beside _ _ _ _ _ _)
        cases y <;> rfl
      · exact .refl s
  · exact .refl s

/-! The events that change one target. -/

/-- Cue `c` has an entry, and every entry of it is in a state that satisfies `p`. -/
def EntryIs (c : CueIx) (p : EntryState → Prop) (s : State) : Prop := ∃ e ∈ s.cues, e.cue = c ∧ p e.state

theorem EntryIs.setTarget {c : CueIx} {p : EntryState → Prop} {s : State} (h : EntryIs c p s) {i : Nat} {y : TargetState} :
    EntryIs c p (setTarget c i y s) := by
  obtain ⟨e, he, hc, hp⟩ := h
  refine ⟨{ e with targets := e.targets.set i y }, ?_, hc, hp⟩
  rw [Machine.setTarget, State.modEntry_cues]
  exact List.mem_map.mpr ⟨e, he, if_pos hc⟩

theorem claimsOk_place {s : State} {c : CueIx} {i : Nat} {st : Station} {j : Lamp} {y : TargetState} {r : Rank}
    (hlist : CueListOk s) (hs : ClaimsOk s) (he : EntryIs c (fun es => claimRank es y = some r) s)
    (hR : (s.cueRec c).targets[i]? = some (st, j)) : ClaimsOk (placeClaim c i st j r (setTarget c i y s)) := by
  obtain ⟨e, hmem, hc, hrank⟩ := he
  refine claimsOk_target hlist hs hmem hc hR rfl rfl ?_
  rw [hrank]
  rfl

theorem claimsOk_withdraw {s : State} {c : CueIx} {i : Nat} {st : Station} {j : Lamp}
    (hlist : CueListOk s) (hs : ClaimsOk s) (he : EntryIs c (fun _ => True) s)
    (hR : (s.cueRec c).targets[i]? = some (st, j)) :
    ClaimsOk ((setTarget c i .lost s).modLamps (·.withdraw c i)) := by
  obtain ⟨e, hmem, hc, -⟩ := he
  exact claimsOk_target hlist hs hmem hc hR rfl rfl rfl

theorem acknowledge_aside (c : CueIx) (i : Nat) (st : Station) (l : Lamp) (t : TargetState) (s : State) :
    Aside s (acknowledge c i st l t s) :=
  (((setTarget_aside c i _ s).trans (placeClaim_aside _ _ _ _ _ _)).trans (reportCue_beside _ _ _ _ _ _).toAside).trans
    (recompute_beside c _).toAside

/-- R79: what an acknowledge is assigned to. -/
theorem ackTarget_spec {s : State} {st : Station} {l : Lamp} {c : CueIx} {i : Nat} {t : TargetState}
    (h : s.ackTarget st l = some (c, i, t)) :
    ∃ e ∈ s.cues, e.cue = c ∧ e.state ≠ .going ∧ (i, st, l, t) ∈ s.targetsOf c ∧ (t = .waiting ∨ t = .late) := by
  obtain ⟨e, he, hx⟩ := List.exists_of_findSome?_eq_some h
  split at hx
  · cases hx
  · next hg =>
    obtain ⟨⟨i', t'⟩, hpos, heq⟩ := Option.map_eq_some_iff.mp hx
    obtain ⟨hc, heq'⟩ := Prod.mk.inj heq
    obtain ⟨rfl, rfl⟩ := Prod.mk.inj heq'
    obtain ⟨⟨i'', st', l', t''⟩, hfind, heq''⟩ := Option.map_eq_some_iff.mp hpos
    obtain ⟨rfl, rfl⟩ := Prod.mk.inj heq''
    have hp := List.find?_some hfind
    simp only [Bool.and_eq_true, Bool.or_eq_true, decide_eq_true_eq] at hp
    obtain ⟨⟨rfl, rfl⟩, ht⟩ := hp
    exact ⟨e, he, hc, hg, hc ▸ List.mem_of_find?_eq_some hfind, ht⟩

theorem ackEdge_beside (st : Station) (l : Lamp) (s : State) : Beside s (ackEdge st l s) := by
  unfold ackEdge
  split
  · exact .refl s
  · split
    · next c i t ht =>
      refine ⟨acknowledge_aside _ _ _ _ _ s, fun hlist hs => ?_⟩
      obtain ⟨e, he, rfl, hg, hmem, htw⟩ := ackTarget_spec ht
      obtain ⟨hR, hy⟩ := (mem_targetsOf (entry_of_mem hlist he)).mp hmem
      have hrank : claimRank e.state (if t = .late then .ackedLate else .acked) = some .ready := by
        split <;> simp [claimRank, hg]
      unfold acknowledge
      have hplaced := claimsOk_place hlist hs ⟨e, he, rfl, hrank⟩ hR
      have hstays := (setTarget_stays e.cue i (if t = .late then .ackedLate else .acked) s).trans
        (placeClaim_stays e.cue i st l .ready _)
      exact ((reportCue_beside _ _ _ _ _ _).trans (recompute_beside _ _)).claims (hstays.cueList hlist) hplaced
    · exact cueReport_beside _ s

theorem ackEdges_beside (st : Station) (o n : Levels) (s : State) : Beside s (ackEdges st o n s) := by
  unfold ackEdges
  refine Beside.foldl (fun t j => ?_) _ s
  split
  · exact ackEdge_beside _ _ t
  · exact .refl t

theorem edges_beside (st : Station) (o n : Levels) (s : State) : Beside s (edges st o n s) :=
  (((talkEdges_beside st o n s).trans (callEdges_beside st o n _)).trans (announceEdges_beside st o n _)).trans
    (ackEdges_beside st o n _)

/-! Folds over the targets of one entry. -/

/-- A fold over targets of cue `c` keeps the claims in order where each step does, for the places its record gives. -/
theorem claims_foldl {c : CueIx} {p : EntryState → Prop} {f : State → Nat × Station × Lamp × TargetState → State} {s : State}
    (hstays : ∀ u x, Stays u (f u x)) (hentry : ∀ u x, EntryIs c p u → EntryIs c p (f u x))
    (hf : ∀ u x, CueListOk u → ClaimsOk u → EntryIs c p u → (u.cueRec c).targets[x.1]? = some (x.2.1, x.2.2.1) →
      ClaimsOk (f u x))
    (l : List (Nat × Station × Lamp × TargetState)) (hlist : CueListOk s) (hs : ClaimsOk s) (he : EntryIs c p s)
    (hR : ∀ x ∈ l, (s.cueRec c).targets[x.1]? = some (x.2.1, x.2.2.1)) :
    ClaimsOk (l.foldl f s) ∧ EntryIs c p (l.foldl f s) := by
  induction l generalizing s with
  | nil => exact ⟨hs, he⟩
  | cons x l ih =>
    have hx := hR x List.mem_cons_self
    refine ih ((hstays s x).cueList hlist) (hf s x hlist hs he hx) (hentry s x he) fun y hy => ?_
    rw [(hstays s x).cueRec]
    exact hR y (List.mem_cons_of_mem x hy)

theorem targetsOf_places {s : State} {c : CueIx} {e : CueEntry} (he : s.entry c = some e) :
    ∀ x ∈ s.targetsOf c, (s.cueRec c).targets[x.1]? = some (x.2.1, x.2.2.1) :=
  fun ⟨_, _, _, _⟩ hx => ((mem_targetsOf he).mp hx).1

theorem EntryIs.of_cues {c : CueIx} {p : EntryState → Prop} {s t : State} (h : t.cues = s.cues) (he : EntryIs c p s) :
    EntryIs c p t := by
  unfold EntryIs at he ⊢
  rwa [h]

@[simp] theorem cueReport_cues (m : Message) (s : State) : (cueReport m s).cues = s.cues := (cueReport_same m s).cues

@[simp] theorem reportCue_cues (k : Nat) (c : CueIx) (d1 d2 d3 : Nat) (s : State) :
    (reportCue k c d1 d2 d3 s).cues = s.cues := cueReport_cues _ s

@[simp] theorem cueEvent_cues (s : State) : (cueEvent s).cues = s.cues := by
  unfold cueEvent
  split <;> rfl

theorem lateTarget_aside (c : CueIx) (s : State) (x : Nat × Station × Lamp × TargetState) : Aside s (lateTarget c s x) := by
  unfold lateTarget
  dsimp only
  split
  · exact (((setTarget_aside c _ _ s).trans (placeClaim_aside _ _ _ _ _ _)).trans
      (reportCue_beside _ _ _ _ _ _).toAside).trans (cueEvent_beside _).toAside
  · exact .refl s

theorem EntryIs.late {c : CueIx} {p : EntryState → Prop} {s : State} {x : Nat × Station × Lamp × TargetState}
    (h : EntryIs c p s) : EntryIs c p (lateTarget c s x) := by
  unfold lateTarget
  dsimp only
  split
  · exact EntryIs.of_cues (by simp [placeClaim]) (h.setTarget (i := x.1) (y := .late))
  · exact h

theorem claimsOk_late {c : CueIx} {s : State} {x : Nat × Station × Lamp × TargetState} (hlist : CueListOk s)
    (hs : ClaimsOk s) (he : EntryIs c (· ≠ .going) s) (hR : (s.cueRec c).targets[x.1]? = some (x.2.1, x.2.2.1)) :
    ClaimsOk (lateTarget c s x) := by
  unfold lateTarget
  dsimp only
  split
  · have he' : EntryIs c (fun es => claimRank es .late = some .late) s := by
      obtain ⟨e, hmem, hc, hg⟩ := he
      exact ⟨e, hmem, hc, if_neg hg⟩
    have hstays := (setTarget_stays c x.1 .late s).trans (placeClaim_stays c x.1 x.2.1 x.2.2.1 .late _)
    exact ((reportCue_beside _ _ _ _ _ _).trans (cueEvent_beside _)).claims (hstays.cueList hlist)
      (claimsOk_place hlist hs he' hR)
  · exact hs

/-- R83: an expired deadline keeps the claims in order: it ran, so its entry is not GOING. -/
theorem expireDeadline_beside {c : CueIx} {s : State} {e : CueEntry} {r : Nat} (he : s.entry c = some e)
    (hd : e.deadline = .running r) : Beside s (expireDeadline c s) := by
  have hexp : Aside s (s.modEntry c fun e => { e with deadline := .expired }) :=
    modEntry_aside (modEntry_stays c _ s (by intros; exact ⟨rfl, rfl⟩))
  refine ⟨hexp.trans (Aside.foldl (lateTarget_aside c) _ _), fun hlist hs => ?_⟩
  have hec : e.cue = c := entry_cue he
  have hg : e.state ≠ .going := fun hg => (hs.2.2 e (entry_mem he)).2 hg r hd
  have hlist' := hexp.stays.cueList hlist
  have hs' : ClaimsOk (s.modEntry c fun e => { e with deadline := .expired }) :=
    claimsKept_modEntry (fun _ _ _ => ⟨rfl, rfl, fun _ => rfl, fun _ _ h => by cases h⟩) hlist hs
  have hmem : ({ e with deadline := .expired } : CueEntry) ∈ (s.modEntry c fun e => { e with deadline := .expired }).cues := by
    rw [State.modEntry_cues]
    exact List.mem_map.mpr ⟨e, entry_mem he, if_pos hec⟩
  have hentry := entry_of_mem hlist' hmem
  rw [show ({ e with deadline := Deadline.expired } : CueEntry).cue = c from hec] at hentry
  exact (claims_foldl (lateTarget_stays c) (fun _ _ => EntryIs.late) (fun _ _ => claimsOk_late) _ hlist' hs'
    ⟨_, hmem, hec, hg⟩ (targetsOf_places hentry)).1

/-! Loss and return (R96 to R98). -/

theorem loseTarget_aside (c : CueIx) (s : State) (x : Nat × Station × Lamp × TargetState) : Aside s (loseTarget c s x) :=
  ((((setTarget_aside c _ _ s).trans (modLamps_aside _ _)).trans (reportCue_beside _ _ _ _ _ _).toAside).trans
    (cueEvent_beside _).toAside).trans (recompute_beside c _).toAside

theorem EntryIs.recompute {c : CueIx} {s : State} (h : EntryIs c (fun _ => True) s) :
    EntryIs c (fun _ => True) (recompute c s) := by
  have hmod : ∀ es : EntryState, EntryIs c (fun _ => True) (s.modEntry c fun e => { e with state := es }) := by
    intro es
    obtain ⟨e, he, hc, -⟩ := h
    refine ⟨{ e with state := es }, ?_, hc, trivial⟩
    rw [State.modEntry_cues]
    exact List.mem_map.mpr ⟨e, he, if_pos hc⟩
  unfold Machine.recompute
  split
  · dsimp only
    split
    · exact EntryIs.of_cues (reportCue_cues _ _ _ _ _ _) (hmod _)
    · split
      · exact EntryIs.of_cues (reportCue_cues _ _ _ _ _ _) (hmod _)
      · exact h
  · exact h

theorem EntryIs.lose {c : CueIx} {s : State} {x : Nat × Station × Lamp × TargetState} (h : EntryIs c (fun _ => True) s) :
    EntryIs c (fun _ => True) (loseTarget c s x) := by
  unfold loseTarget
  exact EntryIs.recompute (EntryIs.of_cues (by simp) (h.setTarget (i := x.1) (y := .lost)))

theorem claimsOk_lose {c : CueIx} {s : State} {x : Nat × Station × Lamp × TargetState} (hlist : CueListOk s)
    (hs : ClaimsOk s) (he : EntryIs c (fun _ => True) s) (hR : (s.cueRec c).targets[x.1]? = some (x.2.1, x.2.2.1)) :
    ClaimsOk (loseTarget c s x) := by
  have hstays := (setTarget_stays c x.1 .lost s).trans (modLamps_stays (·.withdraw c x.1) _)
  exact (((reportCue_beside _ _ _ _ _ _).trans (cueEvent_beside _)).trans (recompute_beside _ _)).claims
    (hstays.cueList hlist) (claimsOk_withdraw hlist hs he hR)

theorem loseInEntry_beside (p : Station → Lamp → Bool) (s : State) (c : CueIx) : Beside s (loseInEntry p s c) := by
  refine ⟨Aside.foldl (loseTarget_aside c) _ s, fun hlist hs => ?_⟩
  unfold loseInEntry
  cases he : s.entry c with
  | none => simpa [State.targetsOf, he] using hs
  | some e =>
    exact (claims_foldl (loseTarget_stays c) (fun _ _ => EntryIs.lose) (fun _ _ => claimsOk_lose) _ hlist hs
      ⟨e, entry_mem he, entry_cue he, trivial⟩
      fun x hx => targetsOf_places he x (List.mem_filter.mp hx).1).1

theorem loseTargets_beside (p : Station → Lamp → Bool) (s : State) : Beside s (loseTargets p s) :=
  Beside.foldl (loseInEntry_beside p) _ s

theorem restoreTarget_aside (c : CueIx) (e : CueEntry) (s : State) (x : Nat × Station × Lamp × TargetState) :
    Aside s (restoreTarget c e s x) := by
  unfold restoreTarget
  dsimp only
  have h := setTarget_aside c x.1 (restoredState e.deadline) s
  cases claimRank e.state (restoredState e.deadline) <;> dsimp only <;> split
  · exact (h.trans (reportCue_beside _ _ _ _ _ _).toAside).trans (cueEvent_beside _).toAside
  · exact h.trans (reportCue_beside _ _ _ _ _ _).toAside
  · exact ((h.trans (placeClaim_aside _ _ _ _ _ _)).trans (reportCue_beside _ _ _ _ _ _).toAside).trans
      (cueEvent_beside _).toAside
  · exact (h.trans (placeClaim_aside _ _ _ _ _ _)).trans (reportCue_beside _ _ _ _ _ _).toAside

/-- The rank that a restored target's claim takes. -/
theorem claimRank_restored (es : EntryState) (d : Deadline) : ∃ r, claimRank es (restoredState d) = some r := by
  unfold restoredState
  split <;> unfold claimRank <;> dsimp only <;> split <;> exact ⟨_, rfl⟩

theorem restoreTarget_eq {c : CueIx} {e : CueEntry} {s : State} {x : Nat × Station × Lamp × TargetState} {r : Rank}
    (hr : claimRank e.state (restoredState e.deadline) = some r) :
    restoreTarget c e s x =
      let told := reportCue 0xC5 c x.2.1.val x.2.2.1.val 0
        (placeClaim c x.1 x.2.1 x.2.2.1 r (setTarget c x.1 (restoredState e.deadline) s))
      if restoredState e.deadline = .late then cueEvent told else told := by
  unfold restoreTarget
  simp only [hr]

theorem EntryIs.restore {c : CueIx} {e : CueEntry} {s : State} {x : Nat × Station × Lamp × TargetState}
    (h : EntryIs c (· = e.state) s) : EntryIs c (· = e.state) (restoreTarget c e s x) := by
  obtain ⟨r, hr⟩ := claimRank_restored e.state e.deadline
  rw [restoreTarget_eq hr]
  refine EntryIs.of_cues ?_ (h.setTarget (i := x.1) (y := restoredState e.deadline))
  dsimp only
  split <;> simp [placeClaim]

theorem claimsOk_restore {c : CueIx} {e : CueEntry} {s : State} {x : Nat × Station × Lamp × TargetState}
    (hlist : CueListOk s) (hs : ClaimsOk s) (he : EntryIs c (· = e.state) s)
    (hR : (s.cueRec c).targets[x.1]? = some (x.2.1, x.2.2.1)) : ClaimsOk (restoreTarget c e s x) := by
  obtain ⟨r, hr⟩ := claimRank_restored e.state e.deadline
  have he' : EntryIs c (fun es => claimRank es (restoredState e.deadline) = some r) s := by
    obtain ⟨d, hmem, hc, hst⟩ := he
    exact ⟨d, hmem, hc, hst ▸ hr⟩
  have hplaced := claimsOk_place hlist hs he' hR
  have hstays := (setTarget_stays c x.1 (restoredState e.deadline) s).trans (placeClaim_stays c x.1 x.2.1 x.2.2.1 r _)
  have htold := (reportCue_beside 0xC5 c x.2.1.val x.2.2.1.val 0 _).claims (hstays.cueList hlist) hplaced
  rw [restoreTarget_eq hr]
  dsimp only
  split
  · exact (cueEvent_beside _).claims ((reportCue_stays _ _ _ _ _ _).cueList (hstays.cueList hlist)) htold
  · exact htold

theorem restoreInEntry_beside (st : Station) (s : State) (c : CueIx) : Beside s (restoreInEntry st s c) := by
  unfold restoreInEntry
  split
  · next e he =>
    refine ⟨Aside.foldl (restoreTarget_aside c e) _ s, fun hlist hs => ?_⟩
    exact (claims_foldl (restoreTarget_stays c e) (fun _ _ => EntryIs.restore) (fun _ _ => claimsOk_restore) _ hlist hs
      ⟨e, entry_mem he, entry_cue he, rfl⟩ fun x hx => targetsOf_places he x (List.mem_filter.mp hx).1).1
  · exact .refl s

theorem cueReturned_beside (st : Station) (s : State) : Beside s (cueReturned st s) :=
  Beside.foldl (restoreInEntry_beside st) _ s

end Sys2Proof.Machine
end

section
/-! The cues that enter, go and leave (R78, R86, R88 to R94): each keeps the claims in order. Between an entry's change and
the claims of its targets only the positions still to come are out of order (`ClaimsBut`). -/

namespace Sys2Proof.Machine

/-- The claims as `ClaimsOk` has them, but for the positions `F` of cue `c`: a claim there has any rank, and a target there
needs none. -/
def ClaimsBut (c : CueIx) (F : Nat → Prop) (s : State) : Prop :=
  s.lamps.sources.Nodup
    ∧ (∀ x ∈ s.lamps.claims, ∃ e ∈ s.cues, e.cue = x.cue ∧ (s.cueRec e.cue).targets[x.pos]? = some (x.st, x.lamp)
        ∧ ∃ y, e.targets[x.pos]? = some y ∧ y ≠ .lost ∧ (¬ (x.cue = c ∧ F x.pos) → claimRank e.state y = some x.rank))
    ∧ ∀ e ∈ s.cues,
        (∀ (i : Nat) (y : TargetState), e.targets[i]? = some y → y ≠ .lost → ¬ (e.cue = c ∧ F i) →
          ∃ x ∈ s.lamps.claims, x.cue = e.cue ∧ x.pos = i)
        ∧ (e.state = .going → ∀ r, e.deadline ≠ .running r)

theorem claimRank_lost {es : EntryState} {y : TargetState} {r : Rank} (h : claimRank es y = some r) : y ≠ .lost := by
  rintro rfl
  cases h

theorem ClaimsOk.but {s : State} (h : ClaimsOk s) (c : CueIx) (F : Nat → Prop) : ClaimsBut c F s := by
  obtain ⟨hnodup, hclaim, hentry⟩ := h
  refine ⟨hnodup, fun x hx => ?_, fun e he => ⟨fun i y hy hl _ => (hentry e he).1 i y hy hl, (hentry e he).2⟩⟩
  obtain ⟨e, he, hec, hR, y, hy, hrank⟩ := hclaim x hx
  exact ⟨e, he, hec, hR, y, hy, claimRank_lost hrank, fun _ => hrank⟩

/-- Where no target stands at a position of `F`, the claims are in order. -/
theorem ClaimsBut.ok {c : CueIx} {F : Nat → Prop} {s : State} (h : ClaimsBut c F s)
    (hF : ∀ e ∈ s.cues, e.cue = c → ∀ i y, e.targets[i]? = some y → ¬ F i) : ClaimsOk s := by
  obtain ⟨hnodup, hclaim, hentry⟩ := h
  refine ⟨hnodup, fun x hx => ?_, fun e he => ⟨fun i y hy hl => ?_, (hentry e he).2⟩⟩
  · obtain ⟨e, he, hec, hR, y, hy, -, hrank⟩ := hclaim x hx
    exact ⟨e, he, hec, hR, y, hy, hrank fun hx => hF e he (hec.trans hx.1) _ y hy hx.2⟩
  · exact (hentry e he).1 i y hy hl fun hx => hF e he hx.1 i y hy hx.2

theorem ClaimsBut.of_eq {c : CueIx} {F : Nat → Prop} {s t : State} (hl : t.lamps.claims = s.lamps.claims)
    (hc : t.cues = s.cues) (hr : t.table.records = s.table.records) (h : ClaimsBut c F s) : ClaimsBut c F t := by
  unfold ClaimsBut LampState.sources State.cueRec at h ⊢
  rwa [hl, hc, hr]

/-- A LOST target needs no claim and has none. -/
theorem ClaimsBut.lost {c : CueIx} {F : Nat → Prop} {s : State} {e : CueEntry} {i : Nat} (hlist : CueListOk s)
    (h : ClaimsBut c F s) (he : e ∈ s.cues) (hec : e.cue = c) (hy : e.targets[i]? = some .lost) :
    ClaimsBut c (fun n => F n ∧ n ≠ i) s := by
  obtain ⟨hnodup, hclaim, hentry⟩ := h
  refine ⟨hnodup, fun x hx => ?_, fun d hd => ⟨fun n z hz hl hn => ?_, (hentry d hd).2⟩⟩
  · obtain ⟨d, hd, hdc, hR, z, hz, hl, hrank⟩ := hclaim x hx
    refine ⟨d, hd, hdc, hR, z, hz, hl, fun hn => hrank fun ⟨hxc, hF⟩ => hn ⟨hxc, hF, fun hi => ?_⟩⟩
    obtain rfl := hlist.unique hd he ((hdc.trans hxc).trans hec.symm)
    rw [hi, hy] at hz
    exact hl (Option.some.inj hz).symm
  · refine (hentry d hd).1 n z hz hl fun ⟨hdc, hF⟩ => hn ⟨hdc, hF, fun hi => ?_⟩
    obtain rfl := hlist.unique hd he (hdc.trans hec.symm)
    rw [hi, hy] at hz
    exact hl (Option.some.inj hz).symm

/-- A target's claim placed with its rank puts its position in order. -/
theorem ClaimsBut.place {c : CueIx} {F : Nat → Prop} {s t : State} {e : CueEntry} {i : Nat} {st : Station} {j : Lamp}
    {y : TargetState} {r : Rank} (hlist : CueListOk s) (h : ClaimsBut c F s) (he : e ∈ s.cues) (hec : e.cue = c)
    (hR : (s.cueRec c).targets[i]? = some (st, j)) (hy : e.targets[i]? = some y) (hrank : claimRank e.state y = some r)
    (hl : t.lamps.claims = (s.lamps.place c i st j r).claims) (hc : t.cues = s.cues)
    (hr : t.table.records = s.table.records) : ClaimsBut c (fun n => F n ∧ n ≠ i) t := by
  have hcueRec : ∀ d, t.cueRec d = s.cueRec d := fun d => by rw [State.cueRec, hr, State.cueRec]
  obtain ⟨hnodup, hclaim, hentry⟩ := h
  have hfollows : s.lamps.Follows c (s.cueRec c).targets := by
    intro x hx hxc
    obtain ⟨d, -, hdc, hdR, -⟩ := hclaim x hx
    rwa [hdc, hxc] at hdR
  have hmem : ∀ x, x ∈ t.lamps.claims ↔ x = ⟨c, i, st, j, r⟩ ∨ (x ∈ s.lamps.claims ∧ ¬ (x.cue = c ∧ x.pos = i)) := by
    intro x
    rw [hl]
    exact LampState.mem_place hfollows hR
  refine ⟨?_, fun x hx => ?_, fun d hd => ?_⟩
  · rw [LampState.sources, hl]
    exact LampState.sources_place hnodup c i st j r
  · rw [hc]
    simp only [hcueRec]
    rcases (hmem x).mp hx with rfl | ⟨hx, hne⟩
    · exact ⟨e, he, hec, by rwa [hec], y, hy, claimRank_lost hrank, fun _ => hrank⟩
    · obtain ⟨d, hd, hdc, hdR, z, hz, hzl, hzr⟩ := hclaim x hx
      exact ⟨d, hd, hdc, hdR, z, hz, hzl, fun hn => hzr fun ⟨hxc, hF⟩ => hn ⟨hxc, hF, fun hi => hne ⟨hxc, hi⟩⟩⟩
  · rw [hc] at hd
    refine ⟨fun n z hz hzl hn => ?_, (hentry d hd).2⟩
    by_cases hi : d.cue = c ∧ n = i
    · exact ⟨⟨c, i, st, j, r⟩, (hmem _).mpr (.inl rfl), hi.1.symm, hi.2.symm⟩
    · obtain ⟨x, hx, hxc, hxn⟩ := (hentry d hd).1 n z hz hzl fun ⟨hdc, hF⟩ => hn ⟨hdc, hF, fun e => hi ⟨hdc, e⟩⟩
      exact ⟨x, (hmem x).mpr (.inr ⟨hx, fun ⟨h1, h2⟩ => hi ⟨hxc.symm.trans h1, hxn.symm.trans h2⟩⟩), hxc, hxn⟩

/-- What a step over the targets of cue `c` does: nothing to the entries and the records, and its target's claim takes rank
`r` unless the target is LOST. -/
def PlacesRank (c : CueIx) (r : Rank) (f : State → Nat × Station × Lamp × TargetState → State) : Prop :=
  ∀ u i st j y, (f u (i, st, j, y)).cues = u.cues ∧ (f u (i, st, j, y)).table.records = u.table.records
    ∧ (f u (i, st, j, y)).lamps.claims = if y = .lost then u.lamps.claims else (u.lamps.place c i st j r).claims

/-- A fold over targets of an entry puts their positions in order. -/
theorem ClaimsBut.foldl {c : CueIx} {r : Rank} {f : State → Nat × Station × Lamp × TargetState → State} {e : CueEntry}
    (hf : PlacesRank c r f) (hrank : ∀ y ∈ e.targets, y ≠ .lost → claimRank e.state y = some r)
    (l : List (Nat × Station × Lamp × TargetState)) {F : Nat → Prop} {s : State} (hlist : CueListOk s) (h : ClaimsBut c F s)
    (he : e ∈ s.cues) (hec : e.cue = c)
    (hl : ∀ x ∈ l, (s.cueRec c).targets[x.1]? = some (x.2.1, x.2.2.1) ∧ e.targets[x.1]? = some x.2.2.2) :
    ClaimsBut c (fun n => F n ∧ ∀ x ∈ l, n ≠ x.1) (l.foldl f s) ∧ (l.foldl f s).cues = s.cues := by
  induction l generalizing s F with
  | nil =>
    refine ⟨?_, rfl⟩
    simpa using h
  | cons x l ih =>
    obtain ⟨i, st, j, y⟩ := x
    obtain ⟨hR, hy⟩ := hl _ List.mem_cons_self
    obtain ⟨hcues, hrec, hclaims⟩ := hf s i st j y
    have hcueRec : ∀ d, (f s (i, st, j, y)).cueRec d = s.cueRec d := fun d => by rw [State.cueRec, hrec, State.cueRec]
    have hstep : ClaimsBut c (fun n => F n ∧ n ≠ i) (f s (i, st, j, y)) := by
      by_cases hlost : y = .lost
      · rw [if_pos hlost] at hclaims
        exact (h.lost hlist he hec (hlost ▸ hy)).of_eq hclaims hcues hrec
      · rw [if_neg hlost] at hclaims
        exact h.place hlist he hec hR hy (hrank y (List.mem_of_getElem? hy) hlost) hclaims hcues hrec
    obtain ⟨hall, hcues'⟩ := ih (cueListOk_of_eq hcues hrec hlist) hstep (hcues ▸ he) fun x hx => by
      rw [hcueRec]
      exact hl x (List.mem_cons_of_mem _ hx)
    refine ⟨?_, hcues'.trans hcues⟩
    simpa only [List.foldl_cons, List.mem_cons, forall_eq_or_imp, and_assoc] using hall

/-- A fold over all the targets of an entry puts the claims in order. -/
theorem claimsOk_foldTargets {c : CueIx} {r : Rank} {f : State → Nat × Station × Lamp × TargetState → State} {e : CueEntry}
    {s : State} (hf : PlacesRank c r f) (hrank : ∀ y ∈ e.targets, y ≠ .lost → claimRank e.state y = some r)
    (hlist : CueListOk s) (h : ClaimsBut c (fun _ => True) s) (he : e ∈ s.cues) (hec : e.cue = c) :
    ClaimsOk ((s.targetsOf c).foldl f s) := by
  have hentry : s.entry c = some e := hec ▸ entry_of_mem hlist he
  obtain ⟨hall, hcues⟩ := ClaimsBut.foldl hf hrank (s.targetsOf c) hlist h he hec fun ⟨_, _, _, _⟩ hx =>
    (mem_targetsOf hentry).mp hx
  refine hall.ok fun d hd hdc i y hy hn => ?_
  obtain rfl := hlist.unique (hcues ▸ hd) he (hdc.trans hec.symm)
  have hlen : i < (s.cueRec c).targets.length := by
    rw [← hec, ← hlist.2.2 d he]
    exact (List.getElem?_eq_some_iff.mp hy).1
  obtain ⟨⟨st, j⟩, hR⟩ : ∃ z, (s.cueRec c).targets[i]? = some z := ⟨_, List.getElem?_eq_getElem hlen⟩
  exact hn.2 (i, st, j, y) ((mem_targetsOf hentry).mpr ⟨hR, hy⟩) rfl

/-! Going (R86). -/

theorem goTarget_places (c : CueIx) : PlacesRank c .go (goTarget c) := by
  intro u i st j y
  unfold goTarget
  dsimp only
  split
  · exact ⟨rfl, rfl, rfl⟩
  · exact ⟨rfl, rfl, rfl⟩

theorem goTarget_aside (c : CueIx) (s : State) (x : Nat × Station × Lamp × TargetState) : Aside s (goTarget c s x) := by
  unfold goTarget
  dsimp only
  split
  · exact .refl s
  · exact placeClaim_aside _ _ _ _ _ s

theorem claimRank_going {y : TargetState} (h : y ≠ .lost) : claimRank .going y = some .go := by
  cases y <;> first | rfl | exact absurd rfl h

theorem advance_claims (c : CueIx) (s : State) : ClaimsKept s (s.modTable (·.advance c)) :=
  claimsKept_of_eq rfl rfl (advance_stays c s).records

theorem recordTake_beside (c : CueIx) (s : State) : Beside s (recordTake c s).2 := by
  unfold recordTake takeFromGo
  split
  · split
    · exact .refl s
    · split
      · exact .refl s
      · exact setTakePending_beside _ s
  · exact .refl s

/-- An entry replaced by one of the same cue and targets: out of order are at most the ranks of its own claims. -/
theorem claimsBut_modEntry {c : CueIx} {e g : CueEntry} {s : State} (hlist : CueListOk s) (hs : ClaimsOk s)
    (he : s.entry c = some e) (hcue : g.cue = e.cue) (htargets : g.targets = e.targets) (hdead : ∀ r, g.deadline ≠ .running r) :
    ClaimsBut c (fun _ => True) (s.modEntry c fun _ => g) := by
  obtain ⟨hnodup, hclaim, hentry⟩ := hs
  have hec := entry_cue he
  have hmem : ∀ d ∈ s.cues, d.cue ≠ c → d ∈ (s.modEntry c fun _ => g).cues := fun d hd hdc =>
    List.mem_map.mpr ⟨d, hd, if_neg hdc⟩
  have hg : g ∈ (s.modEntry c fun _ => g).cues := List.mem_map.mpr ⟨e, entry_mem he, if_pos hec⟩
  refine ⟨hnodup, fun x hx => ?_, fun d hd => ?_⟩
  · obtain ⟨d, hd, hdc, hR, y, hy, hrank⟩ := hclaim x hx
    by_cases h : d.cue = c
    · obtain rfl := hlist.unique hd (entry_mem he) (h.trans hec.symm)
      exact ⟨g, hg, hcue.trans hdc, by rw [hcue]; exact hR, y, by rwa [htargets], claimRank_lost hrank,
        fun hn => absurd ⟨hdc.symm.trans h, trivial⟩ hn⟩
    · exact ⟨d, hmem d hd h, hdc, hR, y, hy, claimRank_lost hrank, fun _ => hrank⟩
  · rw [State.modEntry_cues] at hd
    obtain ⟨d', hd', rfl⟩ := List.mem_map.mp hd
    split
    · exact ⟨fun i y hy hl hn => absurd ⟨hcue.trans hec, trivial⟩ hn, fun _ => hdead⟩
    · exact ⟨fun i y hy hl _ => (hentry d' hd').1 i y hy hl, (hentry d' hd').2⟩

theorem stop_not_running (d : Deadline) (r : Nat) : d.stop ≠ .running r := by cases d <;> nofun

/-! Entering the list (R78, R91). -/

theorem enterTarget_aside (c : CueIx) (s : State) (x : Nat × Station × Lamp × TargetState) : Aside s (enterTarget c s x) := by
  unfold enterTarget
  dsimp only
  split
  · exact ((reportCue_beside _ _ _ _ _ s).trans (cueEvent_beside _)).toAside
  · exact placeClaim_aside _ _ _ _ _ s

theorem cueEvent_lamps (s : State) : (cueEvent s).lamps = s.lamps := by
  unfold cueEvent
  split <;> rfl

theorem reportCue_lamps (k : Nat) (c : CueIx) (d1 d2 d3 : Nat) (s : State) : (reportCue k c d1 d2 d3 s).lamps = s.lamps :=
  (reportCue_same k c d1 d2 d3 s).lamps

theorem enterTarget_places (c : CueIx) : PlacesRank c .standby (enterTarget c) := by
  intro u i st j y
  unfold enterTarget
  dsimp only
  split
  · next h =>
    refine ⟨by rw [cueEvent_cues, reportCue_cues], ?_, ?_⟩
    · exact ((reportCue_stays _ _ _ _ _ u).trans (cueEvent_stays _)).records
    · rw [cueEvent_lamps, reportCue_lamps]
  · exact ⟨rfl, rfl, rfl⟩

theorem placeCueCall_beside (c : CueIx) (s : State) : Beside s (placeCueCall c s) := by
  unfold placeCueCall
  split
  · exact modArb_beside (cueCall_reach _ _ _)
  · exact .refl s

/-- A new entry: out of order are at most its own claims, which are still to be placed. -/
theorem claimsBut_append {g : CueEntry} {s : State} (hs : ClaimsOk s) (hg : g.state ≠ .going) :
    ClaimsBut g.cue (fun _ => True) { s with cues := s.cues ++ [g] } := by
  obtain ⟨hnodup, hclaim, hentry⟩ := hs
  refine ⟨hnodup, fun x hx => ?_, fun d hd => ?_⟩
  · obtain ⟨e, he, hec, hR, y, hy, hrank⟩ := hclaim x hx
    exact ⟨e, List.mem_append_left _ he, hec, hR, y, hy, claimRank_lost hrank, fun _ => hrank⟩
  · rcases List.mem_append.mp hd with hd | hd
    · exact ⟨fun i y hy hl _ => (hentry d hd).1 i y hy hl, (hentry d hd).2⟩
    · obtain rfl := List.mem_singleton.mp hd
      exact ⟨fun i y hy hl hn => absurd ⟨rfl, trivial⟩ hn, fun h => absurd h hg⟩

theorem newEntry_target {c : CueIx} {es : EntryState} {fo : Option Countdown} {b : Bool} {s : State} {y : TargetState}
    (h : y ∈ (newEntry c es fo b s).targets) : y = .waiting ∨ y = .lost := by
  obtain ⟨x, -, rfl⟩ := List.mem_map.mp h
  split
  · exact .inl rfl
  · exact .inr rfl

theorem enterList_beside {c : CueIx} {es : EntryState} {fo : Option Countdown} {b : Bool} {s : State} (hes : es ≠ .going)
    (hc : s.isActive c = false) (hl : s.cues.length < Config.activeLimit) : Beside s (enterList c es fo b s) := by
  have happend : CueListOk s → CueListOk { s with cues := s.cues ++ [newEntry c es fo b s] } := by
    rintro ⟨-, h2, h3⟩
    refine ⟨?_, ?_, fun e he => ?_⟩
    · simp only [List.length_append, List.length_singleton]
      omega
    · rw [List.map_append, List.nodup_append]
      refine ⟨h2, List.nodup_singleton _, fun a ha d hd => ?_⟩
      simp only [State.isActive, List.any_eq_false, decide_eq_true_eq] at hc
      obtain ⟨e, he, rfl⟩ := List.mem_map.mp ha
      obtain rfl := List.mem_singleton.mp hd
      exact hc e he
    · rcases List.mem_append.mp he with he | he
      · exact h3 e he
      · obtain rfl := List.mem_singleton.mp he
        simp [newEntry, State.cueRec]
  unfold enterList
  have hfirst : Aside s { s with cues := s.cues ++ [newEntry c es fo b s] } :=
    ⟨setCues_stays _ s happend, rfl, rfl, fun _ => ⟨rfl, rfl⟩, .refl _⟩
  refine Beside.trans ⟨hfirst.trans (Aside.foldl (enterTarget_aside c) _ _), fun hlist hs => ?_⟩ (placeCueCall_beside c _)
  refine claimsOk_foldTargets (e := newEntry c es fo b s) (enterTarget_places c) (fun y hy hlost => ?_) (happend hlist)
    (claimsBut_append hs hes) (List.mem_append_right _ (List.mem_singleton_self _)) rfl
  rcases newEntry_target hy with rfl | rfl
  · exact if_neg hes
  · exact absurd rfl hlost

theorem placeInStandby_beside {c : CueIx} {s : State} (hc : s.isActive c = false) (hl : s.cues.length < Config.activeLimit) :
    Beside s (placeInStandby c s) :=
  (enterList_beside (by decide) hc hl).trans (recompute_beside c _)

theorem placeCountdown_beside (b : CueIx) (cd : Countdown) (s : State) : Beside s (placeCountdown b cd s) :=
  ⟨modEntry_aside (modEntry_stays b _ s (by intros; exact ⟨rfl, rfl⟩)),
    claimsKept_modEntry fun e _ _ => ⟨rfl, rfl, fun _ => rfl, fun h r hr => ⟨h, r, hr⟩⟩⟩

theorem startFollow_beside (a b : CueIx) (d : Nat) (s : State) : Beside s (startFollow a b d s) := by
  unfold startFollow
  dsimp only
  split
  · next he =>
    split
    · exact reportCue_beside _ _ _ _ _ s
    · split
      · exact reportCue_beside _ _ _ _ _ s
      · next hl =>
        exact (enterList_beside (by decide) (entry_none_isActive he) (by omega)).trans (reportCue_beside _ _ _ _ _ _)
  · split
    · exact reportCue_beside _ _ _ _ _ s
    · exact (placeCountdown_beside b _ s).trans (reportCue_beside _ _ _ _ _ _)

theorem startRecordFollow_beside (c : CueIx) (s : State) : Beside s (startRecordFollow c s) := by
  unfold startRecordFollow
  split
  · exact startFollow_beside _ _ _ s
  · exact .refl s

theorem entryGoes_beside (c : CueIx) (force : Bool) (s : State) : Beside s (entryGoes c force s) := by
  unfold entryGoes
  split
  · exact .refl s
  · next e he =>
    dsimp only
    have hg := claimsBut_modEntry (e := e) (g := e.gone (s.cueRec c) force) (s := s) (c := c)
    generalize hgone : e.gone (s.cueRec c) force = g at hg
    have hcue : g.cue = e.cue := by rw [← hgone]; rfl
    have htargets : g.targets = e.targets := by rw [← hgone]; rfl
    have hstate : g.state = .going := by rw [← hgone]; rfl
    have hdead : ∀ r, g.deadline ≠ .running r := by rw [← hgone]; exact stop_not_running _
    have hmod : Aside s (s.modEntry c fun _ => g) := by
      refine modEntry_aside (modEntry_stays c _ s fun hs x hx hxc => ⟨?_, ?_⟩)
      · rw [hcue, entry_cue he, hxc]
      · rw [htargets, hs.2.2 x hx, hxc, hs.2.2 e (entry_mem he), entry_cue he]
    have hgo : Beside s (((s.modEntry c fun _ => g).targetsOf c).foldl (goTarget c) (s.modEntry c fun _ => g)) := by
      refine ⟨hmod.trans (Aside.foldl (goTarget_aside c) _ _), fun hlist hs => ?_⟩
      refine claimsOk_foldTargets (e := g) (goTarget_places c) (fun y _ hl => ?_) (hmod.stays.cueList hlist)
        (hg hlist hs he hcue htargets hdead) (List.mem_map.mpr ⟨e, entry_mem he, if_pos (entry_cue he)⟩)
        (hcue.trans (entry_cue he))
      rw [hstate]
      exact claimRank_going hl
    have hadv : ∀ u, Beside u (u.modTable (·.advance c)) := fun u =>
      ⟨⟨advance_stays c u, rfl, rfl, fun _ => ⟨rfl, rfl⟩, .refl _⟩, advance_claims c u⟩
    exact (((hgo.trans (hadv _)).trans (recordTake_beside c _)).trans (reportCue_beside _ _ _ _ _ _)).trans
      (startRecordFollow_beside c _)

/-! Leaving the list (R88, R89, R93). -/

theorem removeEntry_beside (c : CueIx) (s : State) : Beside s (removeEntry c s) := by
  refine ⟨⟨removeEntry_stays c s, rfl, rfl, fun _ => ⟨rfl, rfl⟩, .refl _⟩, fun _ hs => ?_⟩
  obtain ⟨hnodup, hclaim, hentry⟩ := hs
  have hmem : ∀ x, x ∈ (s.lamps.withdrawCue c).claims ↔ x ∈ s.lamps.claims ∧ x.cue ≠ c := fun x => by
    rw [LampState.withdrawCue, List.mem_filter, decide_eq_true_eq]
  have hcues : ∀ e, e ∈ (removeEntry c s).cues ↔ e ∈ s.cues ∧ e.cue ≠ c := fun e => by
    rw [removeEntry, List.mem_filter, decide_eq_true_eq]
  refine ⟨hnodup.sublist (List.filter_sublist.map _), fun x hx => ?_, fun e he => ?_⟩
  · obtain ⟨hx, hxc⟩ := (hmem x).mp hx
    obtain ⟨e, he, hec, hrest⟩ := hclaim x hx
    exact ⟨e, (hcues e).mpr ⟨he, fun h => hxc (hec.symm.trans h)⟩, hec, hrest⟩
  · obtain ⟨he, hec⟩ := (hcues e).mp he
    refine ⟨fun i y hy hl => ?_, (hentry e he).2⟩
    obtain ⟨x, hx, hxc, hxi⟩ := (hentry e he).1 i y hy hl
    exact ⟨x, (hmem x).mpr ⟨hx, fun h => hec (hxc.symm.trans h)⟩, hxc, hxi⟩

theorem expireGoHold_beside (c : CueIx) (s : State) : Beside s (expireGoHold c s) := by
  unfold expireGoHold
  split
  · exact (removeEntry_beside c s).trans (reportCue_beside _ _ _ _ _ _)
  · exact .refl s

theorem cancelEntry_beside (c : CueIx) (s : State) : Beside s (cancelEntry c s) := by
  unfold cancelEntry
  split
  · exact (removeEntry_beside c s).trans (reportCue_beside _ _ _ _ _ _)
  · exact .refl s

theorem dropFollow_beside (c : CueIx) (s : State) : Beside s (s.modEntry c fun e => { e with follow := none }) :=
  ⟨modEntry_aside (modEntry_stays c _ s (by intros; exact ⟨rfl, rfl⟩)),
    claimsKept_modEntry fun e _ _ => ⟨rfl, rfl, fun _ => rfl, fun h r hr => ⟨h, r, hr⟩⟩⟩

theorem expireFollow_beside (c : CueIx) (s : State) : Beside s (expireFollow c s) := by
  unfold expireFollow
  split
  · split
    · dsimp only
      split
      · exact (dropFollow_beside c s).trans (reportCue_beside _ _ _ _ _ _)
      · exact (dropFollow_beside c s).trans (entryGoes_beside c _ _)
    · exact .refl s
  · exact .refl s

end Sys2Proof.Machine
end

section
/-! What every event of the blocks keeps, outside a Take's copying (R142, R144 to R152, R113 to R124, R133): the claims with
the targets, the authority unit, the link conditions, the homing of each station with its record, and the holder port with
the holding station (`Orderly`). -/

namespace Sys2Proof.Machine

/-! Lists taken in any order: what holds of a state together with the items still to be taken. -/

theorem getD_mem {α : Type} {l : List α} {i : Nat} {a : α} (h : i < l.length) : l.getD i a ∈ l := by
  rw [List.getD_eq_getElem _ _ h]
  exact List.getElem_mem h

/-- What holds of a state and the items left, and is kept as an item is taken, holds at the end with none left. -/
theorem inAnyOrder_rest {α : Type} {I : List α → State → Prop} {f : α → State → State}
    (hspend : ∀ l s n, I l s → I l (s.spend n))
    (h : ∀ (l : List α) (i : Nat) (hi : i < l.length) s, I l s → I (l.eraseIdx i) (f l[i] s))
    (n : Nat) (l : List α) (s : State) (hn : l.length = n) (hs : I l s) : I [] (inAnyOrder f n l s) := by
  induction n generalizing l s with
  | zero =>
    obtain rfl := List.length_eq_zero_iff.mp hn
    simpa only [inAnyOrder] using hs
  | succ n ih =>
    cases l with
    | nil => cases hn
    | cons a l =>
      have hi : chooseIx s.freeCount (l.length + 1) < (a :: l).length := by
        rw [List.length_cons, chooseIx]
        split
        · omega
        · exact Nat.mod_lt _ (by omega)
      unfold inAnyOrder
      dsimp only
      rw [List.getD_eq_getElem _ _ hi]
      refine ih _ _ ?_ (h _ _ hi _ (hspend _ _ _ hs))
      rw [List.length_eraseIdx_of_lt hi, List.length_cons]
      exact Nat.add_right_cancel hn

/-! The link conditions. -/

/-- R157: the fault supervisor holds the port's condition as the port does. -/
def CondHeld (s : State) (p : Port) : Prop := s.faults.ports[p].linkCond = s.ports[p].cond

/-- R133: if the port serves a station, it holds the condition that its link state and its bucket give it. -/
def CondJudged (s : State) (p : Port) : Prop :=
  ∀ st, s.live.serves p = some st → judgedCond s.ports[p] (s.station st).threshold = s.ports[p].cond

theorem condsOk_iff {s : State} :
    CondsOk s ↔ ThresholdsOk s.live ∧ ThresholdsOk s.edit ∧ ∀ p, CondHeld s p ∧ CondJudged s p := Iff.rfl

theorem judgedCond_congr {u v : PortUnit} (hl : v.link = u.link) (hc : v.cond = u.cond) (k : Nat) :
    judgedCond v k = judgedCond u k := by
  simp only [PortUnit.link, Prod.mk.injEq] at hl
  obtain ⟨hup, -, -, hbucket, -⟩ := hl
  unfold judgedCond
  rw [hup, hbucket, hc]

/-- A condition just judged is judged the same again: the threshold lies above half of it (R133). -/
theorem judgedCond_settled {u : PortUnit} {k : Nat} (hk : 0 < k) :
    judgedCond { u with cond := judgedCond u k } k = judgedCond u k := by
  have hfar : k ≤ u.bucket → ¬ u.bucket ≤ k / 2 := by omega
  unfold judgedCond
  cases u.up <;> cases u.cond <;> simp <;> grind

/-! The authority unit. -/

/-- Authority is lost, or held as before. -/
def AuthKept (s t : State) : Prop :=
  AuthorityOk s → AuthorityOk t
    ∧ (t.auth.holding = none ∨ (t.auth.holder = s.auth.holder ∧ t.auth.holding = s.auth.holding))

theorem authKept_of_eq {s t : State} (h : t.auth = s.auth) : AuthKept s t := by
  intro hs
  refine ⟨?_, .inr ⟨by rw [h], by rw [h]⟩⟩
  unfold AuthorityOk at hs ⊢
  rwa [h]

theorem AuthKept.trans {s t u : State} (h : AuthKept s t) (k : AuthKept t u) : AuthKept s u := by
  intro hs
  obtain ⟨ht, h⟩ := h hs
  obtain ⟨hu, k⟩ := k ht
  refine ⟨hu, ?_⟩
  rcases k with k | ⟨k1, k2⟩
  · exact .inl k
  · rcases h with h | ⟨h1, h2⟩
    · exact .inl (k2.trans h)
    · exact .inr ⟨k1.trans h1, k2.trans h2⟩

/-! What an event keeps. -/

/-- What an event of the blocks keeps whatever becomes of the homing. -/
structure Ordered (s t : State) : Prop where
  stays : Stays s t
  claims : ClaimsKept s t
  talk : ArbReach s.live s.arb t.arb
  auth : AuthorityOk s → AuthorityOk t
  held : ∀ p, CondHeld s p → CondHeld t p
  judged : ThresholdsOk s.live → ∀ p, CondJudged s p → CondJudged t p

namespace Ordered

theorem refl (s : State) : Ordered s s := ⟨.refl s, fun _ h => h, .refl _, id, fun _ => id, fun _ _ => id⟩

theorem trans {s t u : State} (h : Ordered s t) (k : Ordered t u) : Ordered s u where
  stays := h.stays.trans k.stays
  claims hl hc := k.claims (h.stays.cueList hl) (h.claims hl hc)
  talk := h.talk.trans (h.stays.live ▸ k.talk)
  auth := k.auth ∘ h.auth
  held p := k.held p ∘ h.held p
  judged hk p := k.judged (h.stays.live ▸ hk) p ∘ h.judged hk p

/-- An event that leaves the conditions as they are. -/
theorem of_conds {s t : State} (hst : Stays s t) (hcl : ClaimsKept s t) (hta : ArbReach s.live s.arb t.arb)
    (hau : AuthorityOk s → AuthorityOk t)
    (hco : ∀ p : Port, t.ports[p].cond = s.ports[p].cond ∧ t.faults.ports[p].linkCond = s.faults.ports[p].linkCond) :
    Ordered s t where
  stays := hst
  claims := hcl
  talk := hta
  auth := hau
  held p h := (hco p).2.trans (h.trans (hco p).1.symm)
  judged _ p h st hs := by
    have hserves : s.live.serves p = some st := hst.live ▸ hs
    rw [judgedCond_congr (hst.links p) (hco p).1, (hco p).1, State.station, hst.live]
    exact h st hserves

end Ordered

/-- R142: the station's homing follows its LIVE record. -/
def FitsAt (s : State) (st : Station) : Prop := HomingFits (s.station st) s.homing[st]

/-- R113, R118: the holder is the active port of the holding station, or its primary where a Take's part of the homing
controller is still to come (outside `D`). -/
def HolderOn (D : Station → Prop) (s : State) : Prop :=
  match s.auth.holding with
  | none => True
  | some .commissioning => s.auth.holder = some 0 ∧ s.live.anyMgmt = false
  | some (.station st) =>
    (D st → s.auth.holder = s.homing[st].active) ∧ (¬ D st → s.auth.holder = some (s.station st).primary)
      ∧ (s.station st).enabled = true ∧ (s.station st).mgmt = true

theorem holderOk_iff {s : State} : HolderOk s ↔ HolderOn (fun _ => True) s := by
  rcases h : s.auth.holding with _ | (st | _) <;> simp [HolderOk, HolderOn, h]

/-- What an event of the blocks keeps; `D` are the stations whose homing has taken its part of the last Take. -/
structure Orderly (D : Station → Prop) (s t : State) : Prop extends Ordered s t where
  homing : ∀ st, D st → FitsAt s st → FitsAt t st
  holder : AuthorityOk s → (∀ st, D st → FitsAt s st) → HolderOn D s → HolderOn D t

namespace Orderly

variable {D : Station → Prop}

theorem refl (s : State) : Orderly D s s := ⟨.refl s, fun _ _ => id, fun _ _ => id⟩

theorem trans {s t u : State} (h : Orderly D s t) (k : Orderly D t u) : Orderly D s u :=
  ⟨h.toOrdered.trans k.toOrdered, fun st hD => k.homing st hD ∘ h.homing st hD, fun ha hf hh =>
    k.holder (h.auth ha) (fun st hD => h.homing st hD (hf st hD)) (h.holder ha hf hh)⟩

theorem foldl {α : Type} {f : State → α → State} (h : ∀ s a, Orderly D s (f s a)) (l : List α) (s : State) :
    Orderly D s (l.foldl f s) := by
  induction l generalizing s with
  | nil => exact refl s
  | cons a l ih => exact (h s a).trans (ih (f s a))

/-- An event that leaves every active port as it is. -/
theorem of_active {s t : State} (h : Ordered s t) (hau : AuthKept s t)
    (hac : ∀ st : Station, t.homing[st].active = s.homing[st].active) (hfi : ∀ st, D st → FitsAt s st → FitsAt t st) :
    Orderly D s t := by
  refine ⟨h, hfi, fun ha _ hh => ?_⟩
  obtain ⟨-, hlost | ⟨h1, h2⟩⟩ := hau ha
  · unfold HolderOn
    rw [hlost]
    trivial
  · unfold HolderOn State.station at hh ⊢
    rw [h1, h2, h.stays.live]
    revert hh
    split
    · exact id
    · exact id
    · rw [hac]
      exact id

/-- An event that leaves the homing as it is. -/
theorem of_homing {s t : State} (h : Ordered s t) (hau : AuthKept s t) (hho : t.homing = s.homing) : Orderly D s t := by
  refine of_active h hau (fun st => by rw [hho]) fun st _ hs => ?_
  unfold FitsAt State.station at hs ⊢
  rwa [hho, h.stays.live]

/-- An event of one station's homing; its authority moves with its active port. -/
theorem about {s t : State} {st : Station} (hD : D st) (h : Ordered s t)
    (hot : ∀ x : Station, x ≠ st → t.homing[x] = s.homing[x]) (hfi : FitsAt s st → FitsAt t st)
    (hau : AuthorityOk s → FitsAt s st → t.auth.holding = none ∨ (t.auth.holding = s.auth.holding
      ∧ (s.holds st = false → t.auth.holder = s.auth.holder)
      ∧ (s.holds st = true → s.auth.holder = s.homing[st].active → t.auth.holder = t.homing[st].active))) :
    Orderly D s t := by
  have hstation : ∀ x, t.station x = s.station x := fun x => by rw [State.station, h.stays.live, State.station]
  refine ⟨h, fun x hx hs => ?_, fun ha hf hh => ?_⟩
  · by_cases hxs : x = st
    · exact hxs ▸ hfi (hxs ▸ hs)
    · unfold FitsAt at hs ⊢
      rwa [hot x hxs, hstation]
  · rcases hau ha (hf st hD) with hlost | ⟨h1, h2, h3⟩
    · unfold HolderOn
      rw [hlost]
      trivial
    · have hholds : ∀ x, s.auth.holding = some (.station x) → (s.holds st = true ↔ x = st) := fun x hx => by
        simp [State.holds, hx]
      unfold HolderOn at hh ⊢
      rw [h1]
      revert hh
      split
      · exact id
      · next hc =>
        have : s.holds st = false := by simp [State.holds, hc]
        rw [h2 this, h.stays.live]
        exact id
      · next x hx =>
        rintro ⟨hin, hout, hen, hma⟩
        rw [hstation]
        by_cases hxs : x = st
        · subst hxs
          exact ⟨fun hDx => h3 ((hholds x hx).mpr rfl) (hin hDx), fun hn => absurd hD hn, hen, hma⟩
        · have hno : s.holds st = false := by
            rw [Bool.eq_false_iff]
            exact fun e => hxs ((hholds x hx).mp e)
          rw [h2 hno, hot x hxs]
          exact ⟨hin, hout, hen, hma⟩

end Orderly

theorem Aside.authKept {s t : State} (h : Aside s t) : AuthKept s t := authKept_of_eq h.auth

theorem Beside.ordered {s t : State} (h : Beside s t) : Ordered s t :=
  .of_conds h.stays h.claims h.talk (fun ha => (h.authKept ha).1) h.conds

theorem Beside.orderly {s t : State} (h : Beside s t) {D : Station → Prop} : Orderly D s t :=
  .of_homing h.ordered h.authKept h.homing

/-! Updates of the authority unit and the homing. -/

theorem setAuth_ordered {a : Authority} {s : State} (h : AuthorityOk s → AuthorityOk { s with auth := a }) :
    Ordered s { s with auth := a } :=
  .of_conds (setAuth_stays a s) (claimsKept_of_eq rfl rfl rfl) (.refl _) h fun _ => ⟨rfl, rfl⟩

theorem setHoming_ordered (v : Vector Homing 24) (s : State) : Ordered s { s with homing := v } :=
  .of_conds (setHoming_stays v s) (claimsKept_of_eq rfl rfl rfl) (.refl _) id fun _ => ⟨rfl, rfl⟩

theorem modHoming_ordered (st : Station) (f : Homing → Homing) (s : State) : Ordered s (s.modHoming st f) :=
  setHoming_ordered _ s

theorem modHoming_self (st : Station) (f : Homing → Homing) (s : State) : (s.modHoming st f).homing[st] = f s.homing[st] := by
  rw [State.modHoming_homing, upd_get, if_pos rfl]

theorem modHoming_other {st x : Station} (f : Homing → Homing) (s : State) (h : x ≠ st) :
    (s.modHoming st f).homing[x] = s.homing[x] := by
  rw [State.modHoming_homing, upd_get, if_neg h.symm]

/-! The authority unit's events. -/

theorem broadcast_authKept (m : Message) (s : State) : AuthKept s (broadcast m s) := (broadcast_beside m s).authKept

theorem authorityOk_init (s : State) : AuthorityOk { s with auth := Authority.init } := ⟨rfl, fun _ => ⟨rfl, rfl⟩⟩

theorem holding_none {s : State} (h : AuthorityOk s) (hn : s.auth.holder = none) : s.auth.holding = none := by
  have := h.1
  rw [hn] at this
  exact Option.isSome_eq_false_iff.mp this.symm |> Option.isNone_iff_eq_none.mp

/-- The holder loses authority: nobody holds it then. -/
theorem loseAuthority_holding {r : LossReason} {s : State} (h : AuthorityOk s) : (loseAuthority r s).auth.holding = none := by
  unfold loseAuthority
  split
  · rfl
  · next hn => exact holding_none h hn

theorem loseAuthority_ordered (r : LossReason) (s : State) : Ordered s (loseAuthority r s) := by
  unfold loseAuthority
  split
  · exact (setAuth_ordered fun _ => authorityOk_init s).trans (broadcast_beside _ _).ordered
  · exact .refl s

theorem loseAuthority_authKept (r : LossReason) (s : State) : AuthKept s (loseAuthority r s) := fun h =>
  ⟨(loseAuthority_ordered r s).auth h, .inl (loseAuthority_holding h)⟩

@[simp] theorem loseAuthority_homing (r : LossReason) (s : State) : (loseAuthority r s).homing = s.homing := by
  unfold loseAuthority
  split <;> rfl

theorem loseAuthority_orderly {D : Station → Prop} (r : LossReason) (s : State) : Orderly D s (loseAuthority r s) :=
  .of_homing (loseAuthority_ordered r s) (loseAuthority_authKept r s) (loseAuthority_homing r s)

theorem authPortDown_orderly {D : Station → Prop} (p : Port) (s : State) : Orderly D s (authPortDown p s) := by
  unfold authPortDown
  split
  · exact loseAuthority_orderly _ s
  · exact .refl s

theorem authIsolated_ordered (st : Station) (s : State) : Ordered s (authIsolated st s) := by
  unfold authIsolated
  split
  · exact loseAuthority_ordered _ s
  · exact .refl s

@[simp] theorem authIsolated_homing (st : Station) (s : State) : (authIsolated st s).homing = s.homing := by
  unfold authIsolated
  split
  · exact loseAuthority_homing _ s
  · rfl

/-- A change of the window and the DESK condition of a holder. -/
theorem modAuth_orderly {D : Station → Prop} {f : Authority → Authority} {s : State}
    (hf : ∀ a, (f a).holder = a.holder ∧ (f a).holding = a.holding)
    (hn : AuthorityOk s → s.auth.holder = none → (f s.auth).window = none ∧ (f s.auth).deskCond = false) :
    Orderly D s (s.modAuth f) := by
  have hok : AuthorityOk s → AuthorityOk (s.modAuth f) := by
    intro h
    refine ⟨?_, fun e => hn h ?_⟩
    · rw [State.modAuth_auth, (hf _).1, (hf _).2]
      exact h.1
    · rwa [State.modAuth_auth, (hf _).1] at e
  exact .of_homing (setAuth_ordered hok) (fun h => ⟨hok h, .inr (hf _)⟩) rfl

theorem deskFault_orderly {D : Station → Prop} (k : DeskKind) (s : State) : Orderly D s (deskFault k s) := by
  unfold deskFault
  split
  · exact .refl s
  · next p hp =>
    have hmod : ∀ {u : State} {f : Authority → Authority}, u.auth.holder = some p →
        (∀ a, (f a).holder = a.holder ∧ (f a).holding = a.holding) → Orderly D u (u.modAuth f) := fun hu hf =>
      modAuth_orderly hf fun _ hn => by rw [hu] at hn; cases hn
    have h1 : Orderly D s (s.modAuth fun a => { a with deskCond := true }) := hmod hp fun _ => ⟨rfl, rfl⟩
    dsimp only
    split
    · exact ((h1.trans (modPortFaults_beside fun _ => by rfl).orderly).trans (broadcast_beside _ _).orderly).trans
        (hmod hp fun _ => ⟨rfl, rfl⟩)
    · exact ((h1.trans (modPortFaults_beside fun _ => by rfl).orderly).trans (broadcast_beside _ _).orderly).trans
        (loseAuthority_orderly _ _)
    · exact h1
    · exact h1
    · exact h1

theorem expireSupervision_orderly {D : Station → Prop} (s : State) : Orderly D s (expireSupervision s) := by
  unfold expireSupervision
  refine Orderly.trans ?_ (deskFault_orderly _ _)
  refine modAuth_orderly (by intro; exact ⟨rfl, rfl⟩) fun h hn => ?_
  obtain ⟨hw, hd⟩ := h.2 hn
  exact ⟨by rw [hw]; rfl, hd⟩

theorem restartSupervision_orderly {D : Station → Prop} (s : State) : Orderly D s (restartSupervision s) :=
  modAuth_orderly (fun _ => ⟨rfl, rfl⟩) fun _ hn => ⟨by simp [hn], rfl⟩

theorem judgeSupervision_orderly {D : Station → Prop} (s : State) : Orderly D s (judgeSupervision s) := by
  unfold judgeSupervision
  split
  · next h =>
    simp only [Bool.and_eq_true] at h
    exact modAuth_orderly (fun _ => ⟨rfl, rfl⟩) fun _ hn => by rw [hn] at h; cases h.1
  · exact modAuth_orderly (fun _ => ⟨rfl, rfl⟩) fun _ _ => ⟨rfl, rfl⟩

theorem releaseAuthority_orderly {D : Station → Prop} (s : State) : Orderly D s (releaseAuthority s) := by
  unfold releaseAuthority
  split
  · have hset : Orderly D s { s with auth := Authority.init } :=
      .of_homing (setAuth_ordered fun _ => authorityOk_init s) (fun _ => ⟨authorityOk_init s, .inl rfl⟩) rfl
    exact hset.trans (broadcast_beside _ _).orderly
  · exact .refl s

/-! The homing's events. -/

section
variable {D : Station → Prop}

/-- A change of one station's homing that leaves its active port. -/
theorem modHoming_orderly {st : Station} {f : Homing → Homing} {s : State} (ha : ∀ h, (f h).active = h.active)
    (hf : FitsAt s st → HomingFits (s.station st) (f s.homing[st])) : Orderly D s (s.modHoming st f) := by
  refine .of_active (modHoming_ordered st f s) (authKept_of_eq rfl) (fun x => ?_) fun x _ hs => ?_
  · rw [State.modHoming_homing, upd_get]
    split
    · next h => exact h ▸ ha _
    · rfl
  · by_cases h : x = st
    · subst h
      rw [FitsAt, modHoming_self]
      exact hf hs
    · rw [FitsAt, modHoming_other f s h]
      exact hs

/-- A station whose homing has an active port, or is not in ON_PRIMARY, is enabled. -/
theorem HomingFits.enabled {r : StationRecord} {h : Homing} (hf : HomingFits r h)
    (hn : h.active ≠ none ∨ h.state ≠ .onPrimary) : r.enabled = true := by
  obtain ⟨-, -, h3⟩ := hf
  by_contra hen
  rw [if_neg hen] at h3
  exact hn.elim (fun h => h h3.2.1) fun h => h h3.1

theorem HomingFits.isolated {r : StationRecord} {h : Homing} (hf : HomingFits r h) (hs : h.state = .isolated) :
    h.active = none := by
  have hen := hf.enabled (.inr (by rw [hs]; decide))
  obtain ⟨-, -, h3⟩ := hf
  rw [if_pos hen, hs] at h3
  exact h3

theorem authMoved_eq {st : Station} {p : Port} {s : State} :
    (authMoved st p s).homing = s.homing ∧ (authMoved st p s).auth.holding = s.auth.holding
      ∧ (s.holds st = false → (authMoved st p s).auth.holder = s.auth.holder)
      ∧ (s.holds st = true → s.auth.holder.isSome = true → (authMoved st p s).auth.holder = some p) := by
  unfold authMoved
  split
  · next h =>
    split
    · exact ⟨rfl, rfl, fun e => absurd h (by simp [e]), fun _ _ => rfl⟩
    · next hn => exact ⟨rfl, rfl, fun _ => rfl, fun _ e => by rw [hn] at e; cases e⟩
  · next h => exact ⟨rfl, rfl, fun _ => rfl, fun e => absurd e h⟩

theorem authMoved_ordered (st : Station) (p : Port) (s : State) : Ordered s (authMoved st p s) := by
  unfold authMoved
  split
  · split
    · next q hq =>
      refine (setAuth_ordered fun h => ⟨?_, fun e => by cases e⟩).trans (broadcast_beside _ _).ordered
      have := h.1
      rw [hq] at this
      exact this
    · exact .refl s
  · exact .refl s

/-- A station that holds authority has a holder port. -/
theorem holder_of_holds {s : State} {st : Station} (h : AuthorityOk s) (hs : s.holds st = true) :
    s.auth.holder.isSome = true := by
  rw [h.1]
  rw [State.holds, decide_eq_true_eq] at hs
  rw [hs]
  rfl

/-- R150: a return. -/
theorem returnOn_orderly {st : Station} {p : Port} {hs : HomingState} {s : State} (hD : D st) (hi : s.isolated st = true)
    (hp : (hs = .onPrimary ∧ p = (s.station st).primary) ∨ (hs = .onSpare ∧ (s.station st).spare = some p)) :
    Orderly D s (returnOn st p hs s) := by
  rw [State.isolated, decide_eq_true_eq] at hi
  unfold returnOn
  dsimp only
  refine Orderly.trans ?_ (((setAwaiting_beside _ _ _).trans (cueReturned_beside _ _)).trans
    (reportHoming_beside _ _ _ _)).orderly
  refine .about hD (modHoming_ordered _ _ s) (fun x hx => modHoming_other _ s hx) (fun hf => ?_) fun ha hf => .inr ?_
  · have hen := hf.enabled (.inr (by rw [hi]; decide))
    rw [FitsAt, modHoming_self]
    obtain ⟨h1, h2, -⟩ := hf
    rw [hi] at h2
    refine ⟨h1, ?_, ?_⟩
    · rcases hp with ⟨rfl, -⟩ | ⟨rfl, -⟩ <;> simpa using h2
    · rw [show ((s.modHoming st _).station st) = s.station st from rfl, if_pos hen]
      rcases hp with ⟨rfl, rfl⟩ | ⟨rfl, hsp⟩
      · rfl
      · dsimp only
        rw [hsp]
        exact ⟨rfl, rfl⟩
  · refine ⟨rfl, fun _ => rfl, fun hh e => ?_⟩
    have := holder_of_holds ha hh
    rw [e, hf.isolated hi] at this
    cases this

theorem tryReturn_orderly {st : Station} (hD : D st) (s : State) : Orderly D s (tryReturn st s) := by
  unfold tryReturn
  split
  · next hi =>
    split
    · exact returnOn_orderly hD hi (.inl ⟨rfl, rfl⟩)
    · split
      · next p hp =>
        split
        · exact returnOn_orderly hD hi (.inr ⟨rfl, hp⟩)
        · exact .refl s
      · exact .refl s
  · exact .refl s

theorem isoPart_ordered (st : Station) (r : IsoReason) (c : Option Port) (x : IsoPart) (s : State) :
    Ordered s (x.take st r c s) := by
  cases x with
  | cue => exact (loseTargets_beside _ s).ordered
  | authority => exact authIsolated_ordered st s
  | report => exact (reportHoming_beside _ _ _ s).ordered

/-- The parts of an isolation that are left: while the authority unit's is not among them, the station does not hold. -/
def IsoLeft (u : State) (st : Station) (l : List IsoPart) (t : State) : Prop :=
  Ordered u t ∧ t.homing = u.homing
    ∧ (AuthorityOk u → ((t.auth = u.auth ∧ (u.holds st = false ∨ IsoPart.authority ∈ l)) ∨ t.auth.holding = none))

theorem isoPart_left (u : State) (st : Station) (r : IsoReason) (c : Option Port) (l : List IsoPart) (i : Nat)
    (hi : i < l.length) (s : State) (h : IsoLeft u st l s) : IsoLeft u st (l.eraseIdx i) (l[i].take st r c s) := by
  obtain ⟨hord, hhom, hauth⟩ := h
  have hmem : ∀ x : IsoPart, x ∈ l → l[i] ≠ x → x ∈ l.eraseIdx i := by
    intro x hx hne
    obtain ⟨j, hj, rfl⟩ := List.getElem_of_mem hx
    exact List.mem_eraseIdx_iff_getElem.mpr ⟨j, hj, fun e => hne (by subst e; rfl), rfl⟩
  refine ⟨hord.trans (isoPart_ordered st r c l[i] s), ?_, fun ha => ?_⟩
  · rw [← hhom]
    generalize l[i] = x
    cases x with
    | cue => exact (loseTargets_beside _ s).homing
    | authority => exact authIsolated_homing st s
    | report => exact (reportHoming_beside _ _ _ s).homing
  · have hbeside : ∀ {t : State}, t.auth = s.auth → l[i] ≠ .authority →
        ((t.auth = u.auth ∧ (u.holds st = false ∨ IsoPart.authority ∈ l.eraseIdx i)) ∨ t.auth.holding = none) := by
      intro t ht hne
      rw [ht]
      exact (hauth ha).imp_left fun ⟨h1, h2⟩ => ⟨h1, h2.imp_right fun hx => hmem _ hx hne⟩
    cases hx : l[i] with
    | cue => exact hbeside (loseTargets_beside _ s).auth (by rw [hx]; decide)
    | report => exact hbeside (reportHoming_beside _ _ _ s).auth (by rw [hx]; decide)
    | authority =>
      show ((authIsolated st s).auth = u.auth ∧ _) ∨ (authIsolated st s).auth.holding = none
      unfold authIsolated
      split
      · exact .inr (loseAuthority_holding (hord.auth ha))
      · next hno =>
        refine (hauth ha).imp_left fun ⟨h1, _⟩ => ⟨h1, .inl ?_⟩
        rw [State.holds, ← h1]
        exact Bool.eq_false_iff.mpr hno

theorem isoParts_authority {s : State} {st : Station} (h : s.holds st = true) : IsoPart.authority ∈ s.isoParts st := by
  simp [State.isoParts, h]

/-- R149: an isolation. -/
theorem enterIsolated_orderly {st : Station} {r : IsoReason} {c : Option Port} {s : State} (hD : D st)
    (hen : FitsAt s st → (s.station st).enabled = true) : Orderly D s (enterIsolated st r c s) := by
  unfold enterIsolated
  dsimp only
  refine Orderly.trans ?_ (tryReturn_orderly hD _)
  have hstate : Ordered s (isolateState st s) :=
    (modHoming_ordered st _ s).trans (clearAwaiting_beside (s.station st) _).ordered
  have hfirst : Ordered s ((isolateState st s).modArb (Arbiter.withdraw s.live st .isolated)) := by
    have hw := withdraw_beside st .isolated (isolateState st s)
    rw [hstate.stays.live] at hw
    exact hstate.trans hw.ordered
  have hhoming : ((isolateState st s).modArb (Arbiter.withdraw s.live st .isolated)).homing
      = (s.modHoming st fun h =>
        { h with state := .isolated, active := none, switchRem := none, restorePending := false, restoreDue := false }).homing :=
    (clearAwaiting_beside (s.station st) (s.modHoming st _)).homing
  have hauth : ((isolateState st s).modArb (Arbiter.withdraw s.live st .isolated)).auth = s.auth :=
    (clearAwaiting_beside (s.station st) (s.modHoming st _)).auth
  generalize (isolateState st s).modArb (Arbiter.withdraw s.live st .isolated) = u at hfirst hhoming hauth ⊢
  have hleft : IsoLeft u st [] (inAnyOrder (IsoPart.take st r c) (u.isoParts st).length (u.isoParts st) u) := by
    refine inAnyOrder_rest (fun l t n h => ?_) (isoPart_left u st r c) _ _ u rfl
      ⟨.refl u, rfl, fun _ => .inl ⟨rfl, ?_⟩⟩
    · have hb := spend_beside n t
      exact ⟨h.1.trans hb.ordered, hb.homing.trans h.2.1, hb.auth ▸ h.2.2⟩
    · cases hu : u.holds st with
      | false => exact .inl rfl
      | true => exact .inr (isoParts_authority hu)
  generalize inAnyOrder (IsoPart.take st r c) (u.isoParts st).length (u.isoParts st) u = t at hleft ⊢
  obtain ⟨hord, hhom, hparts⟩ := hleft
  refine .about hD (hfirst.trans hord) (fun x hx => ?_) (fun hf => ?_) fun ha _ => ?_
  · rw [hhom, hhoming]
    exact modHoming_other _ s hx
  · have hstation : t.station st = s.station st := by
      rw [State.station, (hfirst.trans hord).stays.live, State.station]
    rw [FitsAt, hhom, hhoming, modHoming_self, hstation]
    refine ⟨hf.1, by simp, ?_⟩
    rw [if_pos (hen hf)]
  · rcases hparts (hfirst.auth ha) with ⟨h1, h2⟩ | h2
    · have hno : s.holds st = false := by
        rw [State.holds, ← hauth]
        exact h2.resolve_right List.not_mem_nil
      rw [h1, hauth]
      exact .inr ⟨rfl, fun _ => rfl, fun e => absurd e (by simp [hno])⟩
    · exact .inl h2

/-- A station's active port changed, its authority moved with it. -/
theorem moved_orderly {st : Station} {p : Port} {f : Homing → Homing} {s v : State} (hD : D st)
    (hb : Beside (s.modHoming st f) v) (hac : (f s.homing[st]).active = some p)
    (hfi : FitsAt s st → HomingFits (s.station st) (f s.homing[st])) : Orderly D s (authMoved st p v) := by
  obtain ⟨hhom, hholding, hno, hyes⟩ := authMoved_eq (st := st) (p := p) (s := v)
  have hvs : v.auth = s.auth := hb.auth
  have hholds : v.holds st = s.holds st := by rw [State.holds, hvs, State.holds]
  have hord := ((modHoming_ordered st f s).trans hb.ordered).trans (authMoved_ordered st p v)
  have hself : (authMoved st p v).homing[st] = f s.homing[st] := by rw [hhom, hb.homing, modHoming_self]
  refine .about hD hord (fun x hx => ?_) (fun hf => ?_) fun ha _ => .inr ⟨?_, fun h => ?_, fun h e => ?_⟩
  · rw [hhom, hb.homing, modHoming_other f s hx]
  · rw [FitsAt, hself, State.station, hord.stays.live]
    exact hfi hf
  · rw [hholding, hvs]
  · rw [hno (hholds.trans h), hvs]
  · rw [hyes (hholds.trans h) (by rw [hvs]; exact holder_of_holds ha h), hself, hac]

/-- R145: a switchover. -/
theorem startSwitchover_orderly {st : Station} {sp : Port} {s : State} (hD : D st)
    (hen : FitsAt s st → (s.station st).enabled = true) (hsp : (s.station st).spare = some sp) :
    Orderly D s (startSwitchover st sp s) := by
  unfold startSwitchover
  dsimp only
  refine Orderly.trans ?_ (reportHoming_beside _ _ _ _).orderly
  refine moved_orderly hD (((setAwaiting_beside _ _ _).trans (setAwaiting_beside _ _ _)).trans
    (restartInput_beside _ _)) rfl fun hf => ?_
  refine ⟨hf.1, by simp, ?_⟩
  rw [if_pos (hen hf)]
  exact ⟨by rw [hsp]; rfl, hsp.symm⟩

theorem isolatePrimary_orderly {st : Station} {s : State} (hD : D st)
    (hen : FitsAt s st → (s.station st).enabled = true) : Orderly D s (isolatePrimary st s) := by
  have hmod : FitsAt s st → HomingFits (s.station st) { s.homing[st] with primFailed := true } := by
    intro hf
    have he := hen hf
    obtain ⟨h1, h2, h3⟩ := hf
    rw [if_pos he] at h3
    exact ⟨h1, h2, by rwa [if_pos he]⟩
  unfold isolatePrimary
  refine Orderly.trans ?_ (enterIsolated_orderly hD fun hf => ?_)
  · exact modHoming_orderly (by intro; rfl) hmod
  by_contra hno
  have h3 := hf.2.2
  rw [if_neg hno, modHoming_self] at h3
  cases h3.2.2.1

/-- A station in SWITCHING or ON_SPARE is enabled and has a spare port. -/
theorem HomingFits.spare {r : StationRecord} {h : Homing} (hf : HomingFits r h)
    (hs : h.state = .switching ∨ h.state = .onSpare) : r.enabled = true ∧ r.spare.isSome = true := by
  have hen := hf.enabled (.inr (by rcases hs with h | h <;> rw [h] <;> decide))
  refine ⟨hen, ?_⟩
  obtain ⟨-, -, h3⟩ := hf
  rw [if_pos hen] at h3
  rcases hs with h | h <;> rw [h] at h3 <;> exact h3.1

theorem isolateSpare_orderly {st : Station} {s : State} (hD : D st)
    (hs : s.homing[st].state = .switching ∨ s.homing[st].state = .onSpare) : Orderly D s (isolateSpare st s) := by
  unfold isolateSpare
  refine Orderly.trans ?_ (enterIsolated_orderly hD fun hf => ?_)
  · refine modHoming_orderly (by intro; rfl) fun hf => ?_
    obtain ⟨hen, hsp⟩ := hf.spare hs
    obtain ⟨h1, h2, h3⟩ := hf
    rw [if_pos hen] at h3
    exact ⟨fun e => absurd hsp (by rw [e]; decide), h2, by rwa [if_pos hen]⟩
  · refine hf.enabled (.inr ?_)
    rw [modHoming_self]
    rcases hs with h | h <;> simp only [h] <;> decide

/-- R144: a LINK fault taken for an enabled station. -/
theorem linkFault_orderly {st : Station} {s : State} (hD : D st) (hen : FitsAt s st → (s.station st).enabled = true) :
    Orderly D s (linkFault st s) := by
  unfold linkFault
  split
  · split
    · next sp hsp =>
      split
      · exact startSwitchover_orderly hD hen hsp
      · exact isolatePrimary_orderly hD hen
    · exact isolatePrimary_orderly hD hen
  · next h => exact isolateSpare_orderly hD (.inl h)
  · next h => exact isolateSpare_orderly hD (.inr h)
  · exact .refl s

theorem activeCond_enabled {s : State} {st : Station} (h : s.activeCond st = true) (hf : FitsAt s st) :
    (s.station st).enabled = true := by
  refine hf.enabled (.inl fun e => ?_)
  rw [State.activeCond, e] at h
  cases h

theorem otherPortJudged_orderly {st : Station} (hD : D st) (s : State) : Orderly D s (otherPortJudged st s) := by
  unfold otherPortJudged
  split
  · split
    · next h =>
      simp only [Bool.and_eq_true] at h
      exact linkFault_orderly hD (activeCond_enabled h.1.1)
    · exact .refl s
  · exact .refl s

theorem portsJudged_orderly {st : Station} (hD : D st) (s : State) : Orderly D s (portsJudged st s) := by
  unfold portsJudged
  split
  · exact tryReturn_orderly hD s
  · exact otherPortJudged_orderly hD s

/-- Fewer failed marks fit where more do. -/
theorem HomingFits.fewerMarks {r : StationRecord} {h k : Homing} (hf : HomingFits r h) (hst : k.state = h.state)
    (hac : k.active = h.active) (hsw : k.switchRem = h.switchRem) (hre : k.restorePending = true → h.restorePending = true)
    (hpr : k.primFailed = true → h.primFailed = true) (hsp : k.spareFailed = true → h.spareFailed = true) :
    HomingFits r k := by
  obtain ⟨h1, h2, h3⟩ := hf
  refine ⟨fun e => ?_, by rw [hst, hsw]; exact h2, ?_⟩
  · exact Bool.eq_false_iff.mpr fun hk => by
      have := h1 e
      rw [hsp hk] at this
      cases this
  · rw [hst, hac]
    split
    · next hen => rwa [if_pos hen] at h3
    · next hen =>
      rw [if_neg hen] at h3
      obtain ⟨g1, g2, g3, g4, g5⟩ := h3
      refine ⟨g1, g2, ?_, ?_, ?_⟩ <;> refine Bool.eq_false_iff.mpr fun hk => ?_
      · rw [hpr hk] at g3; cases g3
      · rw [hsp hk] at g4; cases g4
      · rw [hre hk] at g5; cases g5

theorem clearMark_orderly (st : Station) (p : Port) (s : State) : Orderly D s (clearMark st p s) :=
  modHoming_orderly (fun _ => rfl) fun hf => hf.fewerMarks rfl rfl rfl id
    (fun h => (Bool.and_eq_true_iff.mp h).1) fun h => (Bool.and_eq_true_iff.mp h).1

theorem homingCondEnded_orderly {st : Station} (hD : D st) (p : Port) (s : State) :
    Orderly D s (homingCondEnded st p s) := by
  unfold homingCondEnded
  dsimp only
  have hmark : Orderly D s (if s.faults.modes.link = .auto then clearMark st p s else s) := by
    split
    · exact clearMark_orderly st p s
    · exact .refl s
  generalize (if s.faults.modes.link = .auto then clearMark st p s else s) = u at hmark ⊢
  refine hmark.trans ?_
  split
  · exact .refl u
  · exact portsJudged_orderly hD u

/-- Failed marks cleared on every station. -/
theorem marks_orderly {v : Vector Homing 24} {s : State} (hst : ∀ st : Station, v[st].state = s.homing[st].state)
    (hac : ∀ st : Station, v[st].active = s.homing[st].active) (hsw : ∀ st : Station, v[st].switchRem = s.homing[st].switchRem)
    (hre : ∀ st : Station, v[st].restorePending = s.homing[st].restorePending)
    (hpr : ∀ st : Station, v[st].primFailed = true → s.homing[st].primFailed = true)
    (hsp : ∀ st : Station, v[st].spareFailed = true → s.homing[st].spareFailed = true) :
    Orderly D s { s with homing := v } :=
  .of_active (setHoming_ordered v s) (authKept_of_eq rfl) hac fun st _ hf =>
    HomingFits.fewerMarks hf (hst st) (hac st) (hsw st) (by rw [hre st]; exact id) (hpr st) (hsp st)

theorem homingClearFaults_orderly (hD : ∀ st, D st) (s : State) : Orderly D s (homingClearFaults s) := by
  unfold homingClearFaults
  refine (marks_orderly ?_ ?_ ?_ ?_ ?_ ?_).trans (Orderly.foldl (fun t st => portsJudged_orderly (hD st) t) _ _) <;>
    intro st <;> simp only [Fin.getElem_fin, Vector.getElem_ofFn, Homing.clearAbsent]
  all_goals exact fun h => (Bool.and_eq_true_iff.mp h).1

theorem homingSetMode_orderly (hD : ∀ st, D st) (s : State) : Orderly D s (homingSetMode s) := by
  unfold homingSetMode
  refine (marks_orderly ?_ ?_ ?_ ?_ ?_ ?_).trans (Orderly.foldl (fun t st => portsJudged_orderly (hD st) t) _ _) <;>
    intro st <;> simp only [Fin.getElem_fin, Vector.getElem_map]
  all_goals exact fun h => by cases h

theorem failOver_orderly {st : Station} (p : Port) {s : State} (h : s.homing[st].state = .switching) :
    Orderly D s (failOver st p s) := by
  unfold failOver
  refine Orderly.trans ?_ (reportHoming_beside _ _ _ _).orderly
  refine modHoming_orderly (by intro; rfl) fun hf => ?_
  obtain ⟨hen, hsp⟩ := hf.spare (.inl h)
  obtain ⟨h1, h2, h3⟩ := hf
  rw [if_pos hen, h] at h3
  exact ⟨h1, by simp, by rwa [if_pos hen]⟩

theorem expireSwitchover_orderly {st : Station} {s : State} (hD : D st) (h : s.homing[st].state = .switching) :
    Orderly D s (expireSwitchover st s) :=
  enterIsolated_orderly hD fun hf => (hf.spare (.inl h)).1

theorem restorePrimary_orderly {st : Station} {s : State} (hD : D st) (h : s.homing[st].state = .onSpare) :
    Orderly D s (restorePrimary st s) := by
  unfold restorePrimary
  dsimp only
  refine Orderly.trans ?_ (reportHoming_beside _ _ _ _).orderly
  refine moved_orderly hD ((clearAwaiting_beside _ _).trans (setAwaiting_beside _ _ _)) rfl fun hf => ?_
  obtain ⟨h1, h2, -⟩ := id hf
  rw [h] at h2
  refine ⟨h1, by simpa using h2, ?_⟩
  rw [if_pos (hf.spare (.inr h)).1]

theorem applyRestore_orderly {st : Station} (hD : D st) (s : State) : Orderly D s (applyRestore st s) := by
  unfold applyRestore
  dsimp only
  have hmod : Orderly D s (s.modHoming st fun h => { h with restorePending := false, restoreDue := false }) :=
    modHoming_orderly (fun _ => rfl) fun hf => hf.fewerMarks rfl rfl rfl (fun e => by cases e) id id
  refine hmod.trans ?_
  split
  · next h =>
    simp only [State.restores, Bool.and_eq_true, decide_eq_true_eq] at h
    exact restorePrimary_orderly hD h.1
  · exact (reportHoming_beside _ _ _ _).orderly

theorem restoreStation_orderly (st : Station) (s : State) : Orderly D s (restoreStation st s).2 := by
  unfold restoreStation
  split
  · exact .refl s
  · next h =>
    simp only [Bool.or_eq_true, Bool.not_eq_true', not_or, Bool.not_eq_false] at h
    refine modHoming_orderly (fun _ => rfl) fun hf => ?_
    obtain ⟨h1, h2, h3⟩ := hf
    rw [if_pos h.1] at h3
    exact ⟨h1, h2, by rwa [if_pos h.1]⟩

end

end Sys2Proof.Machine
end

section
/-! The events of links, faults and requests as `Orderly` has them, and what is left to show of an invariant that every such
event keeps (`KeptOrderly`). -/

namespace Sys2Proof.Machine

section
variable {D : Station → Prop}

/-! The LINK condition (R133, R158). -/

theorem linkBegun_orderly {st : Station} (hD : D st) (p : Port) (s : State) : Orderly D s (linkBegun p st s) := by
  unfold linkBegun
  have hraised := linkRaised_beside p st s
  split
  · next h =>
    simp only [Bool.and_eq_true, decide_eq_true_eq] at h
    refine hraised.orderly.trans (linkFault_orderly hD fun hf => hf.enabled (.inl ?_))
    rw [hraised.homing, h.1]
    exact Option.some_ne_none p
  · exact hraised.orderly

/-- A port's condition changed, and handed. -/
def setCond (p : Port) (c : Bool) (s : State) : State :=
  (s.modPort p fun u => { u with cond := c }).modPortFaults p fun f => { f with linkCond := c }

theorem setCond_self (p : Port) (c : Bool) (s : State) :
    (setCond p c s).ports[p] = { s.ports[p] with cond := c } ∧ (setCond p c s).faults.ports[p].linkCond = c := by
  unfold setCond
  rw [State.modPortFaults_ports, State.modPort_ports, State.modPortFaults_faults, upd_get, if_pos rfl]
  refine ⟨rfl, ?_⟩
  dsimp only
  rw [upd_get, if_pos rfl]

theorem setCond_other {p q : Port} (h : p ≠ q) (c : Bool) (s : State) :
    (setCond p c s).ports[q] = s.ports[q] ∧ (setCond p c s).faults.ports[q] = s.faults.ports[q] := by
  unfold setCond
  rw [State.modPortFaults_ports, State.modPort_ports, State.modPortFaults_faults, upd_get, if_neg h]
  refine ⟨rfl, ?_⟩
  dsimp only
  rw [upd_get, if_neg h]
  rfl

theorem threshold_pos {b : Bank} (h : ThresholdsOk b) (st : Station) : 0 < (b.stations[st]).threshold := by
  have := (h st).1
  omega

/-- The condition that a port's link state and bucket give it, once it is held, is the one they give it. -/
theorem setCond_judged {p : Port} {st : Station} {s : State} (hk : ThresholdsOk s.live)
    (hserves : s.live.serves p = some st) :
    CondJudged (setCond p (judgedCond s.ports[p] (s.station st).threshold) s) p := by
  intro x hx
  obtain rfl : st = x := Option.some.inj (hserves.symm.trans hx)
  rw [(setCond_self p _ s).1]
  exact judgedCond_settled (threshold_pos hk st)

theorem setCond_orderly {p : Port} {st : Station} {s : State} (hserves : s.live.serves p = some st) :
    Orderly D s (setCond p (judgedCond s.ports[p] (s.station st).threshold) s) := by
  have hst : Stays s (setCond p (judgedCond s.ports[p] (s.station st).threshold) s) := by
    refine Stays.trans ?_ (modPortFaults_stays p _ _)
    exact modPort_stays p _ s (by intro; rfl)
  refine .of_homing ⟨hst, claimsKept_of_eq rfl rfl rfl, .refl _, id, fun q h => ?_, fun hk q h => ?_⟩ (authKept_of_eq rfl) rfl
  · by_cases hq : p = q
    · subst hq
      obtain ⟨h1, h2⟩ := setCond_self p (judgedCond s.ports[p] (s.station st).threshold) s
      rw [CondHeld, h1, h2]
    · obtain ⟨h1, h2⟩ := setCond_other hq (judgedCond s.ports[p] (s.station st).threshold) s
      rw [CondHeld, h1, h2]
      exact h
  · by_cases hq : p = q
    · subst hq
      exact setCond_judged hk hserves
    · obtain ⟨h1, -⟩ := setCond_other hq (judgedCond s.ports[p] (s.station st).threshold) s
      intro x hx
      rw [h1]
      exact h x hx

/-- A port judged: its condition is then as its link state and bucket give it. -/
theorem judgeWith_orderly {hand : Port → Station → Bool → State → State} {p : Port} {s : State}
    (hhand : ∀ st, s.live.serves p = some st → ∀ c v,
      Orderly D (v.modPortFaults p fun f => { f with linkCond := c }) (hand p st c v)) :
    Orderly D s (judgeWith hand p s) ∧ (ThresholdsOk s.live → CondJudged (judgeWith hand p s) p) := by
  unfold judgeWith
  split
  · next hn => exact ⟨.refl s, fun _ st hst => by rw [hn] at hst; cases hst⟩
  · next st hst =>
    dsimp only
    split
    · next hc =>
      refine ⟨.refl s, fun _ x hx => ?_⟩
      obtain rfl : st = x := Option.some.inj (hst.symm.trans hx)
      exact hc
    · have hset := setCond_orderly (D := D) hst
      have hrest := hhand st hst (judgedCond s.ports[p] (s.station st).threshold)
        (s.modPort p fun u => { u with cond := judgedCond s.ports[p] (s.station st).threshold })
      exact ⟨hset.trans hrest, fun hk => hrest.judged (hset.stays.live ▸ hk) p (setCond_judged hk hst)⟩

theorem handCond_orderly {st : Station} (hD : D st) (p : Port) (c : Bool) (v : State) :
    Orderly D (v.modPortFaults p fun f => { f with linkCond := c }) (handCond p st c v) := by
  unfold handCond
  dsimp only
  split
  · exact linkBegun_orderly hD p _
  · exact (linkEnded_beside p st _).orderly.trans (homingCondEnded_orderly hD p _)

theorem superviseCond_orderly (st : Station) (p : Port) (c : Bool) (v : State) :
    Orderly D (v.modPortFaults p fun f => { f with linkCond := c }) (superviseCond p st c v) := by
  unfold superviseCond
  dsimp only
  split
  · exact (linkRaised_beside p st _).orderly
  · exact (linkEnded_beside p st _).orderly

theorem judgePort_orderly {p : Port} {s : State} (hD : ∀ st, s.live.serves p = some st → D st) :
    Orderly D s (judgePort p s) ∧ (ThresholdsOk s.live → CondJudged (judgePort p s) p) :=
  judgeWith_orderly fun st hst c v => handCond_orderly (hD st hst) p c v

/-! Clear Faults and Set Mode (R166, R167). -/

theorem clearFaults_orderly (hD : ∀ st, D st) (s : State) : Orderly D s (clearFaults s) := by
  unfold clearFaults
  exact ((homingClearFaults_orderly hD s).trans (Beside.foldl clearMute_beside _ _).orderly).trans (clearFlags_beside _).orderly

theorem relink_orderly (hD : ∀ st, D st) (s : State) (p : Port) : Orderly D s (relink s p) := by
  unfold relink
  split
  · split
    · exact linkBegun_orderly (hD _) p s
    · exact .refl s
  · exact .refl s

theorem evalLink_orderly (hD : ∀ st, D st) (s : State) : Orderly D s (evalLink s) := by
  unfold evalLink
  have hflags : Beside s (s.modAllPortFaults fun f => { f with linkWarn := false }) :=
    modAllPortFaults_beside (by intro; rfl)
  generalize (s.modAllPortFaults fun f => { f with linkWarn := false }) = u at hflags ⊢
  exact (hflags.orderly.trans (homingSetMode_orderly hD u)).trans (Orderly.foldl (relink_orderly hD) _ _)

theorem evalDesk_orderly (s : State) : Orderly D s (evalDesk s) := by
  unfold evalDesk
  have hflags : Beside s (s.modAllPortFaults fun f => { f with deskLatched := false, deskWarn := false }) :=
    modAllPortFaults_beside (by intro; rfl)
  exact hflags.orderly.trans (restartSupervision_orderly _)

theorem setMode_orderly (hD : ∀ st, D st) (c : FaultClass) (m : Mode) (s : State) : Orderly D s (setMode c m s) := by
  unfold setMode
  dsimp only
  have hmodes : Beside s { s with faults := { s.faults with modes := s.faults.modes.set c m } } :=
    setFaults_beside fun _ => rfl
  generalize { s with faults := { s.faults with modes := s.faults.modes.set c m } } = u at hmodes ⊢
  refine hmodes.orderly.trans ?_
  split
  · exact evalLink_orderly hD u
  · exact (evalOverload_beside u).orderly
  · exact evalDesk_orderly u
  · refine Beside.orderly ?_
    unfold evalCue
    exact setFaults_beside (by intro; rfl)
  · exact (evalClip_beside u).orderly

/-! Frames. -/

theorem reconcile_orderly (p : Port) (n : Levels) (s : State) : Orderly D s (reconcile p n s) := by
  unfold reconcile
  split
  · next st hst =>
    dsimp only
    have harb : Beside s (s.modArb (reconcileArb s.live st n)) := modArb_beside (reconcileArb_reach _ _ _ _)
    generalize s.modArb (reconcileArb s.live st n) = u at harb ⊢
    split
    · next h =>
      rw [← harb.homing] at h
      exact harb.orderly.trans (failOver_orderly p h)
    · exact harb.orderly
  · exact .refl s

theorem takeLevels_orderly (p : Port) (n : Levels) (b : Bool) (s : State) : Orderly D s (takeLevels p n b s) := by
  unfold takeLevels
  dsimp only
  have hport : Beside s (s.modPort p fun u => { u with held := n, awaiting := false }) :=
    modPort_beside (fun _ => rfl) fun _ => rfl
  generalize (s.modPort p fun u => { u with held := n, awaiting := false }) = u at hport ⊢
  refine hport.orderly.trans ?_
  split
  · exact reconcile_orderly p n u
  · split
    · exact .refl u
    · split
      · exact (edges_beside _ _ _ u).orderly
      · exact .refl u

end

/-! What is left to show of an invariant. -/

/-- Every station's homing has taken its part of the last Take. -/
def Always (_ : Station) : Prop := True

theorem holderOk_always {s : State} : HolderOk s ↔ HolderOn Always s := holderOk_iff

/-- What is left to show of an invariant that reads the blocks' own state and that every event outside a Take keeps. -/
structure KeptOrderly (P : State → Prop) : Prop where
  same : ∀ s t, SameBlocks s t → P s → P t
  event : ∀ s t, Orderly Always s t → P s → P t
  grant : ∀ p f s, P s → P (claim p f s).2
  powerOn : ∀ s, P s → P (powerOnState s)
  lineReset : ∀ s, P s → P (lineReset s)
  softReset : ∀ s, P s → P (applySoftReset s)
  judged : ∀ p f s, UnitStep f → P s → P (judgePort p (s.modPort p f))
  down : ∀ p s, P s → P (judgePort p (authPortDown p (s.modPort p PortUnit.down)))
  damaged : ∀ p s, P s → P (damagedFrame p s)
  slots : ∀ s, P s → P (setSlots s)
  frames : ∀ l s, P s → P (sendFrames l s)
  opens : ∀ s, P s → P (openCompletion s)
  copyTake : ∀ o s, P s → P (copyTake o s)
  mix : ∀ m s, P s → P { s with mix := m }
  entry : ∀ t y i bs s, P s → P (writeEntry t y i bs s).2
  revert : ∀ s, P s → P { s with edit := s.live }
  region : ∀ f q s, legalSplit f q = true → P s → P (s.modTable (·.setRegion f q))
  pointer : ∀ r t s, s.table.setPointer r = some t → P s → P { s with table := t }

theorem due_orderly {d : Due} {s : State} (h : d.ofBlocks = true) (hd : d.isDue s = true) : Orderly Always s (d.take s) := by
  cases d with
  | callHold n => exact (modArb_beside (.step (setCall_quiet _ n _ _)) : Beside s (expireCallHold n s)).orderly
  | deadline c =>
    cases he : s.entry c with
    | none => simp [Due.isDue, he] at hd
    | some e =>
      simp only [Due.isDue, he, Option.any_some, decide_eq_true_eq] at hd
      exact (expireDeadline_beside he hd).orderly
  | goHold c => exact (expireGoHold_beside c s).orderly
  | follow c => exact (expireFollow_beside c s).orderly
  | switchover st =>
    simp only [Due.isDue, Bool.and_eq_true, decide_eq_true_eq] at hd
    exact expireSwitchover_orderly trivial hd.1
  | supervision => exact expireSupervision_orderly s
  | lamp st => exact (modLamps_beside rfl : Beside s (expireLampTest st s)).orderly
  | restore st => exact applyRestore_orderly trivial s
  | overload st => exact (takeMark_beside st s).orderly
  | linkDown | meterBlank | meterResult | service | softReset => cases h

theorem heartbeat_orderly (s : State) : Orderly Always s (heartbeat s).2 := by
  unfold heartbeat
  split
  · exact .refl s
  · next w hw =>
    split
    · dsimp only
      refine modAuth_orderly (by intro; exact ⟨rfl, rfl⟩) fun h hn => ?_
      rw [(h.2 hn).1] at hw
      cases hw
    · exact deskFault_orderly _ s

theorem standbyCue_beside (c : CueIx) (s : State) : Beside s (standbyCue c s).2 := by
  unfold standbyCue
  split
  · exact .refl s
  · split
    · exact .refl s
    · next hc =>
      split
      · exact .refl s
      · next hl => exact placeInStandby_beside (Bool.eq_false_iff.mpr hc) (Nat.lt_of_not_le hl)

theorem goCue_beside (c : CueIx) (f : Bool) (s : State) : Beside s (goCue c f s).2 := by
  unfold goCue
  split
  · exact .refl s
  · split
    · exact .refl s
    · split
      · exact .refl s
      · exact entryGoes_beside c f s

theorem cancelCue_beside (c : CueIx) (s : State) : Beside s (cancelCue c s).2 := by
  unfold cancelCue
  split
  · exact .refl s
  · split
    · exact .refl s
    · exact cancelEntry_beside c s

theorem lampTest_beside (st : Station) (s : State) : Beside s (lampTest st s).2 := by
  unfold lampTest
  split
  · exact .refl s
  · exact modLamps_beside (f := (·.startTest st (s.station st).lamps)) rfl

/-- The effect of a request is a grant or an event like the others. -/
theorem Served.orderly {s t : State} (h : Served s t) : Orderly Always s t ∨ ∃ p f, t = (Machine.claim p f s).2 := by
  cases h with
  | setMode c m => exact .inl (setMode_orderly (fun _ => trivial) c m s)
  | clearFaults => exact .inl (clearFaults_orderly (fun _ => trivial) s)
  | claim p f => exact .inr ⟨p, f, rfl⟩
  | release => exact .inl (releaseAuthority_orderly s)
  | heartbeat => exact .inl (heartbeat_orderly s)
  | standby c => exact .inl (standbyCue_beside c s).orderly
  | go c f => exact .inl (goCue_beside c f s).orderly
  | cancel c => exact .inl (cancelCue_beside c s).orderly
  | cancelAll => exact .inl (Beside.foldl (fun t c => cancelEntry_beside c t) _ s).orderly
  | restore st => exact .inl (restoreStation_orderly st s)
  | lampTest st => exact .inl (lampTest_beside st s).orderly

theorem putMarks_beside (s : State) : Beside s (putMarks s) := setFaults_beside fun _ => rfl

namespace KeptOrderly

variable {P : State → Prop} (h : KeptOrderly P)
include h

theorem beside {s t : State} (hst : Beside s t) (hs : P s) : P t := h.event s t hst.orderly hs

theorem takeDown (p : Port) {s : State} (hs : P s) : P (takeDown p s) := by
  unfold Machine.takeDown
  refine h.down p _ ?_
  split
  · split
    · exact hs
    · exact h.beside (modArb_beside (releaseHeld_reach _ _ _ _)) hs
  · exact hs

theorem validFrame (p : Port) (f : UplinkFrame) {s : State} (hs : P s) : P (validFrame p f s) := by
  unfold Machine.validFrame
  have h1 : P (judgePort p (s.modPort p fun u => (u.valid f.seq).acquireStep)) := h.judged p _ s (.valid _) hs
  dsimp only
  split
  · unfold takeContents
    refine h.same _ _ (arriveArea_same _ _ _) (h.event _ _ (takeLevels_orderly _ _ _ _) (h.beside ?_ h1))
    exact modPort_beside (fun _ => rfl) fun _ => rfl
  · exact h1

theorem tickPorts {s : State} (hs : P s) : P (tickPorts s) :=
  inAnyOrder_keeps (fun s n => h.same _ _ (spend_same n s)) (fun p t ht => h.judged p _ t .tick ht) _ _
    (foldl_keeps (fun t p ht => h.judged p _ t .tick ht) _ hs)

theorem compose {s : State} (hs : P s) : P (composeCompletion s) := by
  have hsent : P (noteReset (setSlots s).resetLeaves
      (placeTakeWaiting (sendFrames (setSlots s).computeMix.listen (setSlots s)))) :=
    h.same _ _ ((placeTakeWaiting_same _).trans (noteReset_same _ _)) (h.frames _ _ (h.slots s hs))
  unfold composeCompletion
  dsimp only
  generalize noteReset _ _ = t at hsent
  have hmix : P (putMix (setSlots s).computeMix t) :=
    h.beside (Beside.foldl (fun t st => clipPresent_beside st t) _ _) (h.mix _ _ hsent)
  generalize putMix _ t = u at hmix
  have hput : P (putMeter (setSlots s).computeMix (putMarks u)) :=
    h.same _ _ (putMeter_same _ _) (h.beside (putMarks_beside u) hmix)
  exact h.same _ _ (closeCompletion_same _ _ _) (h.tickPorts hput)

theorem core : KeptCore P where
  same := h.same
  powerOn := h.powerOn
  lineReset := h.lineReset
  softReset := h.softReset
  linkDown p s hs := h.takeDown p hs
  due d s hb hd hs := h.event _ _ (due_orderly hb hd) hs
  opens := h.opens
  copyTake := h.copyTake
  compose s hs := h.compose hs
  frame p f s hs := h.validFrame p f hs
  damaged := h.damaged
  served s t hst hs := by
    rcases hst.orderly with ho | ⟨p, f, rfl⟩
    · exact h.event s t ho hs
    · exact h.grant p f s hs
  entry := h.entry
  revert := h.revert
  supervise s hs := h.event _ _ (judgeSupervision_orderly s) hs
  region := h.region
  pointer := h.pointer

end KeptOrderly

end Sys2Proof.Machine
end

section
/-! The parts of a Take (R35) and the resets, as far as the invariants of claims, authority and link conditions read them. -/

namespace Sys2Proof.Machine

/-! The free order of a Take's parts. -/

theorem takeReady_sub {l : List TakePart} {x : TakePart} (h : x ∈ takeReady l) : x ∈ l := (List.mem_filter.mp h).1

/-- A part may be taken next while any is left. -/
theorem takeReady_length_pos {l : List TakePart} (h : l ≠ []) : 0 < (takeReady l).length := by
  obtain ⟨x, hx⟩ := List.exists_mem_of_ne_nil l h
  by_cases ha : TakePart.authority ∈ l
  · exact List.length_pos_of_mem (List.mem_filter.mpr ⟨ha, rfl⟩ : TakePart.authority ∈ takeReady l)
  · exact List.length_pos_of_mem (List.mem_filter.mpr ⟨hx, by simp [ha]⟩ : x ∈ takeReady l)

theorem chooseIx_lt (c : Nat) {n : Nat} (h : 0 < n) : chooseIx c n < n := by
  unfold chooseIx
  split
  · exact h
  · exact Nat.mod_lt _ h

/-- What holds of a state and the parts left, and is kept as a part is taken, holds at the end with none left. -/
theorem takeParts_rest {I : List TakePart → State → Prop} {b : State} (hspend : ∀ l s n, I l s → I l (s.spend n))
    (h : ∀ l x s, x ∈ takeReady l → I l s → I (l.erase x) (x.take b ((l.erase x).contains .homing) s))
    (n : Nat) (l : List TakePart) (s : State) (hn : l.length = n) (hs : I l s) : I [] (takeParts b n l s) := by
  induction n generalizing l s with
  | zero =>
    obtain rfl := List.length_eq_zero_iff.mp hn
    exact hs
  | succ n ih =>
    have hpos := takeReady_length_pos (l := l) (List.ne_nil_of_length_eq_add_one hn)
    have hi := chooseIx_lt s.freeCount hpos
    unfold takeParts
    dsimp only
    rw [List.getElem?_eq_getElem hi]
    dsimp only
    have hmem : (takeReady l)[chooseIx s.freeCount (takeReady l).length] ∈ takeReady l := List.getElem_mem hi
    refine ih _ _ ?_ (h l _ _ hmem (hspend _ _ _ hs))
    rw [List.length_erase_of_mem (takeReady_sub hmem), hn]
    rfl

/-! What each part keeps. -/

theorem takeLinkFault_orderly {D : Station → Prop} {st : Station} (hD : D st) (s : State) : Orderly D s (takeLinkFault s st) := by
  unfold takeLinkFault
  split
  · next h =>
    simp only [Bool.and_eq_true] at h
    exact linkFault_orderly hD (activeCond_enabled h.1)
  · exact .refl s

theorem takeResetStation_ordered (o n : StationRecord) (s : State) (st : Station) : Ordered s (takeResetStation o n s st) := by
  unfold takeResetStation
  exact (modHoming_ordered st _ s).trans ((clearAwaiting_beside _ _).trans (clearAwaiting_beside _ _)).ordered

theorem Ordered.foldl {α : Type} {f : State → α → State} (h : ∀ s a, Ordered s (f s a)) (l : List α) (s : State) :
    Ordered s (l.foldl f s) := by
  induction l generalizing s with
  | nil => exact .refl s
  | cons a l ih => exact (h s a).trans (ih (f s a))

theorem homingTake_ordered (old new : Bank) (s : State) : Ordered s (homingTake old new s) := by
  unfold homingTake
  dsimp only
  exact (Ordered.foldl (fun t st => takeResetStation_ordered _ _ t st) _ s).trans
    (Ordered.foldl (fun t st => (takeLinkFault_orderly (D := Always) trivial t).toOrdered) _ _)

theorem authTake_ordered (old new : Bank) (h : Vector Homing 24) (s : State) : Ordered s (authTake old new h s) := by
  unfold authTake
  split
  · exact .refl s
  · next k hk =>
    split
    · refine setAuth_ordered fun ha => ⟨?_, fun e => ha.2 e⟩
      have := ha.1
      rw [hk] at this
      exact this
    · exact loseAuthority_ordered _ s

theorem lampsTake_claims (old new : Bank) (l : LampState) : (l.applyTake old new).claims = l.claims := by
  unfold LampState.applyTake
  generalize allStations = xs
  induction xs generalizing l with
  | nil => rfl
  | cons st xs ih =>
    rw [List.foldl_cons, ih]
    unfold LampState.takeStation LampState.trimTest LampState.endTest
    dsimp only
    split
    · rfl
    · split
      · split <;> rfl
      · rfl

theorem faultsTake_ports (old new : Bank) (f : Faults) : (f.applyTake old new).ports = f.ports := by rw [Faults.applyTake]

/-- R134: a port's part of a Take; a port that serves a station is judged by it. -/
theorem portTake_orderly {D : Station → Prop} {b : State} {due : Bool} {p : Port} {s : State}
    (hD : ∀ st, (due && takeResets b.live.stations[st] s.live.stations[st]) = false → D st) :
    Orderly D s (portTake b due p s) ∧ (ThresholdsOk s.live → CondJudged (portTake b due p s) p) := by
  have hnone : ∀ {t : State}, Beside s t → s.live.serves p = none → Orderly D s t ∧ (ThresholdsOk s.live → CondJudged t p) :=
    fun hb hn => ⟨hb.orderly, fun _ st hst => by
      rw [hb.stays.live, hn] at hst
      cases hst⟩
  unfold portTake
  split
  · next hn =>
    split
    · exact hnone (linkEnded_beside p _ s) hn
    · exact hnone (.refl s) hn
  · next hn => exact hnone (.refl s) hn
  · next st hst =>
    split
    · exact judgeWith_orderly fun x _ c v => superviseCond_orderly x p c v
    · next hno =>
      refine judgePort_orderly fun x hx => ?_
      obtain rfl := Option.some.inj (hst.symm.trans hx)
      exact hD st (Bool.eq_false_iff.mpr hno)

/-- Every part but the talk arbiter's is an event like the others, whatever becomes of the homing. -/
theorem takePart_ordered {b : State} {due : Bool} {x : TakePart} (hx : x ≠ .arbiter) (s : State) :
    Ordered s (x.take b due s) := by
  cases x with
  | arbiter => exact absurd rfl hx
  | homing => exact homingTake_ordered _ _ s
  | cue => exact (loseTargets_beside _ s).ordered
  | lamps => exact (modLamps_beside (f := LampState.applyTake b.live s.live) (lampsTake_claims _ _ _)).ordered
  | authority => exact authTake_ordered _ _ _ s
  | faults => exact (setFaults_beside fun p => by rw [faultsTake_ports]).ordered
  | port p => exact (portTake_orderly (D := Always) fun _ _ => trivial).1.toOrdered

/-- What every event keeps and the talk arbiter does not touch, a Take keeps. -/
theorem handTake_keeps {P : State → Prop} (hord : ∀ s t, Ordered s t → P s → P t) (harb : ∀ f s, P s → P (s.modArb f))
    {b s : State} (hs : P s) : P (handTake b s) := by
  refine takeParts_rest (I := fun _ => P) (fun _ s n => hord _ _ (spend_beside n s).ordered) (fun l x s _ ht => ?_) _ _ s rfl hs
  by_cases hx : x = .arbiter
  · subst hx
    exact harb _ s ht
  · exact hord _ _ (takePart_ordered hx s) ht

/-! Invariants that read no port unit, no fault flag and no mix. -/

/-- What the invariants of cues, talk, authority and homing read. -/
structure SameReads (s t : State) : Prop where
  live : t.live = s.live
  edit : t.edit = s.edit
  arb : t.arb = s.arb
  records : t.table.records = s.table.records
  cues : t.cues = s.cues
  lamps : t.lamps = s.lamps
  auth : t.auth = s.auth
  homing : t.homing = s.homing

theorem SameBlocks.reads {s t : State} (h : SameBlocks s t) : SameReads s t :=
  ⟨h.live, h.edit, h.arb, h.records, h.cues, h.lamps, h.auth, h.homing⟩

/-- What is left to show of an invariant that reads no more than that. -/
structure KeptReads (P : State → Prop) : Prop where
  reads : ∀ s t, SameReads s t → P s → P t
  event : ∀ s t, Orderly Always s t → P s → P t
  grant : ∀ p f s, P s → P (claim p f s).2
  powerOn : ∀ s, P s → P (powerOnState s)
  lineReset : ∀ s, P s → P (lineReset s)
  softReset : ∀ s, P s → P (applySoftReset s)
  opens : ∀ s, P s → P (openCompletion s)
  copyTake : ∀ o s, P s → P (copyTake o s)
  entry : ∀ t y i bs s, P s → P (writeEntry t y i bs s).2
  revert : ∀ s, P s → P { s with edit := s.live }

theorem modPort_reads (p : Port) (f : PortUnit → PortUnit) (s : State) : SameReads s (s.modPort p f) := by constructor <;> rfl

theorem KeptReads.core {P : State → Prop} (h : KeptReads P) : KeptCore P := by
  refine KeptOrderly.core
    { same := fun s t hst => h.reads s t hst.reads
      event := h.event
      grant := h.grant
      powerOn := h.powerOn
      lineReset := h.lineReset
      softReset := h.softReset
      judged := fun p f s _ hs => h.event _ _ (judgePort_orderly fun _ _ => trivial).1 (h.reads _ _ (modPort_reads p f s) hs)
      down := fun p s hs => h.event _ _ ((authPortDown_orderly p _).trans (judgePort_orderly fun _ _ => trivial).1)
        (h.reads _ _ (modPort_reads p _ s) hs)
      damaged := fun p s hs => h.reads _ _ (modPort_reads p _ s) hs
      slots := fun s hs => h.reads s _ ?slots hs
      frames := fun l s hs => h.reads s _ ?frames hs
      opens := h.opens
      copyTake := h.copyTake
      mix := fun m s hs => h.reads s _ (by constructor <;> rfl) hs
      entry := h.entry
      revert := h.revert
      region := fun f q s _ hs => h.reads s _ ?region hs
      pointer := fun r t s ht hs => h.reads s _ ?pointer hs }
  case slots => constructor <;> simp
  case frames => constructor <;> simp
  case region =>
    constructor
    case records =>
      simp only [State.modTable_table, CueTable.setRegion]
      split <;> rfl
    all_goals rfl
  case pointer =>
    constructor
    case records =>
      unfold CueTable.setPointer at ht
      dsimp only at ht
      split at ht
      · cases ht; rfl
      · split at ht
        · cases ht
        · split at ht <;> cases ht
          rfl
      · split at ht <;> cases ht
        rfl
    all_goals rfl

/-! The copying of EDIT. -/

/-- What a Take starts from: the new bank, with the ports that it leaves unjudged. -/
theorem copyTake_eq (o : TakeOrigin) (s : State) :
    ∃ t, copyTake o s = handTake s t ∧ SameBlocks (unjudgePorts s.live s.edit { s with live := s.edit }) t :=
  ⟨_, rfl, takeAnswer_same _ _ _⟩

theorem unjudge_reads (o n : Bank) (s : State) : SameReads s (unjudgePorts o n s) := by constructor <;> simp

/-! Grants. -/

theorem grant_ordered (p : Port) (f : Bool) (s : State) : Ordered s (grant p f s) := by
  unfold grant
  exact (setAuth_ordered fun _ => ⟨rfl, fun e => by cases e⟩).trans (broadcast_beside _ _).ordered

/-- R115, R116: what a claim changes. -/
theorem claim_cases (p : Port) (f : Bool) (s : State) :
    (claim p f s).2 = s ∨ (s.isMgmt p = true ∧ ((claim p f s).2 = grant p false s ∨ (claim p f s).2 = forceAuthority p s)) := by
  unfold claim
  split
  · exact .inl rfl
  · next hm =>
    have hm : s.isMgmt p = true := by simpa using hm
    split
    · exact .inl rfl
    · split
      · exact .inl rfl
      · split
        · exact .inr ⟨hm, .inl rfl⟩
        · split
          · exact .inl rfl
          · split
            · exact .inr ⟨hm, .inr rfl⟩
            · exact .inl rfl

theorem claim_ordered (p : Port) (f : Bool) (s : State) : Ordered s (claim p f s).2 := by
  obtain h | ⟨-, h | h⟩ := claim_cases p f s
  all_goals rw [h]
  · exact .refl s
  · exact grant_ordered p false s
  · exact (loseAuthority_ordered _ s).trans (grant_ordered p true _)

/-! The claims (O55). -/

theorem fall_keepsClaims (e : CueEntry) : KeepsClaims e e.fall := by
  refine ⟨rfl, rfl, fun _ => rfl, fun hg r hr => ⟨hg, ?_⟩⟩
  revert hr
  unfold CueEntry.fall Deadline.fall
  dsimp only
  split
  · exact fun _ => ⟨_, by assumption⟩
  all_goals exact fun h => by cases h

theorem claimsOk_nil {s : State} (hc : s.cues = []) (hl : s.lamps.claims = []) : ClaimsOk s := by
  refine ⟨?_, fun x hx => ?_, fun e he => ?_⟩
  · rw [hl]; exact List.nodup_nil
  · rw [hl] at hx; cases hx
  · rw [hc] at he; cases he

theorem claimsOk_writeEntry {t : Table} {y : Bool} {i : Nat} {bs : List Byte} {s : State} (hs : ClaimsOk s) :
    ClaimsOk (writeEntry t y i bs s).2 := by
  obtain h | ⟨st, r, -, hr, h⟩ | ⟨n, r, h⟩ | ⟨st, n, c, hc, h⟩ | ⟨c, r, hc, h⟩ := writeEntry_cases t y i bs s
  all_goals rw [h]
  · exact hs
  · exact hs
  · exact hs
  · exact hs
  · obtain ⟨hnodup, hclaim, hentry⟩ := hs
    refine ⟨hnodup, fun x hx => ?_, hentry⟩
    obtain ⟨e, he, hec, hR, hy⟩ := hclaim x hx
    refine ⟨e, he, hec, ?_, hy⟩
    have hne : e.cue ≠ c := by
      simp only [State.isActive, List.any_eq_false, decide_eq_true_eq] at hc
      exact hc e he
    have hrec : (s.modTable fun x => { x with records := x.records.set c r }).cueRec e.cue = s.cueRec e.cue := by
      unfold State.cueRec
      rw [State.modTable_table, Fin.getElem_fin, Vector.getElem_set, if_neg (fun h => hne (Fin.ext h.symm))]
      rfl
    rwa [hrec]

theorem claims_reads {s t : State} (h : SameReads s t) (hs : CueListOk s ∧ ClaimsOk s) : CueListOk t ∧ ClaimsOk t :=
  ⟨cueListOk_of_eq h.cues h.records hs.1, claimsOk_of_eq (by rw [h.lamps]) h.cues h.records hs.2⟩

theorem claims_ordered {s t : State} (h : Ordered s t) (hs : CueListOk s ∧ ClaimsOk s) : CueListOk t ∧ ClaimsOk t :=
  ⟨h.stays.cueList hs.1, h.claims hs.1 hs.2⟩

theorem claims_kept : KeptReads fun s => CueListOk s ∧ ClaimsOk s where
  reads s t h := claims_reads h
  event s t h := claims_ordered h.toOrdered
  grant p f s := claims_ordered (claim_ordered p f s)
  powerOn s _ := ⟨cueListOk_nil rfl, claimsOk_nil rfl rfl⟩
  lineReset s _ := ⟨cueListOk_nil rfl, claimsOk_nil rfl rfl⟩
  softReset s _ := ⟨cueListOk_nil rfl, claimsOk_nil rfl rfl⟩
  opens s hs := by
    have hcues : (openCompletion s).cues = s.cues.map CueEntry.fall := by rw [openCompletion]
    have hlamps : (openCompletion s).lamps.claims = s.lamps.claims := by rw [openCompletion]; rfl
    exact ⟨cueListOk_opens hs.1, claimsOk_entries hs.2 (by simp) hcues hlamps fun e _ => fall_keepsClaims e⟩
  copyTake o s hs := by
    obtain ⟨t, ht, hsame⟩ := copyTake_eq o s
    rw [ht]
    exact handTake_keeps (P := fun s => CueListOk s ∧ ClaimsOk s) (fun _ _ => claims_ordered) (fun _ _ hu => hu)
      (claims_reads hsame.reads (claims_reads (unjudge_reads _ _ _) hs))
  entry t y i bs s hs := ⟨cueListOk_writeEntry hs.1, claimsOk_writeEntry hs.2⟩
  revert s hs := hs

/-- Settles O55. -/
theorem cueListAndPointerAreKept : Obligations.CueListAndPointerAreKept :=
  ⟨fun _ _ hs e => ⟨cueList_kept.core.step (fun _ _ h => h) hs.1 e, pointer_kept.core.step (fun _ _ h => h) hs.2 e⟩,
    fun _ _ hs e => (claims_kept.core.step (fun _ _ h => h) hs e).2⟩

/-! The authority unit and the link conditions (O56). -/

theorem authorityOk_of_eq {s t : State} (h : t.auth = s.auth) (hs : AuthorityOk s) : AuthorityOk t :=
  (authKept_of_eq h hs).1

theorem authority_kept : KeptReads AuthorityOk where
  reads s t h := authorityOk_of_eq h.auth
  event s t h := h.auth
  grant p f s := (claim_ordered p f s).auth
  powerOn s _ := ⟨rfl, fun _ => ⟨rfl, rfl⟩⟩
  lineReset s _ := ⟨rfl, fun _ => ⟨rfl, rfl⟩⟩
  softReset s _ := ⟨rfl, fun _ => ⟨rfl, rfl⟩⟩
  opens s hs := by
    have hauth : (openCompletion s).auth
        = { s.auth with window := s.auth.window.map (SupWindow.rise s.mgmt.settings.supMax) } := by rw [openCompletion]
    obtain ⟨h1, h2⟩ := hs
    unfold AuthorityOk
    rw [hauth]
    exact ⟨h1, fun hn => ⟨by rw [(h2 hn).1]; rfl, (h2 hn).2⟩⟩
  copyTake o s hs := by
    obtain ⟨t, ht, hsame⟩ := copyTake_eq o s
    rw [ht]
    exact handTake_keeps (fun _ _ h => h.auth) (fun _ _ hu => hu)
      (authorityOk_of_eq (hsame.auth.trans (unjudge_reads _ _ _).auth) hs)
  entry t y i bs s hs := by
    refine authorityOk_of_eq ?_ hs
    obtain h | ⟨st, r, -, hr, h⟩ | ⟨n, r, h⟩ | ⟨st, n, c, hc, h⟩ | ⟨c, r, hc, h⟩ := writeEntry_cases t y i bs s
    all_goals rw [h]
    rfl
  revert s hs := hs

/-- A port unit's change that leaves its condition as it is, but for which it is judged afresh. -/
theorem UnitStep.cond {f : PortUnit → PortUnit} (h : UnitStep f) (u : PortUnit) : (f u).cond = u.cond := by
  cases h with
  | down => rfl
  | contents b => rfl
  | damaged => dsimp only; split <;> rfl
  | valid seq =>
    dsimp only [PortUnit.acquireStep]
    split
    · rfl
    · split <;> rfl
  | tick =>
    unfold PortUnit.tick
    split
    · rfl
    · split
      · split <;> rfl
      · rfl

/-- The link conditions once port `p`'s unit has changed: its own is to be judged. -/
def CondsBut (p : Port) (s : State) : Prop :=
  ThresholdsOk s.live ∧ ThresholdsOk s.edit ∧ ∀ q, CondHeld s q ∧ (q ≠ p → CondJudged s q)

theorem condsBut_modPort {p : Port} {f : PortUnit → PortUnit} {s : State} (hf : ∀ u, (f u).cond = u.cond) (hs : CondsOk s) :
    CondsBut p (s.modPort p f) := by
  obtain ⟨hlive, hedit, hports⟩ := hs
  have hother : ∀ q, q ≠ p → (s.modPort p f).ports[q] = s.ports[q] := fun q hq => by
    rw [State.modPort_ports, upd_get, if_neg hq.symm]
  refine ⟨hlive, hedit, fun q => ⟨?_, fun hq st hst => ?_⟩⟩
  · by_cases hq : q = p
    · subst hq
      rw [CondHeld, State.modPort_ports, upd_get, if_pos rfl, hf]
      exact (hports q).1
    · rw [CondHeld, hother q hq]
      exact (hports q).1
  · rw [hother q hq]
    exact (hports q).2 st hst

theorem condsBut_event {p : Port} {s t : State} (h : Ordered s t) (hs : CondsBut p s) : CondsBut p t := by
  obtain ⟨hlive, hedit, hports⟩ := hs
  exact ⟨h.stays.live ▸ hlive, h.stays.edit ▸ hedit, fun q =>
    ⟨h.held q (hports q).1, fun hq => h.judged hlive q ((hports q).2 hq)⟩⟩

theorem conds_event {s t : State} (h : Ordered s t) (hs : CondsOk s) : CondsOk t := by
  obtain ⟨hlive, hedit, hports⟩ := hs
  exact ⟨h.stays.live ▸ hlive, h.stays.edit ▸ hedit, fun q => ⟨h.held q (hports q).1, h.judged hlive q (hports q).2⟩⟩

theorem conds_judge {p : Port} {s : State} (hs : CondsBut p s) : CondsOk (judgePort p s) := by
  obtain ⟨hord, hjudged⟩ := judgePort_orderly (D := Always) (p := p) (s := s) fun _ _ => trivial
  obtain ⟨hlive, hedit, hports⟩ := condsBut_event hord.toOrdered hs
  refine ⟨hlive, hedit, fun q => ⟨(hports q).1, ?_⟩⟩
  by_cases hq : q = p
  · subst hq
    exact hjudged hs.1
  · exact (hports q).2 hq

theorem conds_of_eq {s t : State} (hl : t.live = s.live) (he : t.edit = s.edit) (hp : t.ports = s.ports)
    (hf : t.faults = s.faults) (hs : CondsOk s) : CondsOk t := by
  unfold CondsOk State.station at hs ⊢
  rwa [hl, he, hp, hf]

theorem judgedCond_down {u : PortUnit} (hu : u.up = false) (hc : u.cond = true) (k : Nat) : judgedCond u k = u.cond := by
  unfold judgedCond
  simp [hu, hc]

/-- Port units that are DOWN with the condition present, held alike by the supervisor. -/
theorem conds_down {t : State} (hl : ThresholdsOk t.live) (he : ThresholdsOk t.edit)
    (hp : ∀ p : Port, t.ports[p].up = false ∧ t.ports[p].cond = true ∧ t.faults.ports[p].linkCond = true) : CondsOk t := by
  refine ⟨hl, he, fun p => ?_⟩
  obtain ⟨hup, hcond, hheld⟩ := hp p
  exact ⟨hheld.trans hcond.symm, fun st _ => judgedCond_down hup hcond _⟩

theorem init_down : PortUnit.init.up = false ∧ PortUnit.init.cond = true ∧ PortFaults.init.linkCond = true := ⟨rfl, rfl, rfl⟩

theorem thresholdsOk_setStation {b : Bank} {st : Station} {r : StationRecord} (hb : ThresholdsOk b)
    (hr : 16 ≤ r.threshold ∧ r.threshold ≤ 248 ∧ r.threshold % 8 = 0) :
    ThresholdsOk { b with stations := b.stations.set st r } := by
  intro t
  rw [Fin.getElem_fin, Vector.getElem_set]
  split
  · exact hr
  · exact hb t

/-- Every port unit changed where no link state, bucket and condition is. -/
theorem conds_map {s t : State} {f : PortUnit → PortUnit} (hl : t.live = s.live) (he : t.edit = s.edit)
    (hp : t.ports = s.ports.map f) (hf : t.faults = s.faults)
    (hu : ∀ u, (f u).up = u.up ∧ (f u).bucket = u.bucket ∧ (f u).cond = u.cond) (hs : CondsOk s) : CondsOk t := by
  have hport : ∀ p : Port, t.ports[p] = f s.ports[p] := fun p => by
    rw [hp, Fin.getElem_fin, Vector.getElem_map]
    rfl
  obtain ⟨hlive, hedit, hports⟩ := hs
  refine ⟨hl ▸ hlive, he ▸ hedit, fun p => ?_⟩
  obtain ⟨hup, hbucket, hcond⟩ := hu s.ports[p]
  obtain ⟨hheld, hjudged⟩ := hports p
  rw [hport, hf, hcond]
  refine ⟨hheld, fun st hst => ?_⟩
  rw [State.station, hl]
  rw [hl] at hst
  unfold judgedCond
  rw [hup, hbucket, hcond]
  exact hjudged st hst

theorem setSlot_link (u : PortUnit) : u.setSlot.up = u.up ∧ u.setSlot.bucket = u.bucket ∧ u.setSlot.cond = u.cond := by
  unfold PortUnit.setSlot
  split
  · exact ⟨rfl, rfl, rfl⟩
  · split <;> exact ⟨rfl, rfl, rfl⟩

/-- The ports that a Take leaves to be judged: those whose parts are left. -/
def CondsLeft (l : List TakePart) (s : State) : Prop :=
  ThresholdsOk s.live ∧ ThresholdsOk s.edit ∧ ∀ p, CondHeld s p ∧ (TakePart.port p ∉ l → CondJudged s p)

theorem condsLeft_event {l : List TakePart} {s t : State} (h : Ordered s t) (hs : CondsLeft l s) : CondsLeft l t := by
  obtain ⟨hlive, hedit, hports⟩ := hs
  exact ⟨h.stays.live ▸ hlive, h.stays.edit ▸ hedit, fun q =>
    ⟨h.held q (hports q).1, fun hq => h.judged hlive q ((hports q).2 hq)⟩⟩

theorem condsLeft_part {b : State} {due : Bool} {l : List TakePart} {x : TakePart} {s : State} (hs : CondsLeft l s) :
    CondsLeft (l.erase x) (x.take b due s) := by
  have herase : ∀ {p : Port}, x ≠ .port p → TakePart.port p ∉ l.erase x → TakePart.port p ∉ l := fun hne hp h =>
    hp ((List.mem_erase_of_ne hne.symm).mpr h)
  by_cases hx : x = .arbiter
  · subst hx
    obtain ⟨hlive, hedit, hports⟩ := hs
    show CondsLeft _ (s.modArb (Arbiter.applyTake b.live s.live))
    generalize Arbiter.applyTake b.live s.live = f
    exact ⟨hlive, hedit, fun p => ⟨(hports p).1, fun hp => (hports p).2 (herase nofun hp)⟩⟩
  · obtain ⟨hlive, hedit, hports⟩ := condsLeft_event (takePart_ordered (b := b) (due := due) hx s) hs
    refine ⟨hlive, hedit, fun p => ⟨(hports p).1, fun hp => ?_⟩⟩
    by_cases hxp : x = .port p
    · subst hxp
      exact (portTake_orderly (D := Always) fun _ _ => trivial).2 hs.1
    · exact (hports p).2 (herase hxp hp)

/-- A port with nothing to hand at a Take stands judged. -/
theorem judged_of_quiet {b s : State} {p : Port} (h : takeShows b s p = false) : CondJudged s p := by
  intro st hst
  unfold takeShows at h
  rw [hst] at h
  simpa using h

theorem port_mem_allTakeParts (p : Port) : TakePart.port p ∈ allTakeParts :=
  List.mem_append_right _ (List.mem_map_of_mem (List.mem_finRange p))

theorem conds_handTake {b s : State} (hl : ThresholdsOk s.live) (he : ThresholdsOk s.edit) (hh : ∀ p, CondHeld s p) :
    CondsOk (handTake b s) := by
  have hleft : CondsLeft [] (handTake b s) := by
    refine takeParts_rest (I := CondsLeft) (fun _ t n => condsLeft_event (spend_beside n t).ordered)
      (fun l x t _ => condsLeft_part) _ _ s rfl ⟨hl, he, fun p => ⟨hh p, fun hp => judged_of_quiet (b := b) ?_⟩⟩
    by_contra hshows
    exact hp (List.mem_filter.mpr ⟨port_mem_allTakeParts p, Bool.of_not_eq_false hshows⟩)
  obtain ⟨hlive, hedit, hports⟩ := hleft
  exact ⟨hlive, hedit, fun p => ⟨(hports p).1, (hports p).2 List.not_mem_nil⟩⟩

theorem unjudge_held {o n : Bank} {s : State} (hs : ∀ p, CondHeld s p) (p : Port) : CondHeld (unjudgePorts o n s) p := by
  unfold CondHeld
  rw [unjudgePorts]
  simp only [Fin.getElem_fin, Vector.getElem_ofFn, unjudgedUnit, unjudgedFaults]
  split
  · exact hs p
  · rfl

theorem conds_kept : KeptOrderly CondsOk where
  same s t h := conds_of_eq h.live h.edit h.ports h.faults
  event s t h := conds_event h.toOrdered
  grant p f s := conds_event (claim_ordered p f s)
  powerOn s _ := by
    refine conds_down thresholdsOk_powerOn thresholdsOk_powerOn fun p => ?_
    simp only [powerOnState, State.reset, Faults.init, Fin.getElem_fin, Vector.getElem_replicate]
    exact init_down
  lineReset s hs := by
    have hk := resetMarks_same s
    refine conds_down (t := lineReset s) (hk.live ▸ hs.1) (hk.edit ▸ hs.2.1) fun p => ?_
    simp only [lineReset, State.reset, Faults.init, Fin.getElem_fin, Vector.getElem_replicate]
    exact init_down
  softReset s hs := by
    have hk := resetMarks_same s
    refine conds_down (t := applySoftReset s) (hk.live ▸ hs.1) (hk.edit ▸ hs.2.1) fun p => ?_
    simp only [applySoftReset, Faults.soft, Faults.init, PortUnit.soft, Fin.getElem_fin, Vector.getElem_map,
      Vector.getElem_replicate]
    exact init_down
  judged p f s hf hs := conds_judge (condsBut_modPort hf.cond hs)
  down p s hs :=
    conds_judge (condsBut_event (authPortDown_orderly (D := Always) p _).toOrdered (condsBut_modPort (fun _ => rfl) hs))
  damaged p s hs := by
    obtain ⟨hlive, hedit, hports⟩ := hs
    have hport : ∀ q : Port, (damagedFrame p s).ports[q].up = s.ports[q].up
        ∧ (damagedFrame p s).ports[q].bucket = s.ports[q].bucket ∧ (damagedFrame p s).ports[q].cond = s.ports[q].cond := by
      intro q
      unfold damagedFrame
      rw [State.modPort_ports, upd_get]
      split
      · next h =>
        subst h
        split <;> exact ⟨rfl, rfl, rfl⟩
      · exact ⟨rfl, rfl, rfl⟩
    refine ⟨hlive, hedit, fun q => ?_⟩
    obtain ⟨hup, hbucket, hcond⟩ := hport q
    refine ⟨(hports q).1.trans hcond.symm, fun st hst => ?_⟩
    have hj := (hports q).2 st hst
    unfold judgedCond at hj ⊢
    rw [hup, hbucket, hcond]
    exact hj
  slots s := conds_map (f := PortUnit.setSlot) (setSlots_live s) (setSlots_edit s) (by rw [setSlots]) (setSlots_faults s)
    setSlot_link
  frames l s := conds_map (f := fun u => { u with downSeq := u.downSeq + 1 }) (sendFrames_live l s) (sendFrames_edit l s)
    (by rw [sendFrames]) (sendFrames_faults l s) fun _ => ⟨rfl, rfl, rfl⟩
  opens s := conds_of_eq (openCompletion_live s) (openCompletion_edit s) (openCompletion_ports s) (openCompletion_faults s)
  copyTake o s hs := by
    obtain ⟨t, ht, hsame⟩ := copyTake_eq o s
    have hlive : t.live = s.edit := hsame.live.trans (unjudgePorts_live _ _ _)
    have hedit : t.edit = s.edit := hsame.edit.trans (unjudgePorts_edit _ _ _)
    rw [ht]
    refine conds_handTake (hlive ▸ hs.2.1) (hedit ▸ hs.2.1) fun p => ?_
    rw [CondHeld, hsame.ports, hsame.faults]
    exact unjudge_held (s := { s with live := s.edit }) (fun q => (hs.2.2 q).1) p
  mix m s hs := conds_of_eq (s := s) rfl rfl rfl rfl hs
  entry t y i bs s hs := by
    obtain h | ⟨st, r, hr, -, h⟩ | ⟨n, r, h⟩ | ⟨st, n, c, hc, h⟩ | ⟨c, r, hc, h⟩ := writeEntry_cases t y i bs s
    all_goals rw [h]
    · exact hs
    · exact ⟨hs.1, thresholdsOk_setStation hs.2.1 (decodeStation_ranges hr).2, hs.2.2⟩
    · exact hs
    · exact hs
    · exact hs
  revert s hs := ⟨hs.1, hs.1, hs.2.2⟩
  region f q s _ hs := conds_of_eq (t := s.modTable (·.setRegion f q)) rfl rfl rfl rfl hs
  pointer r t s _ hs := conds_of_eq (t := { s with table := t }) rfl rfl rfl rfl hs

/-- Settles O56. -/
theorem rangesAreKept : Obligations.RangesAreKept := by
  refine ⟨fun s t ⟨hp, hd, ha⟩ e => ⟨?_, ?_, ?_⟩, fun s hs => ⟨conds_kept.core.kept.composed hs, fun t e => ?_⟩⟩
  · exact ports_kept.core.step (fun _ _ h => h) hp e
  · exact ducks_kept.core.step (fun _ _ h => h) hd e
  · exact authority_kept.core.step (fun _ _ h => h) ha e
  · exact conds_kept.core.step (fun _ _ h => h) hs e

end Sys2Proof.Machine
end

section
/-! The homing of every station with its record, and the holder port with the holding station, through resets, grants and the
parts of a Take (R113, R118, R142, R153; O58). -/

namespace Sys2Proof.Machine

/-! The homing at resets and at the fall of the timers. -/

theorem homingFits_afterLine (r : StationRecord) : HomingFits r (Homing.afterLine r) := by
  refine ⟨fun _ => rfl, by simp [Homing.afterLine, Homing.init], ?_⟩
  cases h : r.enabled <;> simp [Homing.afterLine, Homing.init, h]

theorem homingFits_afterTake (r : StationRecord) : HomingFits r (Homing.afterTake r) := homingFits_afterLine r

theorem HomingFits.soft {r : StationRecord} {h : Homing} (hf : HomingFits r h) : HomingFits r h.soft := by
  by_cases hsw : h.state = .switching
  · obtain ⟨hen, -⟩ := hf.spare (.inl hsw)
    refine ⟨fun e => ?_, ?_, ?_⟩
    · rw [Homing.soft, if_pos hsw]
      exact hf.1 e
    · rw [Homing.soft, if_pos hsw]
      simp
    · rw [if_pos hen, Homing.soft, if_pos hsw]
  · have hk : h.soft = { h with switchRem := none, restorePending := false, restoreDue := false } := by
      rw [Homing.soft]
      exact if_neg hsw
    rw [hk]
    refine ⟨hf.1, by simp [hsw], ?_⟩
    have h3 := hf.2.2
    dsimp only
    split
    · next hen => rwa [if_pos hen] at h3
    · next hen =>
      rw [if_neg hen] at h3
      exact ⟨h3.1, h3.2.1, h3.2.2.1, h3.2.2.2.1, rfl⟩

theorem HomingFits.fall {r : StationRecord} {h : Homing} (hf : HomingFits r h) : HomingFits r h.fall := by
  obtain ⟨h1, h2, h3⟩ := hf
  exact ⟨h1, by simpa [Homing.fall] using h2, h3⟩

theorem fits_of_eq {s t : State} (hl : t.live = s.live) (hh : t.homing = s.homing) {st : Station} (hs : FitsAt s st) :
    FitsAt t st := by
  unfold FitsAt State.station at hs ⊢
  rwa [hl, hh]

theorem homingOk_of_eq {s t : State} (hl : t.live = s.live) (hh : t.homing = s.homing) (hs : HomingOk s) : HomingOk t :=
  fun st => fits_of_eq hl hh (hs st)

/-- Every station's homing changed by a function that keeps it with its record. -/
theorem homingOk_map {s t : State} {f : Homing → Homing} (hl : t.live = s.live) (hh : t.homing = s.homing.map f)
    (hf : ∀ r h, HomingFits r h → HomingFits r (f h)) (hs : HomingOk s) : HomingOk t := by
  intro st
  rw [hh, Fin.getElem_fin, Vector.getElem_map, State.station, hl]
  exact hf _ _ (hs st)

theorem grant_homing (p : Port) (f : Bool) (s : State) : (grant p f s).homing = s.homing := by rw [grant, broadcast]

theorem claim_homing (p : Port) (f : Bool) (s : State) : (claim p f s).2.homing = s.homing := by
  obtain h | ⟨-, h | h⟩ := claim_cases p f s
  all_goals rw [h]
  · exact grant_homing _ _ _
  · rw [forceAuthority, grant_homing, loseAuthority_homing]

/-! A Take's part of the homing controller (R153). -/

theorem takeResetStation_homing (o n : StationRecord) (s : State) (st x : Station) :
    (takeResetStation o n s st).homing[x] = if x = st then Homing.afterTake n else s.homing[x] := by
  have hb := (clearAwaiting_beside o (s.modHoming st fun _ => Homing.afterTake n)).trans (clearAwaiting_beside n _)
  rw [takeResetStation, hb.homing]
  split
  · next h => rw [h, modHoming_self]
  · next h => exact modHoming_other _ s h

theorem takeResetStation_auth (o n : StationRecord) (s : State) (st : Station) :
    (takeResetStation o n s st).auth = s.auth :=
  ((clearAwaiting_beside o (s.modHoming st fun _ => Homing.afterTake n)).trans (clearAwaiting_beside n _)).auth

/-- The stations of a list reset by a Take: each has the homing of its new record, and nothing happens to the others. -/
theorem takeResets_foldl (o n : Bank) (l : List Station) (s : State) :
    (∀ x : Station, (l.foldl (fun t st => takeResetStation o.stations[st] n.stations[st] t st) s).homing[x]
        = if x ∈ l then Homing.afterTake n.stations[x] else s.homing[x])
      ∧ (l.foldl (fun t st => takeResetStation o.stations[st] n.stations[st] t st) s).auth = s.auth := by
  induction l generalizing s with
  | nil => exact ⟨fun x => by simp, rfl⟩
  | cons st l ih =>
    obtain ⟨h1, h2⟩ := ih (takeResetStation o.stations[st] n.stations[st] s st)
    refine ⟨fun x => ?_, h2.trans (takeResetStation_auth _ _ s st)⟩
    rw [List.foldl_cons, h1, takeResetStation_homing]
    by_cases hx : x ∈ l
    · rw [if_pos hx, if_pos (List.mem_cons_of_mem _ hx)]
    · rw [if_neg hx]
      by_cases hst : x = st
      · subst hst
        rw [if_pos rfl, if_pos List.mem_cons_self]
      · rw [if_neg hst, if_neg (by simp [hx, hst])]

theorem mem_takeResetList {old new : Bank} {st : Station} :
    st ∈ takeResetList old new ↔ takeResets old.stations[st] new.stations[st] = true := by
  rw [takeResetList, List.mem_filter]
  exact ⟨And.right, fun h => ⟨List.mem_finRange st, h⟩⟩

theorem takeResets_eq_false {o n : StationRecord} :
    takeResets o n = false ↔ o.enabled = n.enabled ∧ o.primary = n.primary ∧ o.spare = n.spare := by
  simp [takeResets, portsDiffer]

/-- A record whose ports and enable a Take leaves alone fits the homing that the old one fits. -/
theorem HomingFits.same {o n : StationRecord} {h : Homing} (hr : takeResets o n = false) (hf : HomingFits o h) :
    HomingFits n h := by
  obtain ⟨hen, hprim, hspare⟩ := takeResets_eq_false.mp hr
  unfold HomingFits at hf ⊢
  rwa [← hen, ← hprim, ← hspare]

/-- The stations whose homing has taken its part of a Take: all of them once the part is taken, and before it those that
it does not reset. -/
def Settled (old new : Bank) (l : List TakePart) (st : Station) : Prop :=
  (l.contains .homing && takeResets old.stations[st] new.stations[st]) = false

/-- The homing while parts of a Take are left. -/
def FitsLeft (old new : Bank) (l : List TakePart) (s : State) : Prop :=
  l.Nodup ∧ s.live = new ∧ ∀ st, Settled old new l st → FitsAt s st

theorem settled_erase {old new : Bank} {l : List TakePart} {x : TakePart} (hx : x ≠ .homing) {st : Station} :
    Settled old new (l.erase x) st ↔ Settled old new l st := by
  have : (l.erase x).contains TakePart.homing = l.contains TakePart.homing := by
    rw [Bool.eq_iff_iff, List.contains_iff_mem, List.contains_iff_mem, List.mem_erase_of_ne hx.symm]
  rw [Settled, Settled, this]

theorem settled_done {old new : Bank} {l : List TakePart} (hl : TakePart.homing ∉ l) (st : Station) : Settled old new l st := by
  have : l.contains TakePart.homing = false := by simpa using hl
  rw [Settled, this]
  rfl

theorem settled_left {old new : Bank} {l : List TakePart} (hl : TakePart.homing ∈ l) {st : Station} :
    Settled old new l st ↔ takeResets old.stations[st] new.stations[st] = false := by
  have : l.contains TakePart.homing = true := by simpa using hl
  rw [Settled, this, Bool.true_and]

/-- R153: the homing controller's part of a Take: what its resets reach, and that the LINK faults after them are events like
the others. -/
theorem homingTake_spec (old : Bank) (s : State) :
    ∃ u, Orderly Always u (homingTake old s.live s) ∧ u.live = s.live ∧ u.auth = s.auth
      ∧ ∀ x : Station, u.homing[x]
          = if takeResets old.stations[x] s.live.stations[x] = true then Homing.afterTake s.live.stations[x] else s.homing[x] := by
  obtain ⟨h1, h2⟩ := takeResets_foldl old s.live (takeResetList old s.live) s
  have hord := Ordered.foldl (fun t st => takeResetStation_ordered old.stations[st] s.live.stations[st] t st)
    (takeResetList old s.live) s
  unfold homingTake
  dsimp only
  generalize List.foldl _ s (takeResetList old s.live) = u at h1 h2 hord
  refine ⟨u, Orderly.foldl (fun t st => takeLinkFault_orderly trivial t) _ u, hord.stays.live, h2, fun x => ?_⟩
  rw [h1]
  simp only [mem_takeResetList]

theorem homingTake_fits {old new : Bank} {l : List TakePart} {s : State} (hs : FitsLeft old new l s)
    (hl : TakePart.homing ∈ l) : HomingOk (homingTake old s.live s) := by
  obtain ⟨-, hlive, hfits⟩ := hs
  obtain ⟨u, hord, hul, -, hhom⟩ := homingTake_spec old s
  intro st
  refine hord.homing st trivial ?_
  rw [FitsAt, hhom, State.station, hul]
  split
  · exact homingFits_afterTake _
  · next hr =>
    refine hfits st ((settled_left hl).mpr ?_)
    rw [← hlive]
    exact Bool.eq_false_iff.mpr hr

theorem fitsLeft_orderly {old new : Bank} {l : List TakePart} {x : TakePart} {s t : State} (hx : x ≠ .homing)
    (h : Orderly (Settled old new l) s t) (hs : FitsLeft old new l s) : FitsLeft old new (l.erase x) t := by
  obtain ⟨hnodup, hlive, hfits⟩ := hs
  refine ⟨hnodup.erase x, h.stays.live.trans hlive, fun st hst => ?_⟩
  rw [settled_erase hx] at hst
  exact h.homing st hst (hfits st hst)

theorem authTake_homing (o n : Bank) (h : Vector Homing 24) (s : State) : (authTake o n h s).homing = s.homing := by
  unfold authTake
  split
  · rfl
  · split
    · rfl
    · exact loseAuthority_homing _ s

/-- A part that is neither the homing controller's, a port's nor the authority unit's leaves homing and authority alone. -/
theorem takePart_calm {b : State} {due : Bool} {x : TakePart} (hx : x.afterAuthority = false) (ha : x ≠ .authority) (s : State) :
    (x.take b due s).live = s.live ∧ (x.take b due s).homing = s.homing ∧ (x.take b due s).auth = s.auth := by
  cases x with
  | arbiter =>
    have harb : TakePart.take b due .arbiter s = s.modArb (Arbiter.applyTake b.live s.live) := by rw [TakePart.take]
    rw [harb]
    exact ⟨State.modArb_live _ _, State.modArb_homing _ _, State.modArb_auth _ _⟩
  | cue =>
    have hb : Beside s (cueTake b.live s.live s) := loseTargets_beside _ s
    exact ⟨hb.stays.live, hb.homing, hb.auth⟩
  | lamps =>
    have hb := modLamps_beside (f := LampState.applyTake b.live s.live) (s := s) (lampsTake_claims _ _ _)
    exact ⟨hb.stays.live, hb.homing, hb.auth⟩
  | faults =>
    have hb := setFaults_beside (f := s.faults.applyTake b.live s.live) (s := s) fun p => by rw [faultsTake_ports]
    exact ⟨hb.stays.live, hb.homing, hb.auth⟩
  | homing | port => cases hx
  | authority => exact absurd rfl ha

theorem portTake_settled {b : State} {l : List TakePart} {p : Port} {s : State} :
    Orderly (Settled b.live s.live l) s (portTake b ((l.erase (.port p)).contains .homing) p s) := by
  refine (portTake_orderly fun st hst => ?_).1
  rw [← settled_erase (x := .port p) nofun]
  exact hst

theorem fitsLeft_part {b : State} {new : Bank} {l : List TakePart} {x : TakePart} {s : State} (hmem : x ∈ l)
    (hs : FitsLeft b.live new l s) : FitsLeft b.live new (l.erase x) (x.take b ((l.erase x).contains .homing) s) := by
  have hcalm : ∀ {t : State}, x ≠ .homing → t.live = s.live → t.homing = s.homing → FitsLeft b.live new (l.erase x) t := by
    intro t hx hl hh
    obtain ⟨hnodup, hlive, hfits⟩ := hs
    exact ⟨hnodup.erase x, hl.trans hlive, fun st hst => fits_of_eq hl hh (hfits st ((settled_erase hx).mp hst))⟩
  cases hx : x with
  | homing =>
    subst hx
    obtain ⟨hnodup, hlive, -⟩ := id hs
    exact ⟨hnodup.erase _, (homingTake_ordered b.live s.live s).stays.live.trans hlive, fun st _ => homingTake_fits hs hmem st⟩
  | port p =>
    subst hx
    have hlive := hs.2.1
    subst hlive
    exact fitsLeft_orderly nofun portTake_settled hs
  | authority =>
    subst hx
    exact hcalm nofun (authTake_stays _ _ _ s).live (authTake_homing _ _ _ s)
  | arbiter | cue | lamps | faults =>
    obtain ⟨h1, h2, -⟩ := takePart_calm (b := b) (due := (l.erase x).contains .homing) (x := x) (by rw [hx]; rfl)
      (by rw [hx]; nofun) s
    subst hx
    exact hcalm nofun h1 h2

theorem allTakeParts_nodup : allTakeParts.Nodup := by decide

/-- With nothing for the homing controller to do, a Take resets no station. -/
theorem homing_quiet {b s : State} (h : TakePart.homing ∉ allTakeParts.filter (TakePart.shows b s)) (st : Station) :
    takeResets b.live.stations[st] s.live.stations[st] = false := by
  by_contra hr
  refine h (List.mem_filter.mpr ⟨by simp [allTakeParts], ?_⟩)
  rw [TakePart.shows, Bool.not_eq_true', List.isEmpty_eq_false_iff]
  exact List.ne_nil_of_mem (mem_takeResetList.mpr (Bool.of_not_eq_false hr))

theorem settled_start {b s : State} {st : Station}
    (h : Settled b.live s.live (allTakeParts.filter (TakePart.shows b s)) st) :
    takeResets b.live.stations[st] s.live.stations[st] = false := by
  by_cases hl : TakePart.homing ∈ allTakeParts.filter (TakePart.shows b s)
  · exact (settled_left hl).mp h
  · exact homing_quiet hl st

theorem fitsLeft_start {b s : State} (hh : s.homing = b.homing) (hb : HomingOk b) :
    FitsLeft b.live s.live (allTakeParts.filter (TakePart.shows b s)) s := by
  refine ⟨allTakeParts_nodup.filter _, rfl, fun st hst => ?_⟩
  rw [FitsAt, hh]
  exact (hb st).same (settled_start hst)

theorem fitsLeft_spend {old new : Bank} {l : List TakePart} {s : State} (n : Nat) (hs : FitsLeft old new l s) :
    FitsLeft old new l (s.spend n) := by
  have hb := spend_beside n s
  exact ⟨hs.1, hb.stays.live.trans hs.2.1, fun st hst => fits_of_eq hb.stays.live hb.homing (hs.2.2 st hst)⟩

theorem homingOk_handTake {b s : State} (hh : s.homing = b.homing) (hb : HomingOk b) : HomingOk (handTake b s) := by
  have hleft : FitsLeft b.live s.live [] (handTake b s) :=
    takeParts_rest (I := FitsLeft b.live s.live) (fun _ t n => fitsLeft_spend n)
      (fun l x t hx => fitsLeft_part (takeReady_sub hx)) _ _ s rfl (fitsLeft_start hh hb)
  exact fun st => hleft.2.2 st (settled_done List.not_mem_nil st)

/-- The state in which a Take's parts start has the homing and the authority from before. -/
theorem copyTake_start (o : TakeOrigin) (s : State) :
    ∃ t, copyTake o s = handTake s t ∧ t.live = s.edit ∧ t.homing = s.homing ∧ t.auth = s.auth := by
  obtain ⟨t, ht, hsame⟩ := copyTake_eq o s
  have hr := unjudge_reads s.live s.edit { s with live := s.edit }
  exact ⟨t, ht, hsame.live.trans hr.live, hsame.homing.trans hr.homing, hsame.auth.trans hr.auth⟩

theorem writeEntry_aside (t : Table) (y : Bool) (i : Nat) (bs : List Byte) (s : State) :
    (writeEntry t y i bs s).2.live = s.live ∧ (writeEntry t y i bs s).2.homing = s.homing
      ∧ (writeEntry t y i bs s).2.auth = s.auth ∧ (writeEntry t y i bs s).2.arb = s.arb := by
  obtain h | ⟨st, r, -, hr, h⟩ | ⟨n, r, h⟩ | ⟨st, n, c, hc, h⟩ | ⟨c, r, hc, h⟩ := writeEntry_cases t y i bs s
  all_goals rw [h]; exact ⟨rfl, rfl, rfl, rfl⟩

theorem openCompletion_homing (s : State) : (openCompletion s).homing = s.homing.map Homing.fall := by rw [openCompletion]

theorem homing_kept : KeptReads HomingOk where
  reads s t h := homingOk_of_eq h.live h.homing
  event s t h hs st := h.homing st trivial (hs st)
  grant p f s := homingOk_of_eq (claim_stays p f s).live (claim_homing p f s)
  powerOn s _ st := by
    rw [show (powerOnState s).homing[st] = Homing.init by simp [powerOnState, State.reset]]
    exact homingFits_init (by simp [State.station, powerOnState, State.reset, Bank.powerOn, StationRecord.powerOn])
  lineReset s _ st := by
    rw [show (lineReset s).homing[st] = Homing.afterLine ((lineReset s).station st) by simp [lineReset, State.station]]
    exact homingFits_afterLine _
  softReset s hs := homingOk_map (f := Homing.soft) (by rw [applySoftReset]; exact (resetMarks_same s).live)
    (by rw [applySoftReset]) (fun _ _ h => h.soft) hs
  opens s hs := homingOk_map (openCompletion_live s) (openCompletion_homing s) (fun _ _ h => h.fall) hs
  copyTake o s hs := by
    obtain ⟨t, ht, -, hh, -⟩ := copyTake_start o s
    rw [ht]
    exact homingOk_handTake hh hs
  entry t y i bs s hs := by
    obtain ⟨h1, h2, -, -⟩ := writeEntry_aside t y i bs s
    exact homingOk_of_eq h1 h2 hs
  revert s hs := hs

/-! The holder port (R113, R118). -/

theorem holderOn_of_eq {D : Station → Prop} {s t : State} (hl : t.live = s.live) (hh : t.homing = s.homing)
    (ha : t.auth = s.auth) (hs : HolderOn D s) : HolderOn D t := by
  unfold HolderOn State.station at hs ⊢
  rwa [hl, hh, ha]

theorem holderOk_of_eq {s t : State} (hl : t.live = s.live) (hh : t.homing = s.homing) (ha : t.auth = s.auth)
    (hs : HolderOk s) : HolderOk t :=
  holderOk_always.mpr (holderOn_of_eq hl hh ha (holderOk_always.mp hs))

/-- The holder port depends on the holder, the active ports and the LIVE records alone. -/
theorem holderOk_congr {s t : State} (hl : t.live = s.live) (hact : ∀ st : Station, t.homing[st].active = s.homing[st].active)
    (h1 : t.auth.holder = s.auth.holder) (h2 : t.auth.holding = s.auth.holding) (hs : HolderOk s) : HolderOk t := by
  unfold HolderOk State.station at hs ⊢
  rw [h1, h2, hl]
  revert hs
  split
  · exact id
  · exact id
  · rw [hact]
    exact id

theorem holderOk_none {s : State} (h : s.auth.holding = none) : HolderOk s := by
  unfold HolderOk
  rw [h]
  trivial

theorem HomingFits.named {r : StationRecord} {h : Homing} (hf : HomingFits r h) {p : Port} (ha : h.active = some p) :
    r.names p = true := by
  have hen := hf.enabled (.inl (by rw [ha]; exact Option.some_ne_none p))
  obtain ⟨-, -, h3⟩ := hf
  rw [if_pos hen] at h3
  refine names_iff.mpr ⟨hen, ?_⟩
  rw [ha] at h3
  split at h3
  · exact .inl (Option.some.inj h3).symm
  · exact .inr h3.2.symm
  · exact .inr h3.2.symm
  · cases h3

/-- No two enabled stations have one active port. -/
theorem active_unique {s : State} (hb : s.live.portsApart) (hh : HomingOk s) {st t : Station} {p : Port}
    (hst : s.homing[st].active = some p) (ht : s.homing[t].active = some p) : st = t := by
  by_contra hne
  have hs := (hh st).named hst
  have ht := (hh t).named ht
  exact hb st t (names_iff.mp hs).1 (names_iff.mp ht).1 hne p ⟨hs, ht⟩

theorem activeOf_some {s : State} {p : Port} {st : Station} (h : s.activeOf p = some st) :
    (s.station st).enabled = true ∧ s.homing[st].active = some p := by
  have := List.find?_some h
  simpa only [Bool.and_eq_true, decide_eq_true_eq] using this

theorem activeOf_none {s : State} {p : Port} (h : s.activeOf p = none) (st : Station) :
    ¬ ((s.station st).enabled = true ∧ s.homing[st].active = some p) := by
  have := List.find?_eq_none.mp h st (List.mem_finRange st)
  simpa only [Bool.and_eq_true, decide_eq_true_eq] using this

theorem isMgmt_iff {s : State} {p : Port} :
    s.isMgmt p = true ↔ (∃ st, (s.station st).enabled = true ∧ (s.station st).mgmt = true ∧ s.homing[st].active = some p)
      ∨ (p = 0 ∧ s.live.anyMgmt = false) := by
  unfold State.isMgmt
  simp only [Bool.or_eq_true, List.any_eq_true, Bool.and_eq_true, decide_eq_true_eq, Bool.not_eq_true', and_assoc]
  have hzero : p.val = 0 ↔ p = 0 := ⟨fun h => Fin.ext h, fun h => by rw [h]; rfl⟩
  rw [hzero]
  exact or_congr_left ⟨fun ⟨st, _, h⟩ => ⟨st, h⟩, fun ⟨st, h⟩ => ⟨st, List.mem_finRange st, h⟩⟩

/-- R115: a grant to a management port. -/
theorem holderOk_grant {p : Port} {f : Bool} {s : State} (hb : s.live.portsApart) (hh : HomingOk s) (hm : s.isMgmt p = true) :
    HolderOk (grant p f s) := by
  have hsent := broadcast_beside (grantedReport p (s.holdingFor p) f)
    { s with auth := { holder := some p, holding := some (s.holdingFor p),
                       window := if s.supervises then some SupWindow.start else none, deskCond := false } }
  unfold grant
  refine holderOk_of_eq hsent.stays.live hsent.homing hsent.auth ?_
  unfold HolderOk State.holdingFor
  dsimp only
  cases hact : s.activeOf p with
  | none =>
    dsimp only
    rcases isMgmt_iff.mp hm with ⟨st, hen, -, ha⟩ | ⟨rfl, hno⟩
    · exact absurd ⟨hen, ha⟩ (activeOf_none hact st)
    · exact ⟨rfl, hno⟩
  | some st =>
    obtain ⟨hen, ha⟩ := activeOf_some hact
    dsimp only
    cases hma : (s.station st).mgmt with
    | true =>
      rw [if_pos rfl]
      exact ⟨ha.symm, hen, hma⟩
    | false =>
      rw [if_neg Bool.false_ne_true]
      rcases isMgmt_iff.mp hm with ⟨x, -, hmx, hax⟩ | ⟨rfl, hno⟩
      · rw [active_unique hb hh ha hax, hmx] at hma
        cases hma
      · exact ⟨rfl, hno⟩

/-- R118: the holder after the authority unit's part of a Take that leaves authority held. -/
theorem holderOn_taken {D : Station → Prop} {b t : State} {h h' : Holding} (hok : HolderOk b) (hb : b.auth.holding = some h)
    (htake : holdingAfterTake b.live t.live b.homing h = some h') (ht : t.auth.holding = some h')
    (hholder : t.auth.holder = b.auth.holder) (hhom : t.homing = b.homing)
    (hD : ∀ st, D st ↔ takeResets b.live.stations[st] t.live.stations[st] = false) : HolderOn D t := by
  unfold HolderOk at hok
  rw [hb] at hok
  unfold HolderOn
  rw [ht, hholder, hhom]
  cases h with
  | station st =>
    obtain ⟨hact, hen, -⟩ := hok
    unfold holdingAfterTake at htake
    dsimp only at htake
    split at htake
    · cases htake
    · next hk =>
      simp only [Bool.or_eq_true, Bool.not_eq_true', not_or, Bool.not_eq_false] at hk
      obtain ⟨⟨hnen, hnma⟩, hports⟩ := hk
      obtain rfl := Option.some.inj htake
      have hr : takeResets b.live.stations[st] t.live.stations[st] = false := by
        have hen' : b.live.stations[st].enabled = true := hen
        simp only [takeResets, hen', hnen, ne_eq, not_true_eq_false, decide_false, Bool.false_or]
        exact Bool.eq_false_iff.mpr hports
      exact ⟨fun _ => hact, fun hn => absurd ((hD st).mpr hr) hn, hnen, hnma⟩
  | commissioning =>
    obtain ⟨hzero, -⟩ := hok
    unfold holdingAfterTake at htake
    dsimp only at htake
    split at htake
    · obtain ⟨st, hfind, rfl⟩ := Option.map_eq_some_iff.mp htake
      have hover := List.find?_some hfind
      simp only [takesOver, Bool.and_eq_true, Bool.or_eq_true, decide_eq_true_eq, Bool.not_eq_true'] at hover
      obtain ⟨⟨⟨hnen, hnma⟩, hprim⟩, hwhy⟩ := hover
      refine ⟨fun hst => ?_, fun _ => ?_, hnen, hnma⟩
      · obtain ⟨hen, hp, hs⟩ := takeResets_eq_false.mp ((hD st).mp hst)
        rcases hwhy with (hwhy | hwhy) | hwhy
        · rw [hen, hnen] at hwhy
          cases hwhy
        · rw [portsDiffer, hp, hs] at hwhy
          simp at hwhy
        · rw [hzero, hwhy]
      · rw [hzero]
        exact congrArg some hprim.symm
    · next hno =>
      obtain rfl := Option.some.inj htake
      exact ⟨hzero, Bool.eq_false_iff.mpr hno⟩

/-- The holder while parts of a Take are left: before the authority unit's part nothing has touched authority or homing. -/
def HolderLeft (b : State) (new : Bank) (l : List TakePart) (s : State) : Prop :=
  FitsLeft b.live new l s ∧ AuthorityOk s
    ∧ (TakePart.authority ∈ l → s.auth = b.auth ∧ s.homing = b.homing
      ∧ ∀ st, Settled b.live new l st ↔ takeResets b.live.stations[st] new.stations[st] = false)
    ∧ (TakePart.authority ∉ l → HolderOn (Settled b.live new l) s)

theorem mem_erase_authority {l : List TakePart} {x : TakePart} (hx : x ≠ .authority) :
    TakePart.authority ∈ l.erase x ↔ TakePart.authority ∈ l := List.mem_erase_of_ne hx.symm

theorem holderOn_congr {D E : Station → Prop} (h : ∀ st, D st ↔ E st) {s : State} (hs : HolderOn D s) : HolderOn E s := by
  rwa [show E = D from funext fun st => propext (h st).symm]

/-- R118: the authority unit's part of a Take. -/
theorem holderOn_authTake {b : State} {D : Station → Prop} {s : State} (hok : HolderOk b) (hs : AuthorityOk s)
    (hauth : s.auth = b.auth) (hhom : s.homing = b.homing)
    (hD : ∀ st, D st ↔ takeResets b.live.stations[st] s.live.stations[st] = false) :
    HolderOn D (authTake b.live s.live b.homing s) := by
  unfold authTake
  split
  · next hn =>
    unfold HolderOn
    rw [hn]
    trivial
  · next h hh =>
    split
    · next h' htake =>
      exact holderOn_taken (t := s.modAuth fun a => { a with holding := some h' }) hok (hauth ▸ hh) htake rfl
        (by rw [State.modAuth_auth, hauth]) hhom hD
    · unfold HolderOn
      rw [loseAuthority_holding hs]
      trivial

/-- R118, R153: the homing controller's part: an authority held through a station that it resets moves with it. -/
theorem holderOn_homingTake {old : Bank} {l : List TakePart} {s : State} (hs : FitsLeft old s.live l s) (ha : AuthorityOk s)
    (hl : TakePart.homing ∈ l) (hh : HolderOn (Settled old s.live l) s) : HolderOn Always (homingTake old s.live s) := by
  obtain ⟨u, hord, hul, hua, hhom⟩ := homingTake_spec old s
  refine hord.holder (authorityOk_of_eq hua ha) (fun st _ => ?_) ?_
  · rw [FitsAt, hhom, State.station, hul]
    split
    · exact homingFits_afterTake _
    · next hr => exact hs.2.2 st ((settled_left hl).mpr (Bool.eq_false_iff.mpr hr))
  · unfold HolderOn at hh ⊢
    rw [hua, hul]
    revert hh
    split
    · exact id
    · exact id
    · next st _ =>
      rintro ⟨hin, hout, hen, hma⟩
      have hstation : u.station st = s.station st := by rw [State.station, hul, State.station]
      rw [hstation]
      refine ⟨fun _ => ?_, fun hn => absurd trivial hn, hen, hma⟩
      rw [hhom]
      split
      · next hr =>
        rw [hout fun hst => absurd ((settled_left hl).mp hst) (by rw [hr]; decide), Homing.afterTake]
        exact (if_pos hen).symm
      · next hr => exact hin ((settled_left hl).mpr (Bool.eq_false_iff.mpr hr))

theorem takeReady_after {l : List TakePart} {x : TakePart} (hx : x ∈ takeReady l) (ha : x.afterAuthority = true) :
    TakePart.authority ∉ l := by
  have := (List.mem_filter.mp hx).2
  simpa [ha] using this

theorem takePart_authorityOk {b : State} {due : Bool} {x : TakePart} {s : State} (hs : AuthorityOk s) :
    AuthorityOk (x.take b due s) := by
  by_cases hx : x = .arbiter
  · subst hx
    have harb : TakePart.take b due .arbiter s = s.modArb (Arbiter.applyTake b.live s.live) := by rw [TakePart.take]
    rw [harb]
    exact authorityOk_of_eq (State.modArb_auth _ _) hs
  · exact (takePart_ordered hx s).auth hs

theorem holderLeft_part {b : State} {new : Bank} {l : List TakePart} {x : TakePart} {s : State} (hok : HolderOk b)
    (hx : x ∈ takeReady l) (hs : HolderLeft b new l s) :
    HolderLeft b new (l.erase x) (x.take b ((l.erase x).contains .homing) s) := by
  obtain ⟨hfits, hauth, hbefore, hafter⟩ := hs
  have hfits' := fitsLeft_part (takeReady_sub hx) hfits
  have hauth' := takePart_authorityOk (b := b) (due := (l.erase x).contains .homing) (x := x) hauth
  have hlive := hfits.2.1
  refine ⟨hfits', hauth', ?_⟩
  by_cases hxa : x = .authority
  · subst hxa
    have hmem : TakePart.authority ∈ l := takeReady_sub hx
    obtain ⟨h1, h2, h3⟩ := hbefore hmem
    subst hlive
    refine ⟨fun h => absurd h hfits.1.not_mem_erase, fun _ => ?_⟩
    exact holderOn_authTake hok hauth h1 h2 fun st => (settled_erase (x := .authority) nofun).trans (h3 st)
  · rw [mem_erase_authority hxa]
    cases hla : x.afterAuthority with
    | false =>
      obtain ⟨e1, e2, e3⟩ := takePart_calm (b := b) (due := (l.erase x).contains .homing) hla hxa s
      have hxh : x ≠ .homing := fun e => by rw [e] at hla; cases hla
      refine ⟨fun h => ?_, fun h => ?_⟩
      · obtain ⟨h1, h2, h3⟩ := hbefore h
        exact ⟨e3.trans h1, e2.trans h2, fun st => (settled_erase hxh).trans (h3 st)⟩
      · exact holderOn_congr (fun st => (settled_erase hxh).symm) (holderOn_of_eq e1 e2 e3 (hafter h))
    | true =>
      have hno := takeReady_after hx hla
      refine ⟨fun h => absurd h hno, fun _ => ?_⟩
      subst hlive
      cases x with
      | homing =>
        refine holderOn_congr (fun st => ⟨fun _ => settled_done hfits.1.not_mem_erase st, fun _ => trivial⟩)
          (holderOn_homingTake hfits hauth (takeReady_sub hx) (hafter hno))
      | port p =>
        exact holderOn_congr (fun st => (settled_erase (x := .port p) nofun).symm)
          (portTake_settled.holder hauth hfits.2.2 (hafter hno))
      | arbiter | cue | lamps | authority | faults => cases hla

theorem holderLeft_start {b s : State} (hh : s.homing = b.homing) (ha : s.auth = b.auth) (hb : HomingOk b)
    (hba : AuthorityOk b) (hok : HolderOk b) :
    HolderLeft b s.live (allTakeParts.filter (TakePart.shows b s)) s := by
  have hsettled : ∀ st, Settled b.live s.live (allTakeParts.filter (TakePart.shows b s)) st
      ↔ takeResets b.live.stations[st] s.live.stations[st] = false := fun st =>
    ⟨settled_start, fun h => by rw [Settled, h, Bool.and_false]⟩
  refine ⟨fitsLeft_start hh hb, authorityOk_of_eq ha hba, fun _ => ⟨ha, hh, hsettled⟩, fun hno => ?_⟩
  have hquiet : authTakeShows b s = false := by
    by_contra hs
    exact hno (List.mem_filter.mpr ⟨by simp [allTakeParts], Bool.of_not_eq_false hs⟩)
  cases hhold : s.auth.holding with
  | none =>
    unfold HolderOn
    rw [hhold]
    trivial
  | some h =>
    simp only [authTakeShows, hhold, ne_eq, decide_eq_false_iff_not, not_not] at hquiet
    exact holderOn_taken hok (ha ▸ hhold) hquiet hhold (congrArg Authority.holder ha) hh hsettled

theorem holderLeft_spend {b : State} {new : Bank} {l : List TakePart} {s : State} (n : Nat) (hs : HolderLeft b new l s) :
    HolderLeft b new l (s.spend n) := by
  have hsp := spend_beside n s
  obtain ⟨h1, h2, h3, h4⟩ := hs
  refine ⟨fitsLeft_spend n h1, authorityOk_of_eq hsp.auth h2, fun hl => ?_, fun hl => ?_⟩
  · rw [hsp.auth, hsp.homing]
    exact h3 hl
  · exact holderOn_of_eq hsp.stays.live hsp.homing hsp.auth (h4 hl)

theorem holderLeft_done {b : State} {new : Bank} {s : State} (hs : HolderLeft b new [] s) : HolderOk s := by
  obtain ⟨-, -, -, h4⟩ := hs
  exact holderOk_always.mpr (holderOn_congr (fun st => ⟨fun _ => trivial, fun _ => settled_done List.not_mem_nil st⟩)
    (h4 List.not_mem_nil))

theorem holderOk_handTake {b s t : State} (ht : t = handTake b s) (hh : s.homing = b.homing) (ha : s.auth = b.auth)
    (hb : HomingOk b) (hba : AuthorityOk b) (hok : HolderOk b) : HolderOk t := by
  have hleft : HolderLeft b s.live [] t := by
    rw [ht]
    unfold handTake
    exact takeParts_rest (I := HolderLeft b s.live) (fun _ _ n => holderLeft_spend n)
      (fun _ _ _ hx => holderLeft_part hok hx) _ _ s rfl (holderLeft_start hh ha hb hba hok)
  exact holderLeft_done hleft

theorem openCompletion_active (s : State) (st : Station) : (openCompletion s).homing[st].active = s.homing[st].active := by
  rw [openCompletion_homing, Fin.getElem_fin, Vector.getElem_map]
  rfl

theorem openCompletion_auth (s : State) :
    (openCompletion s).auth = { s.auth with window := s.auth.window.map (SupWindow.rise s.mgmt.settings.supMax) } := by
  rw [openCompletion]

/-- What keeps the holder port with the holding station. -/
def HolderKept (s : State) : Prop := BanksOk s ∧ HomingOk s ∧ AuthorityOk s ∧ HolderOk s

theorem holder_kept : KeptReads HolderKept where
  reads s t h hs := ⟨banks_of_eq h.live h.edit hs.1, homing_kept.reads s t h hs.2.1, authority_kept.reads s t h hs.2.2.1,
    holderOk_of_eq h.live h.homing h.auth hs.2.2.2⟩
  event s t h hs := ⟨banks_kept.stays s t h.stays hs.1, homing_kept.event s t h hs.2.1, h.auth hs.2.2.1,
    holderOk_always.mpr (h.holder hs.2.2.1 (fun st _ => hs.2.1 st) (holderOk_always.mp hs.2.2.2))⟩
  grant p f s hs := by
    obtain ⟨hb, hh, ha, ho⟩ := hs
    refine ⟨banks_kept.stays _ _ (claim_stays p f s) hb, homing_kept.grant p f s hh, authority_kept.grant p f s ha, ?_⟩
    obtain h | ⟨hm, h | h⟩ := claim_cases p f s
    all_goals rw [h]
    · exact ho
    · exact holderOk_grant hb.1 hh hm
    · have hlost := loseAuthority_orderly (D := Always) .forced s
      have hm' : (loseAuthority .forced s).isMgmt p = true := by
        rw [isMgmt_iff] at hm ⊢
        unfold State.station at hm ⊢
        rwa [hlost.stays.live, loseAuthority_homing]
      exact holderOk_grant (hlost.stays.live ▸ hb.1) (homing_kept.event _ _ hlost hh) hm'
  powerOn s hs := ⟨banks_kept.powerOn s hs.1, homing_kept.powerOn s hs.2.1, authority_kept.powerOn s hs.2.2.1,
    holderOk_none rfl⟩
  lineReset s hs := ⟨banks_kept.lineReset s hs.1, homing_kept.lineReset s hs.2.1, authority_kept.lineReset s hs.2.2.1,
    holderOk_none rfl⟩
  softReset s hs := ⟨banks_kept.softReset s hs.1, homing_kept.softReset s hs.2.1, authority_kept.softReset s hs.2.2.1,
    holderOk_none rfl⟩
  opens s hs := by
    refine ⟨banks_kept.opens s hs.1, homing_kept.opens s hs.2.1, authority_kept.opens s hs.2.2.1, ?_⟩
    exact holderOk_congr (openCompletion_live s) (openCompletion_active s) (by rw [openCompletion_auth])
      (by rw [openCompletion_auth]) hs.2.2.2
  copyTake o s hs := by
    have hbanks := banks_kept.copyTake o hs.1
    have hhoming := homing_kept.copyTake o s hs.2.1
    have hauth := authority_kept.copyTake o s hs.2.2.1
    obtain ⟨t, ht, -, hh, ha⟩ := copyTake_start o s
    generalize copyTake o s = u at ht hbanks hhoming hauth ⊢
    exact ⟨hbanks, hhoming, hauth, holderOk_handTake ht hh ha hs.2.1 hs.2.2.1 hs.2.2.2⟩
  entry t y i bs s hs := by
    obtain ⟨h1, h2, h3, -⟩ := writeEntry_aside t y i bs s
    exact ⟨banks_kept.entry t y i bs s hs.1, homing_kept.entry t y i bs s hs.2.1, authority_kept.entry t y i bs s hs.2.2.1,
      holderOk_of_eq h1 h2 h3 hs.2.2.2⟩
  revert s hs := ⟨banks_kept.revert s hs.1, hs.2⟩

/-- Settles O58. -/
theorem homingFollowsTheRecords : Obligations.HomingFollowsTheRecords :=
  ⟨fun _ _ hs e => homing_kept.core.step (fun _ _ h => h) hs e,
    fun _ _ hs e => (holder_kept.core.step (fun _ _ h => h) hs e).2.2.2⟩

end Sys2Proof.Machine
end

section
/-! The talk lists with the standings and the keys (R2, R4; `Arbiter.Agrees`): each operation of the arbiter replaces lists
and sets standings; in between, the standings of the entries that moved are out of order (`Arbiter.AgreesBut`). -/

namespace Sys2Proof.Machine

/-! Standings and lists after an update. -/

theorem hold_eq {x y : Hold} (hs : x.st = y.st) (hk : x.key = y.key) : x = y := by
  cases x
  cases y
  exact congr (congrArg Hold.mk hs) hk

theorem Arbiter.setTalk_get (a : Arbiter) (st x : Station) (k y : Key) (v : Standing) :
    (a.setTalk st k v).talk[x][y] = if st = x ∧ k = y then v else a.talk[x][y] := by
  rw [Arbiter.setTalk]
  dsimp only
  rw [upd_get]
  by_cases hx : st = x
  · subst hx
    rw [if_pos rfl]
    simp only [Fin.getElem_fin, Vector.getElem_set, Fin.val_inj, true_and]
  · rw [if_neg hx, if_neg fun h => hx h.1]

theorem Arbiter.setTalkAll_lists (a : Arbiter) (l : List Hold) (v : Standing) :
    (a.setTalkAll l v).holders = a.holders ∧ (a.setTalkAll l v).waits = a.waits := by
  unfold Arbiter.setTalkAll
  induction l generalizing a with
  | nil => exact ⟨rfl, rfl⟩
  | cons h l ih => exact ih (a.setTalk h.st h.key v)

theorem Arbiter.setHolders_other (a : Arbiter) {n m : Net} (h : m ≠ n) (l : List Hold) :
    (a.setHolders n l).holders[m] = a.holders[m] := by
  simp only [Arbiter.setHolders, Fin.getElem_fin]
  exact Vector.getElem_set_ne _ _ fun e => h (Fin.ext e.symm)

theorem Arbiter.setWaits_other (a : Arbiter) {n m : Net} (h : m ≠ n) (l : List Hold) :
    (a.setWaits n l).waits[m] = a.waits[m] := by
  simp only [Arbiter.setWaits, Fin.getElem_fin]
  exact Vector.getElem_set_ne _ _ fun e => h (Fin.ext e.symm)

/-- Both lists of one net replaced. -/
def Arbiter.relist (a : Arbiter) (n : Net) (H W : List Hold) : Arbiter := (a.setHolders n H).setWaits n W

theorem Arbiter.relist_self (a : Arbiter) (n : Net) (H W : List Hold) :
    (a.relist n H W).holders[n] = H ∧ (a.relist n H W).waits[n] = W :=
  ⟨Arbiter.setHolders_get a n H, Arbiter.setWaits_get _ n W⟩

theorem Arbiter.relist_other (a : Arbiter) {n m : Net} (h : m ≠ n) (H W : List Hold) :
    (a.relist n H W).holders[m] = a.holders[m] ∧ (a.relist n H W).waits[m] = a.waits[m] :=
  ⟨Arbiter.setHolders_other a h H, Arbiter.setWaits_other _ h W⟩

theorem Arbiter.relist_talk (a : Arbiter) (n : Net) (H W : List Hold) : (a.relist n H W).talk = a.talk := rfl

theorem Arbiter.setHolders_same (a : Arbiter) (n : Net) : a.setHolders n a.holders[n] = a := by
  simp [Arbiter.setHolders]

theorem Arbiter.setWaits_same (a : Arbiter) (n : Net) : a.setWaits n a.waits[n] = a := by
  simp [Arbiter.setWaits]

theorem Arbiter.setHolders_relist (a : Arbiter) (n : Net) (H : List Hold) : a.setHolders n H = a.relist n H a.waits[n] := by
  rw [Arbiter.relist, show a.waits[n] = (a.setHolders n H).waits[n] from rfl, Arbiter.setWaits_same]

theorem Arbiter.setWaits_relist (a : Arbiter) (n : Net) (W : List Hold) : a.setWaits n W = a.relist n a.holders[n] W := by
  rw [Arbiter.relist, Arbiter.setHolders_same]

theorem Arbiter.mem_entries {a : Arbiter} {n : Net} {h : Hold} : h ∈ a.entries n ↔ h ∈ a.holders[n] ∨ h ∈ a.waits[n] :=
  List.mem_append

/-! The agreement, but for some standings. -/

/-- The key's standing is LIVE exactly while a holder list has the entry, and WAIT exactly while a wait queue has. -/
def Arbiter.StandsFor (a : Arbiter) (h : Hold) : Prop :=
  (a.talk[h.st][h.key] = .live ↔ ∃ n : Net, h ∈ a.holders[n]) ∧ (a.talk[h.st][h.key] = .wait ↔ ∃ n : Net, h ∈ a.waits[n])

/-- The entries of each net name different stations, stand where their cells carry their keys, and on one net alone. -/
structure Arbiter.Placed (b : Bank) (a : Arbiter) : Prop where
  apart : ∀ n : Net, ((a.entries n).map (·.st)).Nodup
  keyed : ∀ (n : Net) (h : Hold), h ∈ a.entries n → (b.cell h.st n).key = some h.key
  once : ∀ (n m : Net) (h : Hold), h ∈ a.entries n → h ∈ a.entries m → n = m

/-- `Agrees` but for the standings of the entries `X`. -/
structure Arbiter.AgreesBut (X : Hold → Prop) (b : Bank) (a : Arbiter) : Prop extends Arbiter.Placed b a where
  stand : ∀ h : Hold, ¬ X h → a.StandsFor h

theorem Arbiter.agrees_iff {b : Bank} {a : Arbiter} : a.Agrees b ↔ a.AgreesBut (fun _ => False) b :=
  ⟨fun ⟨h1, h2, h3⟩ => ⟨⟨fun n => (h1 n).1, fun n => (h1 n).2, h2⟩, fun h _ => h3 h.st h.key⟩,
    fun h => ⟨fun n => ⟨h.apart n, h.keyed n⟩, h.once, fun st k => h.stand ⟨st, k⟩ not_false⟩⟩

namespace Arbiter

variable {X Y : Hold → Prop} {b : Bank} {a : Arbiter}

theorem AgreesBut.weaken (h : a.AgreesBut X b) (hXY : ∀ x, X x → Y x) : a.AgreesBut Y b :=
  ⟨h.toPlaced, fun x hx => h.stand x fun hX => hx (hXY x hX)⟩

theorem AgreesBut.agrees (h : a.AgreesBut X b) (hX : ∀ x, ¬ X x) : a.Agrees b :=
  agrees_iff.mpr (h.weaken fun x hx => absurd hx (hX x))

/-- The lists and the standings are all that agree. -/
theorem AgreesBut.of_eq {a' : Arbiter} (hh : a'.holders = a.holders) (hw : a'.waits = a.waits) (ht : a'.talk = a.talk)
    (h : a.AgreesBut X b) : a'.AgreesBut X b := by
  refine ⟨⟨fun n => ?_, fun n => ?_, fun n m => ?_⟩, fun x hx => ?_⟩
  · rw [entries, hh, hw]; exact h.apart n
  · rw [entries, hh, hw]; exact h.keyed n
  · rw [entries, entries, hh, hw]; exact h.once n m
  · rw [StandsFor, hh, hw, ht]; exact h.stand x hx

/-- A standing set as the lists have it. -/
theorem AgreesBut.setTalk (h : a.AgreesBut X b) {x : Hold} {v : Standing} (hl : v = .live ↔ ∃ n : Net, x ∈ a.holders[n])
    (hw : v = .wait ↔ ∃ n : Net, x ∈ a.waits[n]) : (a.setTalk x.st x.key v).AgreesBut (fun y => X y ∧ y ≠ x) b := by
  refine ⟨⟨h.apart, h.keyed, h.once⟩, fun y hy => ?_⟩
  unfold StandsFor
  rw [setTalk_get, setTalk_holders, setTalk_waits]
  by_cases hyx : x.st = y.st ∧ x.key = y.key
  · obtain rfl := hold_eq hyx.1 hyx.2
    rw [if_pos hyx]
    exact ⟨hl, hw⟩
  · rw [if_neg hyx]
    exact h.stand y fun hX => hy ⟨hX, fun e => hyx (by rw [e]; exact ⟨rfl, rfl⟩)⟩

/-- A standing other than LIVE and WAIT set for a key that no list has. -/
theorem AgreesBut.setTalk_out (h : a.AgreesBut X b) {x : Hold} {v : Standing} (hv : v ≠ .live ∧ v ≠ .wait)
    (hx : ∀ n : Net, x ∉ a.entries n) : (a.setTalk x.st x.key v).AgreesBut (fun y => X y ∧ y ≠ x) b := by
  refine h.setTalk ⟨fun e => absurd e hv.1, fun ⟨n, hn⟩ => ?_⟩ ⟨fun e => absurd e hv.2, fun ⟨n, hn⟩ => ?_⟩
  · exact absurd (mem_entries.mpr (.inl hn)) (hx n)
  · exact absurd (mem_entries.mpr (.inr hn)) (hx n)

/-- No entry stands among the holders and the waiters of a net. -/
theorem Placed.disjoint (h : a.Placed b) {n : Net} {x : Hold} (hx : x ∈ a.holders[n]) : x ∉ a.waits[n] := by
  have := h.apart n
  rw [entries, List.map_append, List.nodup_append] at this
  exact fun hw => this.2.2 _ (List.mem_map_of_mem hx) _ (List.mem_map_of_mem hw) rfl

theorem Placed.holder_not_waits (h : a.Placed b) {n : Net} {x : Hold} (hx : x ∈ a.holders[n]) (m : Net) : x ∉ a.waits[m] := by
  intro hm
  obtain rfl := h.once n m x (mem_entries.mpr (.inl hx)) (mem_entries.mpr (.inr hm))
  exact h.disjoint hx hm

theorem AgreesBut.setTalk_live (h : a.AgreesBut X b) {x : Hold} {n : Net} (hx : x ∈ a.holders[n]) :
    (a.setTalk x.st x.key .live).AgreesBut (fun y => X y ∧ y ≠ x) b :=
  h.setTalk ⟨fun _ => ⟨n, hx⟩, fun _ => rfl⟩ ⟨nofun, fun ⟨m, hm⟩ => absurd hm (h.holder_not_waits hx m)⟩

theorem AgreesBut.setTalk_wait (h : a.AgreesBut X b) {x : Hold} {n : Net} (hx : x ∈ a.waits[n]) :
    (a.setTalk x.st x.key .wait).AgreesBut (fun y => X y ∧ y ≠ x) b :=
  h.setTalk ⟨nofun, fun ⟨m, hm⟩ => absurd hx (h.holder_not_waits hm n)⟩ ⟨fun _ => ⟨n, hx⟩, fun _ => rfl⟩

/-- The standings of several keys set. -/
theorem AgreesBut.setTalkAll {l : List Hold} {v : Standing} (h : a.AgreesBut X b)
    (hl : ∀ x ∈ l, v = .live ↔ ∃ n : Net, x ∈ a.holders[n]) (hw : ∀ x ∈ l, v = .wait ↔ ∃ n : Net, x ∈ a.waits[n]) :
    (a.setTalkAll l v).AgreesBut (fun y => X y ∧ y ∉ l) b := by
  unfold Arbiter.setTalkAll
  induction l generalizing a X with
  | nil => exact h.weaken fun x hx => ⟨hx, List.not_mem_nil⟩
  | cons x l ih =>
    have hx := h.setTalk (hl x List.mem_cons_self) (hw x List.mem_cons_self)
    exact (ih hx (fun y hy => hl y (List.mem_cons_of_mem x hy)) fun y hy => hw y (List.mem_cons_of_mem x hy)).weaken
      fun y ⟨⟨hX, hne⟩, hl⟩ => ⟨hX, fun hm => (List.mem_cons.mp hm).elim hne hl⟩

/-- Every list cut down. -/
theorem AgreesBut.shrink {a' : Arbiter} (h : a.AgreesBut X b) (ht : a'.talk = a.talk)
    (hh : ∀ n : Net, a'.holders[n].Sublist a.holders[n]) (hw : ∀ n : Net, a'.waits[n].Sublist a.waits[n])
    (hY : ∀ x, ¬ Y x → ¬ X x ∧ ∀ n : Net, (x ∈ a.holders[n] → x ∈ a'.holders[n]) ∧ (x ∈ a.waits[n] → x ∈ a'.waits[n])) :
    a'.AgreesBut Y b := by
  have hsub : ∀ n, (a'.entries n).Sublist (a.entries n) := fun n => (hh n).append (hw n)
  refine ⟨⟨fun n => (h.apart n).sublist ((hsub n).map _), fun n x hx => h.keyed n x ((hsub n).subset hx),
    fun n m x hn hm => h.once n m x ((hsub n).subset hn) ((hsub m).subset hm)⟩, fun x hx => ?_⟩
  obtain ⟨hX, hkeep⟩ := hY x hx
  obtain ⟨h1, h2⟩ := h.stand x hX
  unfold StandsFor
  rw [ht]
  exact ⟨h1.trans ⟨fun ⟨n, hn⟩ => ⟨n, (hkeep n).1 hn⟩, fun ⟨n, hn⟩ => ⟨n, (hh n).subset hn⟩⟩,
    h2.trans ⟨fun ⟨n, hn⟩ => ⟨n, (hkeep n).2 hn⟩, fun ⟨n, hn⟩ => ⟨n, (hw n).subset hn⟩⟩⟩

theorem nodup_of_subperm {l l' : List Hold} (h : l.Subperm l') (hn : (l'.map (·.st)).Nodup) : (l.map (·.st)).Nodup := by
  obtain ⟨l₀, hperm, hsub⟩ := h
  exact (hperm.map _).nodup_iff.mp (hn.sublist (hsub.map _))

/-- The lists of one net replaced by a rearrangement of some of their entries and of new ones that no list has. -/
theorem AgreesBut.relist {n : Net} {H W N : List Hold} (h : a.AgreesBut X b) (hsub : (H ++ W).Subperm (N ++ a.entries n))
    (hN : ∀ x ∈ N, (b.cell x.st n).key = some x.key ∧ ∀ m, x ∉ a.entries m)
    (hapart : ((N ++ a.entries n).map (·.st)).Nodup)
    (hY : ∀ x, ¬ Y x → ¬ X x ∧ (x ∈ H ↔ x ∈ a.holders[n]) ∧ (x ∈ W ↔ x ∈ a.waits[n])) :
    (a.relist n H W).AgreesBut Y b := by
  obtain ⟨hself, hself'⟩ := a.relist_self n H W
  have hother : ∀ {m : Net}, m ≠ n → (a.relist n H W).entries m = a.entries m := fun hm => by
    obtain ⟨e1, e2⟩ := a.relist_other hm H W
    rw [entries, entries, e1, e2]
  have hn : (a.relist n H W).entries n = H ++ W := by rw [entries, hself, hself']
  have hmem : ∀ x ∈ H ++ W, x ∈ N ∨ x ∈ a.entries n := fun x hx => List.mem_append.mp (hsub.subset hx)
  refine ⟨⟨fun m => ?_, fun m x hx => ?_, fun m k x hm hk => ?_⟩, fun x hx => ?_⟩
  · by_cases hm : m = n
    · subst hm
      rw [hn]
      exact nodup_of_subperm hsub hapart
    · rw [hother hm]
      exact h.apart m
  · by_cases hm : m = n
    · subst hm
      rw [hn] at hx
      exact (hmem x hx).elim (fun e => (hN x e).1) (h.keyed m x)
    · rw [hother hm] at hx
      exact h.keyed m x hx
  · have hone : ∀ {m k : Net}, m = n → k ≠ n → x ∈ (a.relist n H W).entries m → x ∈ (a.relist n H W).entries k → m = k := by
      intro m k hm hkn hxm hxk
      subst hm
      rw [hn] at hxm
      rw [hother hkn] at hxk
      exact (hmem x hxm).elim (fun e => absurd hxk ((hN x e).2 k)) fun e => h.once m k x e hxk
    by_cases hmn : m = n
    · by_cases hkn : k = n
      · rw [hmn, hkn]
      · exact hone hmn hkn hm hk
    · by_cases hkn : k = n
      · exact (hone hkn hmn hk hm).symm
      · rw [hother hmn] at hm
        rw [hother hkn] at hk
        exact h.once m k x hm hk
  · obtain ⟨hX, hH, hW⟩ := hY x hx
    obtain ⟨h1, h2⟩ := h.stand x hX
    have hl : ∀ m : Net, x ∈ (a.relist n H W).holders[m] ↔ x ∈ a.holders[m] := fun m => by
      by_cases hm : m = n
      · subst hm
        rw [hself, hH]
      · rw [(a.relist_other hm H W).1]
    have hw : ∀ m : Net, x ∈ (a.relist n H W).waits[m] ↔ x ∈ a.waits[m] := fun m => by
      by_cases hm : m = n
      · subst hm
        rw [hself', hW]
      · rw [(a.relist_other hm H W).2]
    unfold StandsFor
    simp only [relist_talk, hl, hw]
    exact ⟨h1, h2⟩

/-- The lists of one net rearranged. -/
theorem AgreesBut.relist_old {n : Net} {H W : List Hold} (h : a.AgreesBut X b) (hsub : (H ++ W).Subperm (a.entries n))
    (hY : ∀ x, ¬ Y x → ¬ X x ∧ (x ∈ H ↔ x ∈ a.holders[n]) ∧ (x ∈ W ↔ x ∈ a.waits[n])) :
    (a.relist n H W).AgreesBut Y b :=
  h.relist (N := []) hsub (fun x hx => absurd hx List.not_mem_nil) (h.apart n) hY

end Arbiter

/-! Queues by class (R3). -/

theorem insertBack_perm (b : Bank) (h : Hold) (q : List Hold) : (insertBack b h q).Perm (h :: q) := by
  refine List.perm_middle.trans (.cons h ?_)
  rw [List.takeWhile_append_dropWhile]

theorem insertFront_perm (b : Bank) (h : Hold) (q : List Hold) : (insertFront b h q).Perm (h :: q) := by
  refine List.perm_middle.trans (.cons h ?_)
  rw [List.takeWhile_append_dropWhile]

theorem sortByClass_perm (b : Bank) (q : List Hold) : (sortByClass b q).Perm q := by
  induction q with
  | nil => exact .refl _
  | cons h q ih => exact (insertFront_perm b h _).trans (ih.cons h)

theorem foldr_insertFront_perm (b : Bank) (l q : List Hold) : (l.foldr (insertFront b) q).Perm (l ++ q) := by
  induction l with
  | nil => exact .refl _
  | cons h l ih => exact (insertFront_perm b h _).trans (ih.cons h)

namespace Arbiter

variable {X : Hold → Prop} {b b' : Bank} {a : Arbiter}

/-! Refilling (R9). -/

/-- A waiter at the head of its queue takes a free slot. -/
theorem AgreesBut.promote {n : Net} {w : Hold} {rest : List Hold} (h : a.AgreesBut X b) (hw : a.waits[n] = w :: rest) :
    (((a.setWaits n rest).setHolders n (a.holders[n] ++ [w])).setTalk w.st w.key .live).AgreesBut X b
      ∧ ∀ m x, x ∈ (((a.setWaits n rest).setHolders n (a.holders[n] ++ [w])).setTalk w.st w.key .live).entries m
        ↔ x ∈ a.entries m := by
  have heq : (a.setWaits n rest).setHolders n (a.holders[n] ++ [w]) = a.relist n (a.holders[n] ++ [w]) rest := rfl
  rw [heq]
  have hperm : (a.holders[n] ++ [w] ++ rest) = a.entries n := by
    rw [entries, hw, List.append_assoc, List.singleton_append]
  obtain ⟨hself, hself'⟩ := a.relist_self n (a.holders[n] ++ [w]) rest
  have hlists : (a.relist n (a.holders[n] ++ [w]) rest).AgreesBut (fun y => X y ∨ y = w) b := by
    refine h.relist_old (hperm ▸ .refl _) fun x hx => ?_
    obtain ⟨hX, hxw⟩ := not_or.mp hx
    refine ⟨hX, ?_, ?_⟩
    · simp [hxw]
    · rw [hw]
      simp [hxw]
  refine ⟨(hlists.setTalk_live (n := n) (by rw [hself]; simp)).weaken fun x ⟨hx, hne⟩ => hx.resolve_right hne, fun m x => ?_⟩
  rw [entries, setTalk_holders, setTalk_waits]
  by_cases hm : m = n
  · subst hm
    rw [hself, hself', hperm]
  · obtain ⟨e1, e2⟩ := a.relist_other hm (a.holders[n] ++ [w]) rest
    rw [e1, e2, entries]

theorem AgreesBut.refillFuel (n : Net) (k : Nat) (h : a.AgreesBut X b) :
    (Arbiter.refillFuel b' n k a).AgreesBut X b ∧ ∀ m x, x ∈ (Arbiter.refillFuel b' n k a).entries m ↔ x ∈ a.entries m := by
  induction k generalizing a with
  | zero => exact ⟨h, fun _ _ => .rfl⟩
  | succ k ih =>
    unfold Arbiter.refillFuel
    split
    · next w rest hw =>
      split
      · obtain ⟨hp, hmem⟩ := h.promote hw
        obtain ⟨hr, hmem'⟩ := ih hp
        exact ⟨hr, fun m x => (hmem' m x).trans (hmem m x)⟩
      · exact ⟨h, fun _ _ => .rfl⟩
    · exact ⟨h, fun _ _ => .rfl⟩

theorem AgreesBut.refillAll (ns : List Net) (h : a.AgreesBut X b) :
    (a.refillAll b' ns).AgreesBut X b ∧ ∀ m x, x ∈ (a.refillAll b' ns).entries m ↔ x ∈ a.entries m := by
  unfold Arbiter.refillAll
  induction ns generalizing a with
  | nil => exact ⟨h, fun _ _ => .rfl⟩
  | cons n ns ih =>
    obtain ⟨hr, hmem⟩ := h.refillFuel (b' := b') n a.waits[n].length
    obtain ⟨hr', hmem'⟩ := ih hr
    exact ⟨hr', fun m x => (hmem' m x).trans (hmem m x)⟩

/-! Release and withdrawal (R10, R11). -/

theorem not_entry_of_off {x : Hold} (h : a.Agrees b) (hl : a.talk[x.st][x.key] ≠ .live) (hw : a.talk[x.st][x.key] ≠ .wait)
    (n : Net) : x ∉ a.entries n := by
  obtain ⟨h1, h2⟩ := (agrees_iff.mp h).stand x not_false
  intro hx
  rcases mem_entries.mp hx with hx | hx
  · exact hl (h1.mpr ⟨n, hx⟩)
  · exact hw (h2.mpr ⟨n, hx⟩)

/-- A key that no list has takes the standing OFF, or another that is neither LIVE nor WAIT. -/
theorem AgreesBut.clear {x : Hold} {v : Standing} (h : a.AgreesBut (· = x) b) (hv : v ≠ .live ∧ v ≠ .wait)
    (hx : ∀ n : Net, x ∉ a.entries n) : (a.setTalk x.st x.key v).Agrees b :=
  (h.setTalk_out hv hx).agrees fun _ ⟨h1, h2⟩ => h2 h1

theorem mem_erase_iff {l : List Hold} {x : Hold} (hl : (l.map (·.st)).Nodup) : x ∉ l.erase x :=
  fun h => ((List.Nodup.of_map _ hl).mem_erase_iff.mp h).1 rfl

theorem Agrees.talkRelease (st : Station) (k : Key) (h : a.Agrees b) : (a.talkRelease b' st k).Agrees b := by
  have hb := agrees_iff.mp h
  have hsub : ∀ n : Net, (a.holders[n].map (·.st)).Nodup ∧ (a.waits[n].map (·.st)).Nodup := fun n => by
    have := hb.apart n
    rw [entries, List.map_append, List.nodup_append] at this
    exact ⟨this.1, this.2.1⟩
  have hout : (a.talk[st][k] ≠ .live) → (a.talk[st][k] ≠ .wait) → (a.setTalk st k .off).Agrees b := fun hl hw =>
    AgreesBut.clear (x := ⟨st, k⟩) (hb.weaken fun _ h => h.elim) ⟨nofun, nofun⟩ (not_entry_of_off h hl hw)
  unfold Arbiter.talkRelease
  dsimp only
  cases hs : a.talk[st][k] with
  | live =>
    obtain ⟨n, hn⟩ := (hb.stand ⟨st, k⟩ not_false).1.mp hs
    have herase : (a.eraseHolder ⟨st, k⟩).AgreesBut (· = ⟨st, k⟩) b := by
      refine hb.shrink rfl (fun m => ?_) (fun m => .refl _) fun x hx => ⟨not_false, fun m => ⟨fun hm => ?_, id⟩⟩
      · simp only [eraseHolder, Fin.getElem_fin, Vector.getElem_map]
        exact List.erase_sublist
      · simp only [eraseHolder, Fin.getElem_fin, Vector.getElem_map]
        exact (List.mem_erase_of_ne hx).mpr hm
    have hnone : ∀ m, (⟨st, k⟩ : Hold) ∉ (a.eraseHolder ⟨st, k⟩).entries m := by
      intro m hm
      rcases mem_entries.mp hm with hm | hm
      · simp only [eraseHolder, Fin.getElem_fin, Vector.getElem_map] at hm
        exact mem_erase_iff (hsub m).1 hm
      · exact hb.holder_not_waits hn m hm
    obtain ⟨hr, hmem⟩ := herase.refillAll (b' := b') (a.netsHeld (· == ⟨st, k⟩))
    exact hr.clear ⟨nofun, nofun⟩ fun m hm => hnone m ((hmem m _).mp hm)
  | wait =>
    obtain ⟨n, hn⟩ := (hb.stand ⟨st, k⟩ not_false).2.mp hs
    have herase : (a.eraseWaiter ⟨st, k⟩).AgreesBut (· = ⟨st, k⟩) b := by
      refine hb.shrink rfl (fun m => .refl _) (fun m => ?_) fun x hx => ⟨not_false, fun m => ⟨id, fun hm => ?_⟩⟩
      · simp only [eraseWaiter, Fin.getElem_fin, Vector.getElem_map]
        exact List.erase_sublist
      · simp only [eraseWaiter, Fin.getElem_fin, Vector.getElem_map]
        exact (List.mem_erase_of_ne hx).mpr hm
    refine herase.clear ⟨nofun, nofun⟩ fun m hm => ?_
    rcases mem_entries.mp hm with hm | hm
    · exact hb.holder_not_waits hm n hn
    · simp only [eraseWaiter, Fin.getElem_fin, Vector.getElem_map] at hm
      exact mem_erase_iff (hsub m).2 hm
  | off => exact hout (by rw [hs]; nofun) (by rw [hs]; nofun)
  | refused => exact hout (by rw [hs]; nofun) (by rw [hs]; nofun)
  | muted => exact hout (by rw [hs]; nofun) (by rw [hs]; nofun)
  | dropped => exact hout (by rw [hs]; nofun) (by rw [hs]; nofun)

theorem withdrawStandings_get (a : Arbiter) (st x : Station) (k : Key) (c : WithdrawCause) :
    (a.withdrawStandings st c).talk[x][k]
      = if st = x then (if a.talk[x][k] = .off then .off else c.standing) else a.talk[x][k] := by
  rw [withdrawStandings]
  dsimp only
  rw [upd_get]
  split
  · next h =>
    subst h
    simp only [Fin.getElem_fin, Vector.getElem_map]
  · rfl

theorem standing_out (c : WithdrawCause) : c.standing ≠ .live ∧ c.standing ≠ .wait := by cases c <;> exact ⟨nofun, nofun⟩

theorem purge_mem {st : Station} {n : Net} {x : Hold} :
    (x ∈ (a.purge st).holders[n] ↔ x ∈ a.holders[n] ∧ x.st ≠ st) ∧ (x ∈ (a.purge st).waits[n] ↔ x ∈ a.waits[n] ∧ x.st ≠ st) := by
  constructor <;> simp [purge]

theorem Agrees.withdraw (st : Station) (c : WithdrawCause) (h : a.Agrees b) : (a.withdraw b' st c).Agrees b := by
  have hpurge : (a.purge st).AgreesBut (·.st = st) b := by
    refine (agrees_iff.mp h).shrink rfl (fun n => ?_) (fun n => ?_) fun x hx => ⟨not_false, fun n =>
      ⟨fun hm => purge_mem.1.mpr ⟨hm, hx⟩, fun hm => purge_mem.2.mpr ⟨hm, hx⟩⟩⟩
    · simp only [purge, Fin.getElem_fin, Vector.getElem_map]
      exact List.filter_sublist
    · simp only [purge, Fin.getElem_fin, Vector.getElem_map]
      exact List.filter_sublist
  have hnone : ∀ m (x : Hold), x.st = st → x ∉ (a.purge st).entries m := fun m x hx hm =>
    (mem_entries.mp hm).elim (fun hm => (purge_mem.1.mp hm).2 hx) fun hm => (purge_mem.2.mp hm).2 hx
  obtain ⟨hr, hmem⟩ := hpurge.refillAll (b' := b') (a.netsHeld fun h => h.st == st)
  unfold Arbiter.withdraw
  dsimp only
  generalize (a.purge st).refillAll b' (a.netsHeld fun h => h.st == st) = a1 at hr hmem ⊢
  have hfree : (a1.freeAnnounce st).AgreesBut (·.st = st) b := by
    unfold Arbiter.freeAnnounce
    split
    · exact AgreesBut.of_eq (a := a1) rfl rfl rfl hr
    · exact hr
  have hmem' : ∀ m (x : Hold), x.st = st → x ∉ (a1.freeAnnounce st).entries m := by
    intro m x hx hm
    have : (a1.freeAnnounce st).entries m = a1.entries m := by
      unfold Arbiter.freeAnnounce
      split <;> rfl
    rw [this] at hm
    exact hnone m x hx ((hmem m x).mp hm)
  generalize a1.freeAnnounce st = a2 at hfree hmem' ⊢
  have hstand : (a2.withdrawStandings st c).Agrees b := by
    refine agrees_iff.mpr ⟨⟨hfree.apart, hfree.keyed, hfree.once⟩, fun x _ => ?_⟩
    unfold StandsFor
    rw [withdrawStandings_get]
    by_cases hx : st = x.st
    · rw [if_pos hx]
      have hv : ∀ v : Standing, v = (if a2.talk[x.st][x.key] = .off then .off else c.standing) → v ≠ .live ∧ v ≠ .wait := by
        rintro v rfl
        split
        · exact ⟨nofun, nofun⟩
        · exact standing_out c
      obtain ⟨hl, hw⟩ := hv _ rfl
      exact ⟨⟨fun e => absurd e hl, fun ⟨n, hn⟩ => absurd (mem_entries.mpr (.inl hn)) (hmem' n x hx.symm)⟩,
        ⟨fun e => absurd e hw, fun ⟨n, hn⟩ => absurd (mem_entries.mpr (.inr hn)) (hmem' n x hx.symm)⟩⟩
    · rw [if_neg hx]
      exact hfree.stand x fun e => hx e.symm
  have hcalls : ∀ p, ((a2.withdrawStandings st c).endCalls b' st p).Agrees b := fun p =>
    agrees_iff.mpr ((agrees_iff.mp hstand).of_eq (by rw [endCalls]) (by rw [endCalls]) (by rw [endCalls]))
  cases c with
  | mute => exact hstand
  | isolated => exact hcalls _
  | take => exact hcalls _

/-! Presses (R6 to R8). -/

/-- A press whose key stands in no list, on the net whose cell carries the key: no entry of the net names its station. -/
theorem press_apart {h : Hold} {n : Net} (ha : a.Agrees b) (hkey : (b.cell h.st n).key = some h.key)
    (hout : ∀ m, h ∉ a.entries m) : (([h] ++ a.entries n).map (·.st)).Nodup := by
  have hb := agrees_iff.mp ha
  rw [List.singleton_append, List.map_cons, List.nodup_cons]
  refine ⟨fun hm => ?_, hb.apart n⟩
  obtain ⟨x, hx, hst⟩ := List.mem_map.mp hm
  have hkx := hb.keyed n x hx
  rw [hst, hkey] at hkx
  obtain rfl := hold_eq hst (Option.some.inj hkx).symm
  exact hout n hx

theorem setTalk_relist (n : Net) (H W : List Hold) (st : Station) (k : Key) (v : Standing) :
    (a.setTalk st k v).relist n H W = (a.relist n H W).setTalk st k v := rfl

theorem relist_mem_holders {n : Net} {H W : List Hold} {x : Hold} (h : x ∈ H) : x ∈ (a.relist n H W).holders[n] := by
  rwa [(a.relist_self n H W).1]

theorem relist_mem_waits {n : Net} {H W : List Hold} {x : Hold} (h : x ∈ W) : x ∈ (a.relist n H W).waits[n] := by
  rwa [(a.relist_self n H W).2]

/-- A full queue without its last waiter. -/
theorem waits_concat {n : Net} (h : ¬ a.waits[n].length < 8) : ∃ q w, a.waits[n] = q ++ [w] ∧ 7 ≤ q.length := by
  obtain hnil | ⟨q, w, hq⟩ := List.eq_nil_or_concat' a.waits[n]
  · rw [hnil] at h
    exact absurd (by decide) h
  · refine ⟨q, w, hq, ?_⟩
    rw [hq, List.length_append, List.length_singleton] at h
    omega

/-- An entry that left the lists of its net is in no list. -/
theorem Placed.gone {n : Net} {H W : List Hold} {w : Hold} (h : a.Placed b) (hw : w ∈ a.entries n) (hH : w ∉ H)
    (hW : w ∉ W) (m : Net) : w ∉ (a.relist n H W).entries m := by
  intro hm
  by_cases hmn : m = n
  · subst hmn
    rw [entries, (a.relist_self m H W).1, (a.relist_self m H W).2] at hm
    exact (List.mem_append.mp hm).elim hH hW
  · rw [entries, (a.relist_other hmn H W).1, (a.relist_other hmn H W).2] at hm
    exact hmn (h.once m n w hm hw)

theorem Agrees.joinQueue {n : Net} {h : Hold} (ha : a.Agrees b) (hkey : (b.cell h.st n).key = some h.key)
    (hout : ∀ m, h ∉ a.entries m) : (a.joinQueue b' n h).Agrees b := by
  have hb := agrees_iff.mp ha
  have hapart := press_apart ha hkey hout
  have hnew : ∀ x ∈ [h], (b.cell x.st n).key = some x.key ∧ ∀ m, x ∉ a.entries m := by
    intro x hx
    obtain rfl := List.mem_singleton.mp hx
    exact ⟨hkey, hout⟩
  by_cases hroom : a.waits[n].length < 8
  · rw [joinQueue_of_room hroom, setWaits_relist, setTalk_holders, setTalk_relist]
    have hlists : (a.relist n a.holders[n] (insertBack b' h a.waits[n])).AgreesBut (· = h) b := by
      refine hb.relist (N := [h]) ?_ hnew hapart fun x hx => ⟨not_false, .rfl, ?_⟩
      · exact (((insertBack_perm b' h _).append_left _).trans List.perm_middle).subperm
      · rw [(insertBack_perm b' h _).mem_iff, List.mem_cons, or_iff_right hx]
    exact (hlists.setTalk_wait (relist_mem_waits ((insertBack_perm b' h _).mem_iff.mpr List.mem_cons_self))).agrees
      fun x ⟨h1, h2⟩ => h2 h1
  · obtain ⟨q, w, hq, hlen⟩ := waits_concat hroom
    rw [joinQueue_of_full hq hlen]
    have hw : w ∈ a.waits[n] := by rw [hq]; simp
    have hqsub : q.Sublist a.waits[n] := by rw [hq]; exact List.sublist_append_left _ _
    split
    · rw [setWaits_relist, setTalk_holders, setTalk_holders, setTalk_relist, setTalk_relist]
      have hlists : (a.relist n a.holders[n] (insertBack b' h q)).AgreesBut (fun x => x = h ∨ x = w) b := by
        refine hb.relist (N := [h]) ?_ hnew hapart fun x hx => ⟨not_false, .rfl, ?_⟩
        · refine (((insertBack_perm b' h q).append_left _).trans List.perm_middle).subperm.trans ?_
          exact (((List.Sublist.refl _).append hqsub).cons_cons h).subperm
        · obtain ⟨hxh, hxw⟩ := not_or.mp hx
          rw [(insertBack_perm b' h _).mem_iff, List.mem_cons, or_iff_right hxh, hq]
          simp [hxw]
      have hwh : w ≠ h := fun e => hout n (mem_entries.mpr (.inr (e ▸ hw)))
      have hwq : w ∉ q := by
        have := hb.apart n
        rw [entries, hq, List.map_append, List.nodup_append, List.map_append, List.nodup_append] at this
        exact fun hm => this.2.1.2.2 _ (List.mem_map_of_mem hm) _ (List.mem_map_of_mem (List.mem_singleton_self w)) rfl
      have hgone := hb.gone (H := a.holders[n]) (W := insertBack b' h q) (mem_entries.mpr (.inr hw))
        (fun hm => hb.disjoint hm hw) (by rw [(insertBack_perm b' h q).mem_iff]; simp [hwh, hwq])
      have hrefused := hlists.setTalk_out (v := .refused) ⟨nofun, nofun⟩ hgone
      refine (hrefused.setTalk_wait (n := n) (x := h) ?_).agrees fun x ⟨⟨h1, h2⟩, h3⟩ => h1.elim h3 h2
      rw [setTalk_waits]
      exact relist_mem_waits ((insertBack_perm b' h _).mem_iff.mpr List.mem_cons_self)
    · exact (hb.weaken (Y := (· = h)) fun _ e => e.elim).clear ⟨nofun, nofun⟩ hout

theorem Agrees.preempt {n : Net} {v h : Hold} (ha : a.Agrees b) (hkey : (b.cell h.st n).key = some h.key)
    (hout : ∀ m, h ∉ a.entries m) (hv : v ∈ a.holders[n]) : (a.preempt b' n v h).Agrees b := by
  have hb := agrees_iff.mp ha
  have hapart := press_apart ha hkey hout
  have hnew : ∀ x ∈ [h], (b.cell x.st n).key = some x.key ∧ ∀ m, x ∉ a.entries m := by
    intro x hx
    obtain rfl := List.mem_singleton.mp hx
    exact ⟨hkey, hout⟩
  have hvh : v ≠ h := fun e => hout n (mem_entries.mpr (.inl (e ▸ hv)))
  have hperm : ∀ q : List Hold, (a.holders[n].erase v ++ [h] ++ insertFront b' v q).Perm (h :: (a.holders[n] ++ q)) := by
    intro q
    calc (a.holders[n].erase v ++ [h] ++ insertFront b' v q).Perm (a.holders[n].erase v ++ [h] ++ v :: q) :=
          (insertFront_perm b' v q).append_left _
      _ = a.holders[n].erase v ++ h :: v :: q := by rw [List.append_assoc, List.singleton_append]
      _ |>.Perm (h :: (a.holders[n].erase v ++ v :: q)) := List.perm_middle
      _ |>.Perm (h :: (v :: a.holders[n].erase v ++ q)) := .cons h List.perm_middle
      _ |>.Perm (h :: (a.holders[n] ++ q)) := .cons h ((List.perm_cons_erase hv).symm.append_right q)
  have hH : ∀ x, x ≠ h → x ≠ v → (x ∈ a.holders[n].erase v ++ [h] ↔ x ∈ a.holders[n]) := fun x hxh hxv => by
    rw [List.mem_append, List.mem_singleton, or_iff_left hxh, List.mem_erase_of_ne hxv]
  by_cases hroom : a.waits[n].length < 8
  · rw [preempt_of_room hroom]
    have hlists : (a.relist n (a.holders[n].erase v ++ [h]) (insertFront b' v a.waits[n])).AgreesBut
        (fun x => x = h ∨ x = v) b := by
      refine hb.relist (N := [h]) (hperm _).subperm hnew hapart fun x hx => ?_
      obtain ⟨hxh, hxv⟩ := not_or.mp hx
      exact ⟨not_false, hH x hxh hxv, by rw [(insertFront_perm b' v _).mem_iff, List.mem_cons, or_iff_right hxv]⟩
    have hwait := hlists.setTalk_wait (n := n) (x := v)
      (relist_mem_waits ((insertFront_perm b' v _).mem_iff.mpr List.mem_cons_self))
    refine (hwait.setTalk_live (n := n) (x := h) ?_).agrees fun x ⟨⟨h1, h2⟩, h3⟩ => h1.elim h3 h2
    rw [setTalk_holders]
    exact relist_mem_holders (by simp)
  · obtain ⟨q, w, hq, hlen⟩ := waits_concat hroom
    rw [preempt_of_full hq hlen]
    have hw : w ∈ a.waits[n] := by rw [hq]; simp
    have hqsub : q.Sublist a.waits[n] := by rw [hq]; exact List.sublist_append_left _ _
    have hwh : w ≠ h := fun e => hout n (mem_entries.mpr (.inr (e ▸ hw)))
    have hwv : w ≠ v := fun e => hb.disjoint hv (e ▸ hw)
    have hwq : w ∉ q := by
      have := hb.apart n
      rw [entries, hq, List.map_append, List.nodup_append, List.map_append, List.nodup_append] at this
      exact fun hm => this.2.1.2.2 _ (List.mem_map_of_mem hm) _ (List.mem_map_of_mem (List.mem_singleton_self w)) rfl
    have hlists : (a.relist n (a.holders[n].erase v ++ [h]) (insertFront b' v q)).AgreesBut
        (fun x => (x = h ∨ x = v) ∨ x = w) b := by
      refine hb.relist (N := [h]) ?_ hnew hapart fun x hx => ?_
      · exact (hperm q).subperm.trans (((List.Sublist.refl _).append hqsub).cons_cons h).subperm
      · obtain ⟨hx, hxw⟩ := not_or.mp hx
        obtain ⟨hxh, hxv⟩ := not_or.mp hx
        refine ⟨not_false, hH x hxh hxv, ?_⟩
        rw [(insertFront_perm b' v _).mem_iff, List.mem_cons, or_iff_right hxv, hq]
        simp [hxw]
    have hgone := hb.gone (H := a.holders[n].erase v ++ [h]) (W := insertFront b' v q)
      (mem_entries.mpr (.inr hw))
      (fun hm => hb.disjoint ((hH w hwh hwv).mp hm) hw) (by rw [(insertFront_perm b' v q).mem_iff]; simp [hwv, hwq])
    have hrefused := hlists.setTalk_out (v := .refused) ⟨nofun, nofun⟩ hgone
    have hwait := hrefused.setTalk_wait (n := n) (x := v) (by
      rw [setTalk_waits]
      exact relist_mem_waits ((insertFront_perm b' v _).mem_iff.mpr List.mem_cons_self))
    refine (hwait.setTalk_live (n := n) (x := h) ?_).agrees fun x ⟨⟨⟨h1, h2⟩, h3⟩, h4⟩ => h1.elim (fun h => h.elim h4 h3) h2
    rw [setTalk_holders, setTalk_holders]
    exact relist_mem_holders (by simp)

theorem Agrees.placePress {n : Net} {h : Hold} (ha : a.Agrees b) (hkey : (b.cell h.st n).key = some h.key)
    (hout : ∀ m, h ∉ a.entries m) : (a.placePress b' n h).Agrees b := by
  unfold Arbiter.placePress
  split
  · have hb := agrees_iff.mp ha
    rw [setHolders_relist]
    have hlists : (a.relist n (a.holders[n] ++ [h]) a.waits[n]).AgreesBut (· = h) b := by
      refine hb.relist (N := [h]) ?_ (fun x hx => ?_) (press_apart ha hkey hout) fun x hx => ⟨not_false, ?_, .rfl⟩
      · rw [List.append_assoc, List.singleton_append]
        exact List.perm_middle.subperm
      · obtain rfl := List.mem_singleton.mp hx
        exact ⟨hkey, hout⟩
      · rw [List.mem_append, List.mem_singleton, or_iff_left hx]
    exact (hlists.setTalk_live (relist_mem_holders (by simp))).agrees fun x ⟨h1, h2⟩ => h2 h1
  · split
    · next v hv =>
      split
      · exact ha.preempt hkey hout (victimOf_mem hv)
      · exact ha.joinQueue hkey hout
    · exact ha.joinQueue hkey hout

end Arbiter

theorem netOfKey_key {b : Bank} {st : Station} {k : Key} {n : Net} (h : b.netOfKey st k = some n) :
    (b.cell st n).key = some k := by
  simpa using List.find?_some h

/-- Every step of the talk arbiter keeps the agreement. -/
theorem ArbStep.agrees {b : Bank} {a a' : Arbiter} (h : ArbStep b a a') (ha : a.Agrees b) : a'.Agrees b := by
  have hout : ∀ {st : Station} {k : Key}, a.stands st k = false → ∀ m, (⟨st, k⟩ : Hold) ∉ a.entries m := by
    intro st k hs
    simp only [Arbiter.stands, Bool.or_eq_false_iff, decide_eq_false_iff_not] at hs
    exact Arbiter.not_entry_of_off (x := ⟨st, k⟩) ha hs.1 hs.2
  cases h with
  | place n st k hkey hs => exact ha.placePress (netOfKey_key hkey) (hout hs)
  | mute st k hs =>
    exact Arbiter.AgreesBut.clear (x := ⟨st, k⟩) ((Arbiter.agrees_iff.mp ha).weaken fun _ h => h.elim) ⟨nofun, nofun⟩ (hout hs)
  | release st k => exact ha.talkRelease st k
  | withdraw st c => exact ha.withdraw st c
  | quiet _ hh hw ht => exact Arbiter.agrees_iff.mpr ((Arbiter.agrees_iff.mp ha).of_eq hh hw ht)

theorem ArbReach.agrees {b : Bank} {a a' : Arbiter} (h : ArbReach b a a') (ha : a.Agrees b) : a'.Agrees b := by
  induction h with
  | refl => exact ha
  | tail _ hs ih => exact hs.agrees ih

end Sys2Proof.Machine
end

section
/-! The talk arbiter's part of a Take (R18 to R21) and the bounds of its lists (R2, R3, R9); what the other parts of a Take do
to the arbiter; the statement they settle (O59). -/

namespace Sys2Proof.Machine

namespace Arbiter

variable {X : Hold → Prop} {b b' old new : Bank} {a : Arbiter}

/-! The stages of a Take keep the agreement. -/

theorem setTalkAll_relist (l : List Hold) (v : Standing) (n : Net) (H W : List Hold) :
    (a.setTalkAll l v).relist n H W = (a.relist n H W).setTalkAll l v := by
  unfold Arbiter.setTalkAll
  induction l generalizing a with
  | nil => rfl
  | cons h l ih =>
    rw [List.foldl_cons, List.foldl_cons, ih, setTalk_relist]

theorem AgreesBut.setTalkAll_out {l : List Hold} {v : Standing} (h : a.AgreesBut X b) (hv : v ≠ .live ∧ v ≠ .wait)
    (hl : ∀ x ∈ l, ∀ m, x ∉ a.entries m) : (a.setTalkAll l v).AgreesBut (fun y => X y ∧ y ∉ l) b :=
  h.setTalkAll (fun x hx => ⟨fun e => absurd e hv.1, fun ⟨m, hm⟩ => absurd (mem_entries.mpr (.inl hm)) (hl x hx m)⟩)
    fun x hx => ⟨fun e => absurd e hv.2, fun ⟨m, hm⟩ => absurd (mem_entries.mpr (.inr hm)) (hl x hx m)⟩

theorem Agrees.quiet {a' : Arbiter} (h : a.Agrees b) (hh : a'.holders = a.holders) (hw : a'.waits = a.waits)
    (ht : a'.talk = a.talk) : a'.Agrees b := agrees_iff.mpr ((agrees_iff.mp h).of_eq hh hw ht)

theorem freeAnnounce_lists (st : Station) (a : Arbiter) :
    (a.freeAnnounce st).holders = a.holders ∧ (a.freeAnnounce st).waits = a.waits ∧ (a.freeAnnounce st).talk = a.talk := by
  unfold freeAnnounce
  split <;> exact ⟨rfl, rfl, rfl⟩

/-- A station that a Take does not withdraw keeps its lists and standings. -/
theorem takeStation_cases (old new : Bank) (a : Arbiter) (st : Station) :
    a.takeStation old new st = a.withdraw new st .take ∨ ((a.takeStation old new st).holders = a.holders
      ∧ (a.takeStation old new st).waits = a.waits ∧ (a.takeStation old new st).talk = a.talk) := by
  unfold takeStation
  split
  · exact .inl rfl
  · right
    split
    · dsimp only
      split
      · exact freeAnnounce_lists st a
      · exact freeAnnounce_lists st a
    · exact ⟨rfl, rfl, rfl⟩

theorem Agrees.takeStation (h : a.Agrees b) (st : Station) : (a.takeStation old new st).Agrees b := by
  obtain e | ⟨hh, hw, ht⟩ := takeStation_cases old new a st
  · rw [e]
    exact h.withdraw st .take
  · exact h.quiet hh hw ht

/-- R20: a net disabled by a Take. -/
theorem takeNet_disabled {n : Net} (h : new.nets[n].enabled = false) :
    a.takeNet new n = (((a.relist n [] []).setTalkAll a.holders[n] .dropped).setTalkAll a.waits[n] .dropped).setCall n .idle := by
  have hrelist : ∀ x : Arbiter, (x.setHolders n []).setWaits n [] = x.relist n [] [] := fun _ => rfl
  unfold takeNet
  rw [if_neg (by rw [h]; exact Bool.false_ne_true)]
  dsimp only
  rw [hrelist, setTalkAll_relist, setTalkAll_relist]

theorem takeNet_enabled {n : Net} (h : new.nets[n].enabled = true) : a.takeNet new n = a := by
  unfold takeNet
  exact if_pos h

theorem Agrees.takeNet (h : a.Agrees b) (n : Net) : (a.takeNet new n).Agrees b := by
  have hb := agrees_iff.mp h
  cases hen : new.nets[n].enabled with
  | true => rwa [takeNet_enabled hen]
  | false =>
    rw [takeNet_disabled hen]
    refine Agrees.quiet ?_ rfl rfl rfl
    have hlists : (a.relist n [] []).AgreesBut (· ∈ a.entries n) b := by
      refine hb.relist_old List.nil_subperm fun x hx => ⟨not_false, ?_, ?_⟩
      · exact ⟨fun e => absurd e List.not_mem_nil, fun e => absurd (mem_entries.mpr (.inl e)) hx⟩
      · exact ⟨fun e => absurd e List.not_mem_nil, fun e => absurd (mem_entries.mpr (.inr e)) hx⟩
    have hgone : ∀ x ∈ a.entries n, ∀ m, x ∉ (a.relist n [] []).entries m := fun x hx =>
      hb.gone hx List.not_mem_nil List.not_mem_nil
    have hheld := hlists.setTalkAll_out (v := .dropped) (l := a.holders[n]) ⟨nofun, nofun⟩
      fun x hx => hgone x (mem_entries.mpr (.inl hx))
    have hentries : ∀ m, ((a.relist n [] []).setTalkAll a.holders[n] .dropped).entries m = (a.relist n [] []).entries m := by
      intro m
      obtain ⟨e1, e2⟩ := (a.relist n [] []).setTalkAll_lists a.holders[n] .dropped
      rw [entries, entries, e1, e2]
    refine (hheld.setTalkAll_out (v := .dropped) (l := a.waits[n]) ⟨nofun, nofun⟩ fun x hx m => ?_).agrees
      fun x ⟨⟨h1, h2⟩, h3⟩ => (mem_entries.mp h1).elim h2 h3
    rw [hentries]
    exact hgone x (mem_entries.mpr (.inr hx)) m

/-- R20: a net's entries whose cells no longer carry their keys. -/
theorem takeMapping_lists (new : Bank) (a : Arbiter) (n : Net) :
    ∃ c, a.takeMapping new n = { ((a.relist n (a.holders[n].filter (new.mapped n)) (a.waits[n].filter (new.mapped n))).setTalkAll
      ((a.holders[n] ++ a.waits[n]).filter fun h => !new.mapped n h) .dropped) with calls := c } := by
  have hrelist : ((a.setTalkAll ((a.holders[n] ++ a.waits[n]).filter fun h => !new.mapped n h) .dropped).setHolders n
        (a.holders[n].filter (new.mapped n))).setWaits n (a.waits[n].filter (new.mapped n))
      = (a.relist n (a.holders[n].filter (new.mapped n)) (a.waits[n].filter (new.mapped n))).setTalkAll
        ((a.holders[n] ++ a.waits[n]).filter fun h => !new.mapped n h) .dropped := setTalkAll_relist _ _ _ _ _
  unfold takeMapping
  dsimp only
  rw [hrelist]
  split
  · split
    · exact ⟨_, rfl⟩
    · exact ⟨_, rfl⟩
  · exact ⟨_, rfl⟩
  · exact ⟨_, rfl⟩

theorem takeMapping_entries (new : Bank) (a : Arbiter) (n m : Net) :
    (a.takeMapping new n).holders[m] = (if m = n then a.holders[n].filter (new.mapped n) else a.holders[m])
      ∧ (a.takeMapping new n).waits[m] = if m = n then a.waits[n].filter (new.mapped n) else a.waits[m] := by
  obtain ⟨c, e⟩ := takeMapping_lists new a n
  rw [e]
  dsimp only
  obtain ⟨e1, e2⟩ := (a.relist n (a.holders[n].filter (new.mapped n)) (a.waits[n].filter (new.mapped n))).setTalkAll_lists
    ((a.holders[n] ++ a.waits[n]).filter fun h => !new.mapped n h) .dropped
  rw [e1, e2]
  by_cases hm : m = n
  · subst hm
    rw [if_pos rfl, if_pos rfl]
    exact a.relist_self _ _ _
  · rw [if_neg hm, if_neg hm]
    exact a.relist_other hm _ _

theorem Agrees.takeMapping (h : a.Agrees b) (n : Net) : (a.takeMapping new n).Agrees b := by
  have hb := agrees_iff.mp h
  obtain ⟨c, e⟩ := takeMapping_lists new a n
  rw [e]
  refine Agrees.quiet ?_ rfl rfl rfl
  have hkept : ∀ {l : List Hold} {x : Hold}, x ∈ l.filter (new.mapped n) ↔ x ∈ l ∧ new.mapped n x = true := List.mem_filter
  have hlists : (a.relist n (a.holders[n].filter (new.mapped n)) (a.waits[n].filter (new.mapped n))).AgreesBut
      (· ∈ (a.holders[n] ++ a.waits[n]).filter fun h => !new.mapped n h) b := by
    refine hb.relist_old (List.filter_sublist.append List.filter_sublist).subperm fun x hx => ⟨not_false, ?_, ?_⟩
    all_goals
      rw [hkept]
      refine ⟨And.left, fun hm => ⟨hm, ?_⟩⟩
      by_contra hno
      exact hx (List.mem_filter.mpr ⟨by simp [-Fin.getElem_fin, hm], by simpa using hno⟩)
  refine (hlists.setTalkAll_out (v := .dropped) ⟨nofun, nofun⟩ fun x hx => ?_).agrees fun x ⟨h1, h2⟩ => h2 h1
  obtain ⟨hmem, hno⟩ := List.mem_filter.mp hx
  rw [Bool.not_eq_true'] at hno
  refine hb.gone (n := n) hmem (fun hm => ?_) fun hm => ?_
  · rw [(hkept.mp hm).2] at hno
    cases hno
  · rw [(hkept.mp hm).2] at hno
    cases hno

/-- Once every net has been looked at, every entry's cell carries its key in the new bank. -/
theorem takeMapping_foldl (l : List Net) (h : a.Agrees b) :
    (l.foldl (Arbiter.takeMapping new) a).Agrees b
      ∧ ∀ n x, (n ∈ l ∨ (x ∈ a.entries n → new.mapped n x = true)) →
        x ∈ (l.foldl (Arbiter.takeMapping new) a).entries n → new.mapped n x = true := by
  induction l generalizing a with
  | nil => exact ⟨h, fun n x hx hm => hx.elim (fun e => absurd e List.not_mem_nil) fun e => e hm⟩
  | cons k l ih =>
    obtain ⟨h1, h2⟩ := ih (h.takeMapping (new := new) k)
    refine ⟨h1, fun n x hx => h2 n x ?_⟩
    obtain ⟨e1, e2⟩ := takeMapping_entries new a k n
    by_cases hnk : n = k
    · subst hnk
      right
      rw [mem_entries, e1, e2, if_pos rfl, if_pos rfl, List.mem_filter, List.mem_filter]
      exact fun hm => hm.elim And.right And.right
    · rw [if_neg hnk] at e1 e2
      rcases hx with hx | hx
      · exact .inl ((List.mem_cons.mp hx).resolve_left hnk)
      · right
        rwa [mem_entries, e1, e2, ← mem_entries]

theorem Agrees.mapped (h : a.Agrees b) (hm : ∀ n x, x ∈ a.entries n → new.mapped n x = true) : a.Agrees new := by
  obtain ⟨h1, h2, h3⟩ := h
  exact ⟨fun n => ⟨(h1 n).1, fun x hx => by simpa [Bank.mapped] using hm n x hx⟩, h2, h3⟩

theorem Agrees.takeClasses (h : a.Agrees b) (n : Net) : (a.takeClasses old new n).Agrees b := by
  unfold Arbiter.takeClasses
  split
  · rw [setWaits_relist]
    have hperm := sortByClass_perm new a.waits[n]
    exact ((agrees_iff.mp h).relist_old (Y := fun _ => False) (hperm.append_left _).subperm fun x hx =>
      ⟨hx, .rfl, hperm.mem_iff⟩).agrees fun _ e => e
  · exact h

theorem trimWaits_eq (n : Net) (a : Arbiter) :
    a.trimWaits n = (a.relist n a.holders[n] (a.waits[n].take Config.waitLimit)).setTalkAll
      (a.waits[n].drop Config.waitLimit) .refused := by
  unfold trimWaits
  rw [setWaits_relist, (a.setTalkAll_lists _ _).1, setTalkAll_relist]

theorem Agrees.trimWaits (h : a.Agrees b) (n : Net) : (a.trimWaits n).Agrees b := by
  have hb := agrees_iff.mp h
  rw [trimWaits_eq]
  have hsplit : ∀ x, x ∈ a.waits[n] ↔ x ∈ a.waits[n].take Config.waitLimit ∨ x ∈ a.waits[n].drop Config.waitLimit := by
    intro x
    rw [← List.mem_append, List.take_append_drop]
  have hlists : (a.relist n a.holders[n] (a.waits[n].take Config.waitLimit)).AgreesBut
      (· ∈ a.waits[n].drop Config.waitLimit) b := by
    refine hb.relist_old ((List.Sublist.refl _).append (List.take_sublist _ _)).subperm fun x hx => ⟨not_false, .rfl, ?_⟩
    rw [hsplit, or_iff_left hx]
  refine (hlists.setTalkAll_out (v := .refused) ⟨nofun, nofun⟩ fun x hx => ?_).agrees fun x ⟨h1, h2⟩ => h2 h1
  have hw : x ∈ a.waits[n] := (hsplit x).mpr (.inr hx)
  refine hb.gone (mem_entries.mpr (.inr hw)) (fun hm => hb.disjoint hm hw) fun hm => ?_
  have hnodup := hb.apart n
  rw [entries, List.map_append, List.nodup_append] at hnodup
  have hwaits := List.Nodup.of_map _ hnodup.2.1
  rw [← List.take_append_drop Config.waitLimit a.waits[n], List.nodup_append] at hwaits
  exact hwaits.2.2 x hm x hx rfl

theorem Agrees.takeSlots (h : a.Agrees b) (n : Net) : (a.takeSlots new n).Agrees b := by
  have hb := agrees_iff.mp h
  unfold Arbiter.takeSlots
  dsimp only
  split
  · exact h
  · have hrelist : (a.setHolders n (a.holders[n].take new.nets[n].slots)).setWaits n
        ((a.holders[n].drop new.nets[n].slots).foldr (insertFront new) a.waits[n])
        = a.relist n (a.holders[n].take new.nets[n].slots)
          ((a.holders[n].drop new.nets[n].slots).foldr (insertFront new) a.waits[n]) := rfl
    rw [hrelist]
    have hperm := foldr_insertFront_perm new (a.holders[n].drop new.nets[n].slots) a.waits[n]
    have hsplit : ∀ x, x ∈ a.holders[n] ↔ x ∈ a.holders[n].take new.nets[n].slots ∨ x ∈ a.holders[n].drop new.nets[n].slots := by
      intro x
      rw [← List.mem_append, List.take_append_drop]
    have hlists : (a.relist n (a.holders[n].take new.nets[n].slots)
        ((a.holders[n].drop new.nets[n].slots).foldr (insertFront new) a.waits[n])).AgreesBut
        (· ∈ a.holders[n].drop new.nets[n].slots) b := by
      refine hb.relist_old ?_ fun x hx => ⟨not_false, ?_, ?_⟩
      · refine ((hperm.append_left _).trans ?_).subperm
        rw [← List.append_assoc, List.take_append_drop]
        exact .refl _
      · rw [hsplit, or_iff_left hx]
      · rw [hperm.mem_iff, List.mem_append, or_iff_right hx]
    have hwaits : ∀ x ∈ a.holders[n].drop new.nets[n].slots, x ∈ (a.relist n (a.holders[n].take new.nets[n].slots)
        ((a.holders[n].drop new.nets[n].slots).foldr (insertFront new) a.waits[n])).waits[n] := fun x hx =>
      relist_mem_waits (hperm.mem_iff.mpr (List.mem_append_left _ hx))
    have hset := hlists.setTalkAll (v := .wait)
      (fun x hx => ⟨nofun, fun ⟨m, hm⟩ => absurd (hwaits x hx) (hlists.holder_not_waits hm n)⟩)
      fun x hx => ⟨fun _ => ⟨n, hwaits x hx⟩, fun _ => rfl⟩
    exact (hset.agrees fun x ⟨h1, h2⟩ => h2 h1).trimWaits n

theorem agrees_foldl {α : Type} {f : Arbiter → α → Arbiter} (hf : ∀ a x, a.Agrees b → (f a x).Agrees b) (l : List α)
    (h : a.Agrees b) : (l.foldl f a).Agrees b := by
  induction l generalizing a with
  | nil => exact h
  | cons x l ih => exact ih (hf a x h)

/-- R18: a Take leaves the lists as the new bank has the keys. -/
theorem Agrees.applyTake (h : a.Agrees old) : (a.applyTake old new).Agrees new := by
  unfold Arbiter.applyTake
  dsimp only
  have h1 := agrees_foldl (b := old) (fun a st ha => Agrees.takeStation (old := old) (new := new) ha st) allStations h
  have h2 := agrees_foldl (b := old) (fun a n ha => Agrees.takeNet (new := new) ha n) allNets h1
  obtain ⟨h3, hmapped⟩ := takeMapping_foldl (new := new) allNets h2
  have h3' := h3.mapped fun n x hx => hmapped n x (.inl (List.mem_finRange n)) hx
  have h4 := agrees_foldl (b := new) (fun a n ha => Agrees.takeClasses (old := old) (new := new) ha n) allNets h3'
  have h5 := agrees_foldl (b := new) (fun a n ha => Agrees.takeSlots (new := new) ha n) allNets h4
  exact ((agrees_iff.mp h5).refillAll (b' := new) allNets).1.agrees fun _ e => e

/-! The bounds of the lists (R2, R3, R9). -/

/-- The bounds of one net's lists but for waiters while a slot is free. -/
def LooseAt (b : Bank) (a : Arbiter) (n : Net) : Prop :=
  a.holders[n].length ≤ b.nets[n].slots ∧ a.waits[n].length ≤ Config.waitLimit

/-- The bounds of one net's lists. -/
def BoundedAt (b : Bank) (a : Arbiter) (n : Net) : Prop :=
  LooseAt b a n ∧ (a.waits[n] ≠ [] → a.holders[n].length = b.nets[n].slots)

/-- The bounds of the lists. -/
def Bounded (b : Bank) (a : Arbiter) : Prop := ∀ n : Net, BoundedAt b a n

theorem boundedAt_of_eq {a' : Arbiter} {n : Net} (hh : a'.holders[n] = a.holders[n]) (hw : a'.waits[n] = a.waits[n])
    (h : BoundedAt b a n) : BoundedAt b a' n := by
  unfold BoundedAt LooseAt at h ⊢
  rwa [hh, hw]

theorem bounded_of_eq {a' : Arbiter} (hh : a'.holders = a.holders) (hw : a'.waits = a.waits) (h : a.Bounded b) :
    a'.Bounded b := fun n => boundedAt_of_eq (by rw [hh]) (by rw [hw]) (h n)

theorem refillFuel_nil {n : Net} {k : Nat} (hw : a.waits[n] = []) : refillFuel b n (k + 1) a = a := by
  simp only [refillFuel, hw]

theorem refillFuel_full {n : Net} {k : Nat} (hfull : ¬ a.holders[n].length < b.nets[n].slots) :
    refillFuel b n (k + 1) a = a := by
  cases hw : a.waits[n] with
  | nil => exact refillFuel_nil hw
  | cons w rest => simp only [refillFuel, hw, if_neg hfull]

theorem refillFuel_free {n : Net} {k : Nat} {w : Hold} {rest : List Hold} (hw : a.waits[n] = w :: rest)
    (hfree : a.holders[n].length < b.nets[n].slots) :
    refillFuel b n (k + 1) a = refillFuel b n k ((a.relist n (a.holders[n] ++ [w]) rest).setTalk w.st w.key .live) := by
  simp only [refillFuel, hw, if_pos hfree]
  rfl

/-- No step of a refill reaches another net, and none lengthens the queue. -/
theorem refillFuel_other (n : Net) (k : Nat) (a : Arbiter) :
    (∀ m, m ≠ n → (refillFuel b n k a).holders[m] = a.holders[m] ∧ (refillFuel b n k a).waits[m] = a.waits[m])
      ∧ (refillFuel b n k a).waits[n].length ≤ a.waits[n].length := by
  induction k generalizing a with
  | zero => exact ⟨fun m _ => ⟨rfl, rfl⟩, Nat.le_refl _⟩
  | succ k ih =>
    cases hw : a.waits[n] with
    | nil =>
      rw [refillFuel_nil hw, hw]
      exact ⟨fun m _ => ⟨rfl, rfl⟩, Nat.le_refl _⟩
    | cons w rest =>
      by_cases hfree : a.holders[n].length < b.nets[n].slots
      · rw [refillFuel_free hw hfree]
        obtain ⟨h1, h2⟩ := ih ((a.relist n (a.holders[n] ++ [w]) rest).setTalk w.st w.key .live)
        refine ⟨fun m hm => ?_, h2.trans ?_⟩
        · obtain ⟨e1, e2⟩ := h1 m hm
          obtain ⟨e3, e4⟩ := a.relist_other hm (a.holders[n] ++ [w]) rest
          exact ⟨e1.trans e3, e2.trans e4⟩
        · rw [setTalk_waits, (a.relist_self n _ _).2]
          exact Nat.le_succ _
      · rw [refillFuel_full hfree, hw]
        exact ⟨fun m _ => ⟨rfl, rfl⟩, Nat.le_refl _⟩

/-- A refilled net has no waiters while a slot is free. -/
theorem refillFuel_bounded (n : Net) (k : Nat) (hk : a.waits[n].length ≤ k) (h : LooseAt b a n) :
    BoundedAt b (refillFuel b n k a) n := by
  induction k generalizing a with
  | zero =>
    have hnil : a.waits[n] = [] := List.length_eq_zero_iff.mp (Nat.le_zero.mp hk)
    exact ⟨h, fun hne => absurd hnil hne⟩
  | succ k ih =>
    obtain ⟨hslots, hwaits⟩ := h
    cases hw : a.waits[n] with
    | nil =>
      rw [refillFuel_nil hw]
      exact ⟨⟨hslots, hwaits⟩, fun hne => absurd hw hne⟩
    | cons w rest =>
      by_cases hfree : a.holders[n].length < b.nets[n].slots
      · rw [refillFuel_free hw hfree]
        obtain ⟨e1, e2⟩ := a.relist_self n (a.holders[n] ++ [w]) rest
        rw [hw, List.length_cons] at hk hwaits
        refine ih ?_ ⟨?_, ?_⟩
        · rw [setTalk_waits, e2]
          exact Nat.le_of_succ_le_succ hk
        · rw [setTalk_holders, e1, List.length_append]
          exact hfree
        · rw [setTalk_waits, e2]
          exact Nat.le_of_succ_le hwaits
      · rw [refillFuel_full hfree]
        exact ⟨⟨hslots, hwaits⟩, fun _ => Nat.le_antisymm hslots (Nat.le_of_not_lt hfree)⟩

theorem refill_bounded {n : Net} (h : LooseAt b a n) : BoundedAt b (a.refill b n) n :=
  refillFuel_bounded n _ (Nat.le_refl _) h

theorem refillAll_bounded (ns : List Net) (hl : ∀ n, LooseAt b a n) (hn : ∀ n, n ∉ ns → BoundedAt b a n) :
    (a.refillAll b ns).Bounded b := by
  unfold refillAll
  induction ns generalizing a with
  | nil => exact fun n => hn n List.not_mem_nil
  | cons k ns ih =>
    have hother : ∀ m, m ≠ k → BoundedAt b a m → BoundedAt b (a.refill b k) m := fun m hm hb => by
      obtain ⟨e1, e2⟩ := (refillFuel_other (b := b) k a.waits[k].length a).1 m hm
      exact boundedAt_of_eq e1 e2 hb
    refine ih (fun n => ?_) fun n hn' => ?_
    · by_cases hnk : n = k
      · subst hnk
        exact (refill_bounded (hl n)).1
      · obtain ⟨e1, e2⟩ := (refillFuel_other (b := b) k a.waits[k].length a).1 n hnk
        exact ⟨(congrArg List.length e1).trans_le (hl n).1, (congrArg List.length e2).trans_le (hl n).2⟩
    · by_cases hnk : n = k
      · subst hnk
        exact refill_bounded (hl n)
      · exact hother n hnk (hn n fun hm => (List.mem_cons.mp hm).elim hnk hn')

/-! The steps of the arbiter keep the bounds. -/

/-- The lists of one net replaced within the bounds. -/
theorem relist_bounded {n : Net} {H W : List Hold} (h : a.Bounded b) (hH : H.length ≤ b.nets[n].slots)
    (hW : W.length ≤ Config.waitLimit) (hfull : W ≠ [] → H.length = b.nets[n].slots) : (a.relist n H W).Bounded b := by
  intro m
  by_cases hm : m = n
  · subst hm
    obtain ⟨e1, e2⟩ := a.relist_self m H W
    unfold BoundedAt LooseAt
    rw [e1, e2]
    exact ⟨⟨hH, hW⟩, hfull⟩
  · obtain ⟨e1, e2⟩ := a.relist_other hm H W
    exact boundedAt_of_eq e1 e2 (h m)

theorem joinQueue_bounded {n : Net} {h : Hold} (hb : a.Bounded b) (hfull : a.holders[n].length = b.nets[n].slots) :
    (a.joinQueue b' n h).Bounded b := by
  by_cases hroom : a.waits[n].length < 8
  · rw [joinQueue_of_room hroom, setWaits_relist, setTalk_holders, setTalk_relist]
    refine bounded_of_eq (setTalk_holders _ _ _ _) (setTalk_waits _ _ _ _)
      (relist_bounded hb (Nat.le_of_eq hfull) ?_ fun _ => hfull)
    rw [(insertBack_perm b' h _).length_eq]
    exact hroom
  · obtain ⟨q, w, hq, hlen⟩ := waits_concat hroom
    rw [joinQueue_of_full hq hlen]
    split
    · rw [setWaits_relist, setTalk_holders, setTalk_holders, setTalk_relist, setTalk_relist]
      refine bounded_of_eq (a := a.relist n a.holders[n] (insertBack b' h q)) rfl rfl
        (relist_bounded hb (Nat.le_of_eq hfull) ?_ fun _ => hfull)
      have hw := (hb n).1.2
      rw [hq, List.length_append] at hw
      rw [(insertBack_perm b' h _).length_eq]
      exact hw
    · exact bounded_of_eq rfl rfl hb

theorem preempt_bounded {n : Net} {v h : Hold} (hb : a.Bounded b) (hfull : a.holders[n].length = b.nets[n].slots)
    (hv : v ∈ a.holders[n]) : (a.preempt b' n v h).Bounded b := by
  have hH : (a.holders[n].erase v ++ [h]).length = b.nets[n].slots := by
    rw [List.length_append, List.length_erase_of_mem hv, List.length_singleton, ← hfull]
    exact Nat.sub_add_cancel (List.length_pos_of_mem hv)
  by_cases hroom : a.waits[n].length < 8
  · rw [preempt_of_room hroom]
    refine bounded_of_eq (a := a.relist n (a.holders[n].erase v ++ [h]) (insertFront b' v a.waits[n])) rfl rfl
      (relist_bounded hb (Nat.le_of_eq hH) ?_ fun _ => hH)
    rw [(insertFront_perm b' v _).length_eq]
    exact hroom
  · obtain ⟨q, w, hq, hlen⟩ := waits_concat hroom
    rw [preempt_of_full hq hlen]
    refine bounded_of_eq (a := a.relist n (a.holders[n].erase v ++ [h]) (insertFront b' v q)) rfl rfl
      (relist_bounded hb (Nat.le_of_eq hH) ?_ fun _ => hH)
    have hw := (hb n).1.2
    rw [hq, List.length_append] at hw
    rw [(insertFront_perm b' v _).length_eq]
    exact hw

theorem placePress_bounded {n : Net} {h : Hold} (hb : a.Bounded b) : (a.placePress b n h).Bounded b := by
  obtain ⟨⟨hslots, hwaits⟩, hnone⟩ := hb n
  unfold placePress
  split
  · next hfree =>
    rw [setHolders_relist]
    refine bounded_of_eq (a := a.relist n (a.holders[n] ++ [h]) a.waits[n]) rfl rfl (relist_bounded hb ?_ hwaits fun hne => ?_)
    · rw [List.length_append]
      exact hfree
    · exact absurd (hnone hne) (Nat.ne_of_lt hfree)
  · next hfree =>
    have hfull := Nat.le_antisymm hslots (Nat.le_of_not_lt hfree)
    split
    · next v hv =>
      split
      · exact preempt_bounded hb hfull (victimOf_mem hv)
      · exact joinQueue_bounded hb hfull
    · exact joinQueue_bounded hb hfull

theorem mem_netsHeld {p : Hold → Bool} {n : Net} : n ∈ a.netsHeld p ↔ a.holders[n].any p = true := by
  rw [netsHeld, List.mem_filter]
  exact ⟨And.right, fun h => ⟨List.mem_finRange n, h⟩⟩

/-- Lists cut down, and refilled where holders left. -/
theorem shrink_bounded {a' : Arbiter} {p : Hold → Bool} (hb : a.Bounded b)
    (hh : ∀ n : Net, a'.holders[n].Sublist a.holders[n]) (hw : ∀ n : Net, a'.waits[n].Sublist a.waits[n])
    (hp : ∀ n : Net, a.holders[n].any p = false → a'.holders[n] = a.holders[n]) :
    (a'.refillAll b (a.netsHeld p)).Bounded b := by
  have hloose : ∀ n, LooseAt b a' n := fun n =>
    ⟨(hh n).length_le.trans (hb n).1.1, (hw n).length_le.trans (hb n).1.2⟩
  refine refillAll_bounded _ hloose fun n hn => ⟨hloose n, fun hne => ?_⟩
  rw [mem_netsHeld, Bool.not_eq_true] at hn
  rw [hp n hn]
  refine (hb n).2 fun hnil => hne ?_
  have := hw n
  rw [hnil] at this
  exact List.sublist_nil.mp this

theorem talkRelease_bounded (st : Station) (k : Key) (hb : a.Bounded b) : (a.talkRelease b st k).Bounded b := by
  unfold talkRelease
  dsimp only
  refine bounded_of_eq (setTalk_holders _ _ _ _) (setTalk_waits _ _ _ _) ?_
  split
  · refine shrink_bounded hb (fun n => ?_) (fun n => .refl _) fun n hn => ?_
    · simp only [eraseHolder, Fin.getElem_fin, Vector.getElem_map]
      exact List.erase_sublist
    · simp only [eraseHolder, Fin.getElem_fin, Vector.getElem_map]
      refine List.erase_of_not_mem fun hm => ?_
      rw [List.any_eq_false] at hn
      exact hn _ hm (beq_self_eq_true _)
  · intro n
    have hsub : (a.eraseWaiter ⟨st, k⟩).waits[n].Sublist a.waits[n] := by
      simp only [eraseWaiter, Fin.getElem_fin, Vector.getElem_map]
      exact List.erase_sublist
    refine ⟨⟨(hb n).1.1, hsub.length_le.trans (hb n).1.2⟩, fun hne => (hb n).2 fun hnil => hne ?_⟩
    rw [hnil] at hsub
    exact List.sublist_nil.mp hsub
  · exact hb
  · exact hb
  · exact hb
  · exact hb

theorem purge_sublist (st : Station) (n : Net) :
    (a.purge st).holders[n].Sublist a.holders[n] ∧ (a.purge st).waits[n].Sublist a.waits[n] := by
  simp only [purge, Fin.getElem_fin, Vector.getElem_map]
  exact ⟨List.filter_sublist, List.filter_sublist⟩

theorem withdraw_lists (st : Station) (c : WithdrawCause) (a : Arbiter) :
    (a.withdraw b st c).holders = ((a.purge st).refillAll b (a.netsHeld fun h => h.st == st)).holders
      ∧ (a.withdraw b st c).waits = ((a.purge st).refillAll b (a.netsHeld fun h => h.st == st)).waits := by
  obtain ⟨e1, e2, -⟩ := freeAnnounce_lists st ((a.purge st).refillAll b (a.netsHeld fun h => h.st == st))
  unfold withdraw
  dsimp only
  generalize (a.purge st).refillAll b (a.netsHeld fun h => h.st == st) = a1 at e1 e2 ⊢
  generalize a1.freeAnnounce st = a2 at e1 e2 ⊢
  cases c with
  | mute => exact ⟨e1, e2⟩
  | isolated => dsimp only; rw [endCalls]; exact ⟨e1, e2⟩
  | take => dsimp only; rw [endCalls]; exact ⟨e1, e2⟩

theorem withdraw_bounded (st : Station) (c : WithdrawCause) (hb : a.Bounded b) : (a.withdraw b st c).Bounded b := by
  obtain ⟨e1, e2⟩ := withdraw_lists (b := b) st c a
  refine bounded_of_eq e1 e2 (shrink_bounded hb (fun n => (purge_sublist st n).1) (fun n => (purge_sublist st n).2) fun n hn => ?_)
  simp only [purge, Fin.getElem_fin, Vector.getElem_map]
  refine List.filter_eq_self.mpr fun x hx => ?_
  rw [List.any_eq_false] at hn
  simpa using hn x hx

/-! The queues alone, while a Take is under way. -/

/-- R3: no wait queue is longer than 8. -/
def WaitsFit (a : Arbiter) : Prop := ∀ n : Net, a.waits[n].length ≤ Config.waitLimit

theorem waitsFit_refillAll (ns : List Net) (h : a.WaitsFit) : (a.refillAll b ns).WaitsFit := by
  unfold refillAll
  induction ns generalizing a with
  | nil => exact h
  | cons k ns ih =>
    refine ih fun n => ?_
    obtain ⟨h1, h2⟩ := refillFuel_other (b := b) k a.waits[k].length a
    by_cases hnk : n = k
    · subst hnk
      exact h2.trans (h n)
    · exact (congrArg List.length (h1 n hnk).2).trans_le (h n)

theorem waitsFit_of_eq {a' : Arbiter} (hw : a'.waits = a.waits) (h : a.WaitsFit) : a'.WaitsFit := fun n => by
  rw [hw]
  exact h n

theorem waitsFit_withdraw (st : Station) (c : WithdrawCause) (h : a.WaitsFit) : (a.withdraw b st c).WaitsFit :=
  waitsFit_of_eq (withdraw_lists st c a).2
    (waitsFit_refillAll _ fun n => (purge_sublist st n).2.length_le.trans (h n))

theorem waitsFit_relist {n : Net} {H W : List Hold} (h : a.WaitsFit) (hW : W.length ≤ Config.waitLimit) :
    (a.relist n H W).WaitsFit := by
  intro m
  by_cases hm : m = n
  · subst hm
    rw [(a.relist_self m H W).2]
    exact hW
  · rw [(a.relist_other hm H W).2]
    exact h m

theorem waitsFit_foldl {α : Type} {f : Arbiter → α → Arbiter} (hf : ∀ a x, a.WaitsFit → (f a x).WaitsFit) (l : List α)
    (h : a.WaitsFit) : (l.foldl f a).WaitsFit := by
  induction l generalizing a with
  | nil => exact h
  | cons x l ih => exact ih (hf a x h)

theorem waitsFit_takeStation (h : a.WaitsFit) (st : Station) : (a.takeStation old new st).WaitsFit := by
  obtain e | ⟨-, hw, -⟩ := takeStation_cases old new a st
  · rw [e]
    exact waitsFit_withdraw st .take h
  · exact waitsFit_of_eq hw h

theorem waitsFit_takeNet (h : a.WaitsFit) (n : Net) : (a.takeNet new n).WaitsFit := by
  cases hen : new.nets[n].enabled with
  | true => rwa [takeNet_enabled hen]
  | false =>
    rw [takeNet_disabled hen]
    refine waitsFit_of_eq (a := a.relist n [] []) ?_ (waitsFit_relist h (Nat.zero_le _))
    exact (setTalkAll_lists _ _ _).2.trans (setTalkAll_lists _ _ _).2

theorem waitsFit_takeMapping (h : a.WaitsFit) (n : Net) : (a.takeMapping new n).WaitsFit := by
  intro m
  rw [(takeMapping_entries new a n m).2]
  split
  · exact (List.length_filter_le _ _).trans (h n)
  · exact h m

theorem waitsFit_takeClasses (h : a.WaitsFit) (n : Net) : (a.takeClasses old new n).WaitsFit := by
  unfold takeClasses
  split
  · rw [setWaits_relist]
    refine waitsFit_relist h ?_
    rw [(sortByClass_perm new _).length_eq]
    exact h n
  · exact h

theorem takeSlots_none {n : Net} (h : a.holders[n].length ≤ new.nets[n].slots) : a.takeSlots new n = a := by
  unfold takeSlots
  rw [List.drop_eq_nil_of_le h]
  exact if_pos rfl

theorem takeSlots_some {n : Net} (h : ¬ a.holders[n].length ≤ new.nets[n].slots) :
    a.takeSlots new n = ((a.relist n (a.holders[n].take new.nets[n].slots)
      ((a.holders[n].drop new.nets[n].slots).foldr (insertFront new) a.waits[n])).setTalkAll
        (a.holders[n].drop new.nets[n].slots) .wait).trimWaits n := by
  unfold takeSlots
  refine (if_neg fun he => h ?_).trans rfl
  rwa [List.isEmpty_iff, List.drop_eq_nil_iff] at he

theorem trimWaits_lists (a : Arbiter) (n : Net) :
    (a.trimWaits n).holders[n] = a.holders[n] ∧ (a.trimWaits n).waits[n] = a.waits[n].take Config.waitLimit
      ∧ ∀ m, m ≠ n → (a.trimWaits n).holders[m] = a.holders[m] ∧ (a.trimWaits n).waits[m] = a.waits[m] := by
  rw [trimWaits_eq]
  obtain ⟨e1, e2⟩ := (a.relist n a.holders[n] (a.waits[n].take Config.waitLimit)).setTalkAll_lists
    (a.waits[n].drop Config.waitLimit) .refused
  rw [e1, e2]
  exact ⟨(a.relist_self n _ _).1, (a.relist_self n _ _).2, fun m hm => a.relist_other hm _ _⟩

/-- R21: a net after its new slot count: no more holders than slots, no more than 8 waiters; other nets as they were. -/
theorem takeSlots_lists (new : Bank) (a : Arbiter) (n : Net) :
    (a.takeSlots new n).holders[n].length ≤ new.nets[n].slots
      ∧ (a.waits[n].length ≤ Config.waitLimit → (a.takeSlots new n).waits[n].length ≤ Config.waitLimit)
      ∧ ∀ m, m ≠ n → (a.takeSlots new n).holders[m] = a.holders[m] ∧ (a.takeSlots new n).waits[m] = a.waits[m] := by
  by_cases h : a.holders[n].length ≤ new.nets[n].slots
  · rw [takeSlots_none h]
    exact ⟨h, id, fun m _ => ⟨rfl, rfl⟩⟩
  · rw [takeSlots_some h]
    obtain ⟨e1, e2⟩ := (a.relist n (a.holders[n].take new.nets[n].slots)
      ((a.holders[n].drop new.nets[n].slots).foldr (insertFront new) a.waits[n])).setTalkAll_lists
        (a.holders[n].drop new.nets[n].slots) .wait
    obtain ⟨f1, f2, f3⟩ := trimWaits_lists ((a.relist n (a.holders[n].take new.nets[n].slots)
      ((a.holders[n].drop new.nets[n].slots).foldr (insertFront new) a.waits[n])).setTalkAll
        (a.holders[n].drop new.nets[n].slots) .wait) n
    rw [f1, f2]
    refine ⟨?_, fun _ => List.length_take_le _ _, fun m hm => ?_⟩
    · rw [e1, (a.relist_self n _ _).1]
      exact List.length_take_le _ _
    · rw [(f3 m hm).1, (f3 m hm).2, e1, e2]
      exact a.relist_other hm _ _

theorem takeSlots_foldl (l : List Net) (h : a.WaitsFit) :
    (l.foldl (Arbiter.takeSlots new) a).WaitsFit
      ∧ ∀ n, (n ∈ l ∨ a.holders[n].length ≤ new.nets[n].slots) →
        (l.foldl (Arbiter.takeSlots new) a).holders[n].length ≤ new.nets[n].slots := by
  induction l generalizing a with
  | nil => exact ⟨h, fun n hn => hn.resolve_left List.not_mem_nil⟩
  | cons k l ih =>
    obtain ⟨h1, h2, h3⟩ := takeSlots_lists new a k
    obtain ⟨h4, h5⟩ := ih (a := a.takeSlots new k) fun n => by
      by_cases hnk : n = k
      · subst hnk
        exact h2 (h n)
      · rw [(h3 n hnk).2]
        exact h n
    refine ⟨h4, fun n hn => h5 n ?_⟩
    by_cases hnk : n = k
    · subst hnk
      exact .inr h1
    · rw [(h3 n hnk).1]
      exact hn.imp_left fun hm => (List.mem_cons.mp hm).resolve_left hnk

/-- R18: a Take leaves the lists within the new bank's bounds. -/
theorem applyTake_bounded (h : a.WaitsFit) : (a.applyTake old new).Bounded new := by
  unfold applyTake
  dsimp only
  have h1 := waitsFit_foldl (fun a st ha => waitsFit_takeStation (old := old) (new := new) ha st) allStations h
  have h2 := waitsFit_foldl (fun a n ha => waitsFit_takeNet (new := new) ha n) allNets h1
  have h3 := waitsFit_foldl (fun a n ha => waitsFit_takeMapping (new := new) ha n) allNets h2
  have h4 := waitsFit_foldl (fun a n ha => waitsFit_takeClasses (old := old) (new := new) ha n) allNets h3
  obtain ⟨h5, h6⟩ := takeSlots_foldl (new := new) allNets h4
  exact refillAll_bounded _ (fun n => ⟨h6 n (.inl (List.mem_finRange n)), h5 n⟩) fun n hn => absurd (List.mem_finRange n) hn

theorem Bounded.waitsFit (h : a.Bounded b) : a.WaitsFit := fun n => (h n).1.2

end Arbiter

theorem talkListsOk_iff {s : State} : TalkListsOk s ↔ s.arb.Bounded s.live :=
  forall_congr' fun _ => and_assoc.symm

theorem ArbStep.bounded {b : Bank} {a a' : Arbiter} (h : ArbStep b a a') (ha : a.Bounded b) : a'.Bounded b := by
  cases h with
  | place n st k hkey hs => exact Arbiter.placePress_bounded ha
  | mute st k hs => exact Arbiter.bounded_of_eq rfl rfl ha
  | release st k => exact Arbiter.talkRelease_bounded st k ha
  | withdraw st c => exact Arbiter.withdraw_bounded st c ha
  | quiet _ hh hw ht => exact Arbiter.bounded_of_eq hh hw ha

end Sys2Proof.Machine
end

section
/-! What the parts of a Take other than the talk arbiter's do to the arbiter (they withdraw stations, no more), and the
statement of the talk lists (O59). -/

namespace Sys2Proof.Machine

/-- Stations withdrawn, one after another. -/
inductive Withdrawn (b : Bank) : Arbiter → Arbiter → Prop where
  | refl (a : Arbiter) : Withdrawn b a a
  | step {a a' : Arbiter} (st : Station) (c : WithdrawCause) : Withdrawn b a a' → Withdrawn b a (a'.withdraw b st c)

theorem Withdrawn.trans {b : Bank} {a a' a'' : Arbiter} (h : Withdrawn b a a') (k : Withdrawn b a' a'') : Withdrawn b a a'' := by
  induction k with
  | refl => exact h
  | step st c _ ih => exact .step st c ih

/-- LIVE stands, and nothing but withdrawals happens to the talk arbiter. -/
structure Hushed (s t : State) : Prop where
  live : t.live = s.live
  arb : Withdrawn s.live s.arb t.arb

namespace Hushed

theorem refl (s : State) : Hushed s s := ⟨rfl, .refl _⟩

theorem trans {s t u : State} (h : Hushed s t) (k : Hushed t u) : Hushed s u :=
  ⟨k.live.trans h.live, h.arb.trans (h.live ▸ k.arb)⟩

theorem of_eq {s t : State} (hl : t.live = s.live) (ha : t.arb = s.arb) : Hushed s t := ⟨hl, ha ▸ .refl _⟩

theorem foldl {α : Type} {f : State → α → State} (h : ∀ s a, Hushed s (f s a)) (l : List α) (s : State) :
    Hushed s (l.foldl f s) := by
  induction l generalizing s with
  | nil => exact refl s
  | cons a l ih => exact (h s a).trans (ih (f s a))

end Hushed

theorem SameBlocks.hushed {s t : State} (h : SameBlocks s t) : Hushed s t := .of_eq h.live h.arb

theorem broadcast_hushed (m : Message) (s : State) : Hushed s (broadcast m s) := (broadcast_same m s).hushed

theorem reportCue_hushed (k : Nat) (c : CueIx) (d1 d2 d3 : Nat) (s : State) : Hushed s (reportCue k c d1 d2 d3 s) :=
  (reportCue_same k c d1 d2 d3 s).hushed

theorem reportHoming_hushed (k : Nat) (st : Station) (r : List Byte) (s : State) : Hushed s (reportHoming k st r s) :=
  (reportHoming_same k st r s).hushed

theorem cueEvent_hushed (s : State) : Hushed s (cueEvent s) := by
  unfold cueEvent
  split <;> exact .of_eq rfl rfl

theorem recompute_hushed (c : CueIx) (s : State) : Hushed s (recompute c s) := by
  have hmod : ∀ es : EntryState, Hushed s (s.modEntry c fun e => { e with state := es }) := fun _ => .of_eq rfl rfl
  unfold recompute
  split
  · dsimp only
    split
    · exact (hmod _).trans (reportCue_hushed _ _ _ _ _ _)
    · split
      · exact (hmod _).trans (reportCue_hushed _ _ _ _ _ _)
      · exact .refl s
  · exact .refl s

theorem loseTargets_hushed (p : Station → Lamp → Bool) (s : State) : Hushed s (loseTargets p s) := by
  refine Hushed.foldl (fun t c => Hushed.foldl (fun u x => ?_) _ t) _ s
  have hset : Hushed u ((setTarget c x.1 .lost u).modLamps (·.withdraw c x.1)) := .of_eq rfl rfl
  exact ((hset.trans (reportCue_hushed _ _ _ _ _ _)).trans (cueEvent_hushed _)).trans (recompute_hushed _ _)

theorem restoreTarget_hushed (c : CueIx) (e : CueEntry) (s : State) (x : Nat × Station × Lamp × TargetState) :
    Hushed s (restoreTarget c e s x) := by
  obtain ⟨r, hr⟩ := claimRank_restored e.state e.deadline
  rw [restoreTarget_eq hr]
  have hset : Hushed s (placeClaim c x.1 x.2.1 x.2.2.1 r (setTarget c x.1 (restoredState e.deadline) s)) := .of_eq rfl rfl
  have htold := hset.trans (reportCue_hushed 0xC5 c x.2.1.val x.2.2.1.val 0 _)
  dsimp only
  split
  · exact htold.trans (cueEvent_hushed _)
  · exact htold

theorem cueReturned_hushed (st : Station) (s : State) : Hushed s (cueReturned st s) := by
  refine Hushed.foldl (fun t c => ?_) _ s
  unfold restoreInEntry
  split
  · exact Hushed.foldl (restoreTarget_hushed c _) _ t
  · exact .refl t

theorem setAwaiting_hushed (p : Port) (b : Bool) (s : State) : Hushed s (setAwaiting p b s) := .of_eq rfl rfl

theorem clearAwaiting_hushed (r : StationRecord) (s : State) : Hushed s (clearAwaiting r s) := by
  unfold clearAwaiting
  split
  · exact (setAwaiting_hushed _ _ s).trans (setAwaiting_hushed _ _ _)
  · exact setAwaiting_hushed _ _ s

theorem modHoming_hushed (st : Station) (f : Homing → Homing) (s : State) : Hushed s (s.modHoming st f) := .of_eq rfl rfl

theorem returnOn_hushed (st : Station) (p : Port) (h : HomingState) (s : State) : Hushed s (returnOn st p h s) := by
  unfold returnOn
  exact (((modHoming_hushed _ _ s).trans (setAwaiting_hushed _ _ _)).trans (cueReturned_hushed _ _)).trans
    (reportHoming_hushed _ _ _ _)

theorem tryReturn_hushed (st : Station) (s : State) : Hushed s (tryReturn st s) := by
  unfold tryReturn
  split
  · split
    · exact returnOn_hushed _ _ _ s
    · split
      · split
        · exact returnOn_hushed _ _ _ s
        · exact .refl s
      · exact .refl s
  · exact .refl s

theorem loseAuthority_hushed (r : LossReason) (s : State) : Hushed s (loseAuthority r s) := by
  have hset : Hushed s { s with auth := Authority.init } := .of_eq rfl rfl
  unfold loseAuthority
  split
  · exact hset.trans (broadcast_hushed _ _)
  · exact .refl s

theorem authMoved_hushed (st : Station) (p : Port) (s : State) : Hushed s (authMoved st p s) := by
  have hset : Hushed s (s.modAuth fun a => { a with holder := some p }) := .of_eq rfl rfl
  unfold authMoved
  split
  · split
    · exact hset.trans (broadcast_hushed _ _)
    · exact .refl s
  · exact .refl s

theorem isoPart_hushed (st : Station) (r : IsoReason) (c : Option Port) (x : IsoPart) (s : State) :
    Hushed s (x.take st r c s) := by
  cases x with
  | cue => exact loseTargets_hushed _ s
  | authority =>
    show Hushed s (authIsolated st s)
    unfold authIsolated
    split
    · exact loseAuthority_hushed _ s
    · exact .refl s
  | report => exact reportHoming_hushed _ _ _ s

/-- R149: an isolation withdraws its station. -/
theorem enterIsolated_hushed (st : Station) (r : IsoReason) (c : Option Port) (s : State) : Hushed s (enterIsolated st r c s) := by
  have hstate : Hushed s (isolateState st s) := (modHoming_hushed st _ s).trans (clearAwaiting_hushed _ _)
  have hwithdraw : Hushed s ((isolateState st s).modArb (Arbiter.withdraw s.live st .isolated)) :=
    ⟨hstate.live, .step st .isolated hstate.arb⟩
  unfold enterIsolated
  dsimp only
  exact (inAnyOrder_keeps (P := Hushed s) (fun t n h => h.trans (spend_same n t).hushed)
    (fun x t h => h.trans (isoPart_hushed st r c x t)) _ _ hwithdraw).trans (tryReturn_hushed st _)

theorem linkFault_hushed (st : Station) (s : State) : Hushed s (linkFault st s) := by
  have hprimary : Hushed s (isolatePrimary st s) := (modHoming_hushed st _ s).trans (enterIsolated_hushed _ _ _ _)
  have hspare : Hushed s (isolateSpare st s) := (modHoming_hushed st _ s).trans (enterIsolated_hushed _ _ _ _)
  have hswitch : ∀ sp, Hushed s (startSwitchover st sp s) := fun sp => by
    have hset : Hushed s (restartInput sp (setAwaiting sp true (setAwaiting (s.station st).primary false (s.modHoming st fun h =>
        { h with primFailed := true, state := .switching, active := some sp, switchRem := some Config.switchoverMs })))) :=
      .of_eq rfl rfl
    exact (hset.trans (authMoved_hushed st sp _)).trans (reportHoming_hushed _ _ _ _)
  unfold linkFault
  split
  · split
    · split
      · exact hswitch _
      · exact hprimary
    · exact hprimary
  · exact hspare
  · exact hspare
  · exact .refl s

theorem portsJudged_hushed (st : Station) (s : State) : Hushed s (portsJudged st s) := by
  unfold portsJudged
  split
  · exact tryReturn_hushed st s
  · unfold otherPortJudged
    split
    · split
      · exact linkFault_hushed st s
      · exact .refl s
    · exact .refl s

theorem homingCondEnded_hushed (st : Station) (p : Port) (s : State) : Hushed s (homingCondEnded st p s) := by
  unfold homingCondEnded
  dsimp only
  have hmark : Hushed s (if s.faults.modes.link = .auto then clearMark st p s else s) := by
    split <;> exact .of_eq rfl rfl
  generalize (if s.faults.modes.link = .auto then clearMark st p s else s) = u at hmark ⊢
  refine hmark.trans ?_
  split
  · exact .refl u
  · exact portsJudged_hushed st u

theorem linkRaised_hushed (p : Port) (st : Station) (s : State) : Hushed s (linkRaised p st s) := by
  have hwarn : Hushed s (s.modPortFaults p fun f => { f with linkWarn := true }) := .of_eq rfl rfl
  unfold linkRaised
  dsimp only
  split
  · exact broadcast_hushed _ s
  · exact broadcast_hushed _ s
  · exact hwarn.trans (broadcast_hushed _ _)
  · exact .refl s
  · exact .refl s

theorem linkEnded_hushed (p : Port) (st : Station) (s : State) : Hushed s (linkEnded p st s) := by
  unfold linkEnded
  split
  · exact .refl s
  · exact broadcast_hushed _ s

theorem handCond_hushed (p : Port) (st : Station) (c : Bool) (s : State) : Hushed s (handCond p st c s) := by
  have hset : Hushed s (s.modPortFaults p fun f => { f with linkCond := c }) := .of_eq rfl rfl
  unfold handCond linkBegun
  dsimp only
  split
  · split
    · exact (hset.trans (linkRaised_hushed _ _ _)).trans (linkFault_hushed _ _)
    · exact hset.trans (linkRaised_hushed _ _ _)
  · exact (hset.trans (linkEnded_hushed _ _ _)).trans (homingCondEnded_hushed _ _ _)

theorem superviseCond_hushed (p : Port) (st : Station) (c : Bool) (s : State) : Hushed s (superviseCond p st c s) := by
  have hset : Hushed s (s.modPortFaults p fun f => { f with linkCond := c }) := .of_eq rfl rfl
  unfold superviseCond
  dsimp only
  split
  · exact hset.trans (linkRaised_hushed _ _ _)
  · exact hset.trans (linkEnded_hushed _ _ _)

theorem judgeWith_hushed {hand : Port → Station → Bool → State → State} (h : ∀ p st c s, Hushed s (hand p st c s)) (p : Port)
    (s : State) : Hushed s (judgeWith hand p s) := by
  unfold judgeWith
  split
  · exact .refl s
  · dsimp only
    split
    · exact .refl s
    · refine Hushed.trans ?_ (h _ _ _ _)
      exact .of_eq rfl rfl

theorem portTake_hushed (b : State) (due : Bool) (p : Port) (s : State) : Hushed s (portTake b due p s) := by
  unfold portTake
  split
  · split
    · exact linkEnded_hushed _ _ s
    · exact .refl s
  · exact .refl s
  · split
    · exact judgeWith_hushed superviseCond_hushed p s
    · exact judgeWith_hushed handCond_hushed p s

theorem homingTake_hushed (old new : Bank) (s : State) : Hushed s (homingTake old new s) := by
  unfold homingTake
  dsimp only
  refine (Hushed.foldl (fun t st => ?_) _ s).trans (Hushed.foldl (fun t st => ?_) _ _)
  · exact ((modHoming_hushed st _ t).trans (clearAwaiting_hushed _ _)).trans (clearAwaiting_hushed _ _)
  · unfold takeLinkFault
    split
    · exact linkFault_hushed st t
    · exact .refl t

/-- The parts of a Take but the talk arbiter's only withdraw stations from talk. -/
theorem takePart_hushed {b : State} {due : Bool} {x : TakePart} (hx : x ≠ .arbiter) (s : State) :
    Hushed s (x.take b due s) := by
  cases x with
  | arbiter => exact absurd rfl hx
  | homing => exact homingTake_hushed _ _ s
  | cue => exact loseTargets_hushed _ s
  | lamps =>
    have harb : TakePart.take b due .lamps s = s.modLamps (LampState.applyTake b.live s.live) := by rw [TakePart.take]
    rw [harb]
    exact .of_eq (State.modLamps_live _ _) (State.modLamps_arb _ _)
  | authority =>
    show Hushed s (authTake b.live s.live b.homing s)
    unfold authTake
    split
    · exact .refl s
    · split
      · exact .of_eq rfl rfl
      · exact loseAuthority_hushed _ s
  | faults =>
    have hfaults : TakePart.take b due .faults s = { s with faults := s.faults.applyTake b.live s.live } := by
      rw [TakePart.take]
    rw [hfaults]
    generalize s.faults.applyTake b.live s.live = f
    exact .of_eq rfl rfl
  | port p => exact portTake_hushed _ _ _ s

/-! The talk lists through a Take. -/

/-- What withdrawals keep before the arbiter's part of a Take and its steps keep after it. -/
structure TalkKept (old new : Bank) (Pre Post : Arbiter → Prop) : Prop where
  withdraw : ∀ a st c, Pre a → Pre (a.withdraw new st c)
  step : ∀ a a', ArbStep new a a' → Post a → Post a'
  turn : ∀ a, Pre a → Post (a.applyTake old new)

theorem TalkKept.pre {old new : Bank} {Pre Post : Arbiter → Prop} (k : TalkKept old new Pre Post) {a a' : Arbiter}
    (h : Withdrawn new a a') (ha : Pre a) : Pre a' := by
  induction h with
  | refl => exact ha
  | step st c _ ih => exact k.withdraw _ st c ih

theorem TalkKept.post {old new : Bank} {Pre Post : Arbiter → Prop} (k : TalkKept old new Pre Post) {a a' : Arbiter}
    (h : ArbReach new a a') (ha : Post a) : Post a' := by
  induction h with
  | refl => exact ha
  | tail _ hs ih => exact k.step _ _ hs ih

/-- The arbiter while parts of a Take are left. -/
def TalkLeft (new : Bank) (Pre Post : Arbiter → Prop) (l : List TakePart) (s : State) : Prop :=
  l.Nodup ∧ s.live = new ∧ (TakePart.arbiter ∈ l → Pre s.arb) ∧ (TakePart.arbiter ∉ l → Post s.arb)

theorem talkLeft_part {b : State} {new : Bank} {Pre Post : Arbiter → Prop} (k : TalkKept b.live new Pre Post)
    {l : List TakePart} {x : TakePart} {due : Bool} {s : State} (hx : x ∈ l) (hs : TalkLeft new Pre Post l s) :
    TalkLeft new Pre Post (l.erase x) (x.take b due s) := by
  obtain ⟨hnodup, hlive, hpre, hpost⟩ := hs
  by_cases hxa : x = .arbiter
  · subst hxa
    subst hlive
    have harb : TakePart.take b due .arbiter s = s.modArb (Arbiter.applyTake b.live s.live) := by rw [TakePart.take]
    rw [harb]
    refine ⟨hnodup.erase _, State.modArb_live _ _, fun h => absurd h hnodup.not_mem_erase, fun _ => ?_⟩
    rw [State.modArb_arb]
    exact k.turn _ (hpre hx)
  · have hhush := takePart_hushed (b := b) (due := due) hxa s
    have hord := takePart_ordered (b := b) (due := due) hxa s
    refine ⟨hnodup.erase x, hhush.live.trans hlive, fun h => ?_, fun h => ?_⟩
    · rw [List.mem_erase_of_ne (Ne.symm hxa)] at h
      exact k.pre (hlive ▸ hhush.arb) (hpre h)
    · rw [List.mem_erase_of_ne (Ne.symm hxa)] at h
      exact k.post (hlive ▸ hord.talk) (hpost h)

theorem handTake_talk {b s : State} {Pre Post : Arbiter → Prop} (k : TalkKept b.live s.live Pre Post) (hs : Pre s.arb) :
    (handTake b s).live = s.live ∧ Post (handTake b s).arb := by
  have hstart : TalkLeft s.live Pre Post (allTakeParts.filter (TakePart.shows b s)) s := by
    refine ⟨allTakeParts_nodup.filter _, rfl, fun _ => hs, fun hno => ?_⟩
    have hquiet : Arbiter.applyTake b.live s.live s.arb = s.arb := by
      by_contra hne
      exact hno (List.mem_filter.mpr ⟨by simp [allTakeParts], by simpa [TakePart.shows] using hne⟩)
    exact hquiet ▸ k.turn _ hs
  have hleft : TalkLeft s.live Pre Post [] (handTake b s) := by
    refine takeParts_rest (I := TalkLeft s.live Pre Post) (fun l t n ht => ?_)
      (fun l x t hx => talkLeft_part k (takeReady_sub hx)) _ _ s rfl hstart
    have hsp := spend_same n t
    obtain ⟨h1, h2, h3, h4⟩ := ht
    rw [TalkLeft, hsp.live, hsp.arb]
    exact ⟨h1, h2, h3, h4⟩
  exact ⟨hleft.2.1, hleft.2.2.2 List.not_mem_nil⟩

theorem talkKept_bounded (old new : Bank) : TalkKept old new Arbiter.WaitsFit (Arbiter.Bounded new) where
  withdraw _ st c h := Arbiter.waitsFit_withdraw st c h
  step _ _ hs h := hs.bounded h
  turn _ h := Arbiter.applyTake_bounded h

theorem talkKept_agrees (old new : Bank) : TalkKept old new (Arbiter.Agrees old) (Arbiter.Agrees new) where
  withdraw _ st c h := h.withdraw st c
  step _ _ hs h := hs.agrees h
  turn _ h := h.applyTake

/-! The invariants. -/

theorem ArbReach.bounded {b : Bank} {a a' : Arbiter} (h : ArbReach b a a') (ha : a.Bounded b) : a'.Bounded b := by
  induction h with
  | refl => exact ha
  | tail _ hs ih => exact hs.bounded ih

theorem bounded_init (b : Bank) : Arbiter.init.Bounded b := by
  intro n
  simp [Arbiter.BoundedAt, Arbiter.LooseAt, Arbiter.init]

/-- What is left to show of an invariant of LIVE and the talk arbiter. -/
theorem keptReads_talk {Q : Bank → Arbiter → Prop} {Pre : Bank → Arbiter → Prop} (hinit : ∀ b, Q b Arbiter.init)
    (hreach : ∀ b a a', ArbReach b a a' → Q b a → Q b a') (hpre : ∀ b a, Q b a → Pre b a)
    (htake : ∀ old new, TalkKept old new (Pre old) (Q new)) : KeptReads fun s => Q s.live s.arb where
  reads s t h hs := by rw [h.live, h.arb]; exact hs
  event s t h hs := by rw [h.stays.live]; exact hreach _ _ _ h.talk hs
  grant p f s hs := by
    have h := claim_ordered p f s
    rw [h.stays.live]
    exact hreach _ _ _ h.talk hs
  powerOn s _ := hinit _
  lineReset s _ := hinit _
  softReset s _ := hinit _
  opens s hs := by
    rw [openCompletion_live]
    refine hreach _ _ _ (.step (.quiet s.arb _ ?_ ?_ ?_)) hs <;> rw [openCompletion]
  copyTake o s hs := by
    obtain ⟨t, ht, hsame⟩ := copyTake_eq o s
    have hlive : t.live = s.edit := hsame.live.trans (unjudgePorts_live _ _ _)
    have harb : t.arb = s.arb := hsame.arb.trans (unjudgePorts_arb _ _ _)
    obtain ⟨h1, h2⟩ := handTake_talk (htake s.live t.live) (harb ▸ hpre _ _ hs)
    rw [ht, h1]
    exact h2
  entry t y i bs s hs := by
    obtain ⟨h1, -, -, h2⟩ := writeEntry_aside t y i bs s
    rw [h1, h2]
    exact hs
  revert s hs := hs

theorem bounded_kept : KeptReads fun s => s.arb.Bounded s.live :=
  keptReads_talk (Q := fun b a => a.Bounded b) (Pre := fun _ => Arbiter.WaitsFit) bounded_init
    (fun _ _ _ => ArbReach.bounded) (fun _ _ h => h.waitsFit) talkKept_bounded

theorem agrees_kept : KeptReads fun s => s.arb.Agrees s.live :=
  keptReads_talk (Q := fun b a => a.Agrees b) (Pre := fun b a => a.Agrees b) agrees_init (fun _ _ _ => ArbReach.agrees)
    (fun _ _ h => h) talkKept_agrees

/-- Settles O59. -/
theorem talkListsKeepTheirBounds : Obligations.TalkListsKeepTheirBounds :=
  ⟨fun _ _ hs e => talkListsOk_iff.mpr (bounded_kept.core.step (fun _ _ h => h) (talkListsOk_iff.mp hs) e),
    fun _ _ hs e => agrees_kept.core.step (fun _ _ h => h) hs e, fun _ _ _ h => h.applyTake⟩

end Sys2Proof.Machine
end

section
/-! The stages of a block completion one by one (R38), and the duck gains it leaves (R47, R48). -/

namespace Sys2Proof.Machine

/-! The state between the stages. -/

/-- A completion's state once its frames are sent, and what waited for them is placed. -/
def framesSent (c : State) : State :=
  noteReset (setSlots c).resetLeaves (placeTakeWaiting (sendFrames (setSlots c).computeMix.listen (setSlots c)))

/-- A completion's state once its mix, its marks and its measurement are put, before the port units count. -/
def mixPut (c : State) : State :=
  putMeter (setSlots c).computeMix (putMarks (putMix (setSlots c).computeMix (framesSent c)))

theorem composeCompletion_eq (c : State) :
    composeCompletion c = { tickPorts (mixPut c) with opened := false, takeDue := false } := rfl

theorem blockCompletion_eq (s : State) : blockCompletion s = composeCompletion s.composed := rfl

/-- A completion from a calm state, by its stages. -/
theorem exec_completion {s : State} (h : Calm s) :
    exec .blockCompletion s =
      .next { tickPorts (mixPut s.composed) with opened := false, takeDue := false } := by
  rw [exec_blockCompletion_calm h, blockCompletion_eq, composeCompletion_eq]

/-! What the stages leave alone. -/

theorem framesSent_same (c : State) :
    SameBlocks (sendFrames (setSlots c).computeMix.listen (setSlots c)) (framesSent c) :=
  (placeTakeWaiting_same _).trans (noteReset_same _ _)

theorem putMix_stays (r : MixResult) (s : State) : Stays { s with mix := { duck := r.duck, clip := r.clip } } (putMix r s) :=
  Stays.foldl (fun t st => clipPresent_stays st t) _ _

theorem portTick_stays (p : Port) (s : State) : Stays (s.modPort p PortUnit.tick) (portTick p s) := judgePort_stays p _

theorem mixPut_mix (c : State) :
    (mixPut c).mix = { duck := (setSlots c).computeMix.duck, clip := (setSlots c).computeMix.clip } := by
  unfold mixPut
  rw [(putMeter_same _ _).mix, (putMarks_stays _).mix, (putMix_stays _ _).mix]

/-- What a port's tick leaves alone, the ticks of a completion leave alone. -/
theorem tickPorts_keeps {P : State → Prop} (hspend : ∀ s n, P s → P (s.spend n)) (h : ∀ p s, P s → P (portTick p s)) {s : State}
    (hs : P s) : P (tickPorts s) :=
  inAnyOrder_keeps hspend h _ _ (foldl_keeps (fun t p ht => h p t ht) _ hs)

theorem tickPorts_mix (s : State) : (tickPorts s).mix = s.mix := by
  refine tickPorts_keeps (P := fun t => t.mix = s.mix) (fun t n ht => ?_) (fun p t ht => ?_) rfl
  · rw [(spend_stays n t).mix, ht]
  · rw [(portTick_stays p t).mix]
    exact ht

/-! The duck gains (R47, R48). -/

theorem setSlots_station (c : State) (st : Station) : (setSlots c).station st = c.station st := by
  rw [State.station, setSlots_live]
  rfl

theorem duckTarget_eq (s : State) (st : Station) :
    s.duckTarget st = if ∃ n : Net, 0 < (s.live.cell st n).level ∧ (s.net n).enabled = true ∧ (s.net n).progDuck = true
      ∧ ∃ h ∈ s.arb.holders[n], h.st ≠ st then (s.station st).duckDepth else 256 := by
  rw [State.duckTarget]
  congr 1
  simp [allNets, State.ducks, and_assoc]

theorem listener_iff (s : State) (st : Station) :
    s.listener st = true
      ↔ (s.station st).enabled = true ∧ (s.station st).kind.talks = true ∧ s.homing[st].state ≠ .isolated := by
  simp [State.listener, State.isolated, and_assoc]

/-- The gains read nothing of the port units. -/
theorem setSlots_duckNext (c : State) (st : Station) : (setSlots c).duckNext st = c.duckNext st := by
  have h : ∀ v, ({ c with ports := v } : State).duckNext st = c.duckNext st := fun v => rfl
  exact h _

theorem composeCompletion_duck (c : State) (st : Station) :
    (composeCompletion c).mix.duck[st] = c.duckNext st := by
  rw [composeCompletion_eq]
  dsimp only
  rw [tickPorts_mix, mixPut_mix, ← setSlots_duckNext]
  simp [State.computeMix]

/-- Settles O11: the gains come from the state that the completion is composed from, and no later stage touches them. -/
theorem completionMovesTheDuckGains : Obligations.CompletionMovesTheDuckGains := by
  intro s h
  refine ⟨_, exec_blockCompletion_calm h, fun st => ?_⟩
  dsimp only
  rw [blockCompletion_eq, composeCompletion_duck, State.duckNext, ← duckTarget_eq]
  simp only [listener_iff]
  rfl

end Sys2Proof.Machine
end

section
/-! The downlink frames of a completion (R140, R182) and the listen blocks in them (R43 to R51). -/

namespace Sys2Proof.Machine

/-! What is sent is what the frames' stage sent. -/

theorem placeResponse_sent {p : Port} {m : Message} {s t : State} (h : placeResponse p m s = some t) : t.sent = s.sent := by
  obtain ⟨o, -, rfl⟩ := Option.map_eq_some_iff.mp h
  rfl

theorem placeTakeWaiting_sent (s : State) : (placeTakeWaiting s).sent = s.sent := by
  unfold placeTakeWaiting
  refine foldl_keeps (P := fun t => t.sent = s.sent) (fun t w ht => ?_) _ rfl
  split
  · split
    · next t' h => rw [placeResponse_sent h, ht]
    · exact ht
  · exact ht

theorem noteReset_sent (b : Bool) (s : State) : (noteReset b s).sent = s.sent := by
  unfold noteReset
  split <;> rfl

theorem tickPorts_sent (s : State) : (tickPorts s).sent = s.sent := by
  refine tickPorts_keeps (P := fun t => t.sent = s.sent) (fun t n ht => ?_) (fun p t ht => ?_) rfl
  · rw [(spend_stays n t).sent, ht]
  · rw [(portTick_stays p t).sent]
    exact ht

theorem mixPut_sent (c : State) : (mixPut c).sent = (framesSent c).sent := by
  unfold mixPut
  have hmeter : ∀ r t, (putMeter r t).sent = t.sent := fun r t => rfl
  rw [hmeter, (putMarks_stays _).sent, (putMix_stays _ _).sent]

theorem composeCompletion_sent (c : State) (p : Port) :
    (composeCompletion c).sent[p] = (setSlots c).frame (setSlots c).computeMix.listen p := by
  rw [composeCompletion_eq]
  dsimp only
  rw [tickPorts_sent, mixPut_sent, framesSent, noteReset_sent, placeTakeWaiting_sent, sendFrames_sent]

/-! The layout of a frame (R182). -/

theorem crcBytes_length (w : Word) : (crcBytes w).length = 2 := rfl

theorem frame_take_body (s : State) (listen : Vector (Option Block) 24) (p : Port) :
    (s.frame listen p).take ((s.frame listen p).length - 2) = s.frameBody listen p := by
  unfold State.frame
  dsimp only
  rw [List.length_append, crcBytes_length, Nat.add_sub_cancel, List.take_left]

theorem frame_eq (s : State) (listen : Vector (Option Block) 24) (p : Port) :
    s.frame listen p = s.ports[p].downSeq :: (s.indications p ++ (listenBytes (s.listenFor listen p)
      ++ (areaOf (s.leaving p) ++ crcBytes (crc crcStart (s.frameBody listen p))))) := by
  have hbody : s.frameBody listen p = s.ports[p].downSeq
      :: (s.indications p ++ (listenBytes (s.listenFor listen p) ++ areaOf (s.leaving p))) :=
    congrArg _ (List.append_assoc ..)
  unfold State.frame
  dsimp only
  generalize crcBytes (crc crcStart (s.frameBody listen p)) = check
  rw [hbody]
  simp only [List.cons_append, List.append_assoc]

theorem leaving_area_length (s : State) (p : Port) : (areaOf (s.leaving p)).length = 64 :=
  areaOf_length (fillArea_fits 64 s.out[p].queue)

theorem frameBody_area (s : State) (listen : Vector (Option Block) 24) (p : Port) :
    ((s.frameBody listen p).drop ((s.frameBody listen p).length - 64)).take 64 = areaOf (fillArea 64 s.out[p].queue).1 := by
  have hbody : s.frameBody listen p
      = (s.ports[p].downSeq :: (s.indications p ++ listenBytes (s.listenFor listen p))) ++ areaOf (s.leaving p) := rfl
  rw [hbody, List.length_append, leaving_area_length, Nat.add_sub_cancel, List.drop_left,
    List.take_of_length_le (leaving_area_length s p).le]
  rfl

/-! The calls a station shows (R108). -/

theorem callEntry_length {n : Net} {c : CallState} (h : c ≠ .idle) : (callEntry n c).length = 2 := by
  cases c with
  | idle => exact absurd rfl h
  | calling st k => rfl
  | holding st r => cases st <;> rfl

theorem callEntries_length {s : State} {st : Station} {e : List Byte} (h : e ∈ s.callEntries st) : e.length = 2 := by
  unfold State.callEntries at h
  split at h
  · obtain ⟨n, hn, rfl⟩ := List.mem_map.mp h
    obtain ⟨-, hn⟩ := List.mem_filter.mp hn
    exact callEntry_length (of_decide_eq_true (Bool.and_eq_true_iff.mp hn).2)
  · cases h

theorem flatten_length_of_two {l : List (List Byte)} (h : ∀ e ∈ l, e.length = 2) : l.flatten.length = 2 * l.length := by
  induction l with
  | nil => rfl
  | cons e l ih =>
    rw [List.flatten_cons, List.length_append, ih fun x hx => h x (List.mem_cons_of_mem _ hx), h e List.mem_cons_self,
      List.length_cons]
    omega

theorem callBytes_eq {es : List (List Byte)} (h : ∀ e ∈ es, e.length = 2) :
    callBytes es = byteOf (es.take 4).length :: ((es.take 4).flatten ++ List.replicate (8 - 2 * (es.take 4).length) 0) := by
  unfold callBytes
  dsimp only
  rw [flatten_length_of_two fun e he => h e (List.mem_of_mem_take he)]

theorem callBytes_length {es : List (List Byte)} (h : ∀ e ∈ es, e.length = 2) : (callBytes es).length = 9 := by
  rw [callBytes_eq h, List.length_cons, List.length_append, List.length_replicate,
    flatten_length_of_two fun e he => h e (List.mem_of_mem_take he)]
  have : (es.take 4).length ≤ 4 := List.length_take_le ..
  omega

theorem indications_length (s : State) (p : Port) : (s.indications p).length = 16 := by
  have hcalls : (s.callsShown (s.live.serves p)).length = 9 := by
    unfold State.callsShown
    split
    · exact callBytes_length fun e he => callEntries_length he
    · exact callBytes_length fun e he => by cases he
  unfold State.indications
  dsimp only
  rw [List.length_append, hcalls]
  rfl

theorem frame_indications (s : State) (listen : Vector (Option Block) 24) (p : Port) :
    ((s.frame listen p).drop 1).take 16 = s.indications p := by
  rw [frame_eq, List.drop_succ_cons, List.drop_zero, List.take_left' (indications_length s p)]

theorem frame_listen (s : State) (listen : Vector (Option Block) 24) (p : Port) (n : Nat)
    (hn : (listenBytes (s.listenFor listen p)).length = n) :
    ((s.frame listen p).drop 17).take n = listenBytes (s.listenFor listen p) := by
  rw [frame_eq, List.drop_succ_cons, List.drop_left' (indications_length s p), List.take_left' hn]

/-! The listen block (R140). -/

theorem sampleBytes_flatten_length (l : List Sample) : (l.map sampleBytes).flatten.length = 2 * l.length := by
  rw [flatten_length_of_two fun e he => ?_, List.length_map]
  obtain ⟨x, -, rfl⟩ := List.mem_map.mp he
  rfl

theorem listenBytes_length (o : Option Block) : (listenBytes o).length = if o.isSome then 49 else 1 := by
  cases o with
  | none => rfl
  | some b =>
    unfold listenBytes
    rw [List.length_cons, sampleBytes_flatten_length, Vector.length_toList]
    rfl

theorem computeMix_listen (c : State) (st : Station) :
    c.computeMix.listen[st] = c.listenBlock c.mixInput c.computeMix.duck[st] st := by
  simp [State.computeMix]

/-- Only the active port of a listener carries a block. -/
theorem listenFor_isSome (c : State) (p : Port) :
    (c.listenFor c.computeMix.listen p).isSome = (c.activeOf p).any c.listener := by
  unfold State.listenFor
  cases c.activeOf p with
  | none => rfl
  | some st =>
    dsimp only
    rw [computeMix_listen, State.listenBlock, Option.any_some]
    split
    · next h => rw [h]; rfl
    · next h => rw [Bool.not_eq_true] at h; rw [h]; rfl

theorem frame_length (c : State) (p : Port) :
    (c.frame c.computeMix.listen p).length = if (c.activeOf p).any c.listener then 132 else 84 := by
  rw [frame_eq, List.length_cons, List.length_append, List.length_append, List.length_append, indications_length,
    leaving_area_length, crcBytes_length, listenBytes_length, listenFor_isSome]
  split <;> rfl

/-! The indications byte by byte (R106 to R110). -/

theorem talks_eq (k : Kind) : (decide (k = .desk) || decide (k = .panel) || decide (k = .beltpack)) = k.talks := by
  cases k <;> rfl

theorem indications_none {s : State} {p : Port} (h : s.live.serves p = none) :
    s.indications p = [if s.isMgmt p then s.managementView p else 0, 0, 0, 0, 0, 0,
      byteOf (if s.isMgmt p then 128 else 0)] ++ List.replicate 9 0 := by
  unfold State.indications State.summary
  rw [h]
  rfl

theorem talkShown_eq (s : State) (st : Station) (k : Key) :
    (if decide ((s.station st).kind = .desk) || decide ((s.station st).kind = .panel)
        || decide ((s.station st).kind = .beltpack) then
      match s.arb.talk[st][k] with
      | .live => 1
      | .wait => 2
      | .refused => 3
      | .muted => 4
      | .off => 0
      | .dropped => 0
    else 0) = s.talkShown (some st) k := by
  rw [talks_eq, State.talkShown]
  cases s.arb.talk[st][k] <;> rfl

theorem lampShown_eq (s : State) (st : Station) (j : Lamp) :
    (match s.lamps.shown st j with
      | .off => 0
      | .ready => 1
      | .standby => 2
      | .late => 3
      | .go => 4
      | .test => 5) = s.lampShown (some st) j := by
  rw [State.lampShown]
  cases s.lamps.shown st j <;> rfl

theorem announceShown_eq (s : State) (st : Station) :
    (match s.arb.ann[st] with
      | .inChannel => 1
      | .refused => 2
      | .none => 0
      | .dropped => 0) = s.announceShown (some st) := by
  rw [State.announceShown]
  cases s.arb.ann[st] <;> rfl

theorem homingCode_eq (h : HomingState) :
    (match h with
      | .onPrimary => 1
      | .switching => 2
      | .onSpare => 3
      | .isolated => 4) = h.code := by
  cases h <;> rfl

theorem callEntry_eq (n : Net) (c : CallState) :
    (match c with
      | .calling u _ => [byteOf n.val, byteOf u.val]
      | .holding (some u) _ => [byteOf (n.val + 16), byteOf u.val]
      | .holding none _ => [byteOf (n.val + 16), 0xFF]
      | .idle => []) = callEntry n c := by
  cases c with
  | holding u r => cases u <;> rfl
  | calling u k => rfl
  | idle => rfl

theorem callEntries_eq (s : State) (st : Station) :
    (if ((decide ((s.station st).kind = .desk) || decide ((s.station st).kind = .panel)
        || decide ((s.station st).kind = .beltpack)) && decide (s.homing[st].state ≠ .isolated)) = true then
      ((allNets.filter fun n => decide (0 < (s.live.cell st n).level) && decide (s.arb.calls[n] ≠ .idle)).map fun n =>
        match s.arb.calls[n] with
        | .calling u _ => [byteOf n.val, byteOf u.val]
        | .holding (some u) _ => [byteOf (n.val + 16), byteOf u.val]
        | .holding none _ => [byteOf (n.val + 16), 0xFF]
        | .idle => []).take 4
    else []) = (s.callEntries st).take 4 := by
  rw [talks_eq, State.callEntries, State.isolated, ← decide_not]
  split
  · exact congrArg (List.take 4) (List.map_congr_left fun n _ => callEntry_eq n _)
  · rfl

/-- Settles O13: the frame sent is the frame of the state at the frames' stage, part by part. -/
theorem completionSendsEveryPortAFrame : Obligations.CompletionSendsEveryPortAFrame := by
  intro s h
  refine ⟨_, exec_blockCompletion_calm h, fun p => ?_⟩
  rw [blockCompletion_eq, composeCompletion_sent]
  generalize setSlots s.composed = c
  dsimp only
  rw [frame_take_body]
  refine ⟨frame_length c p, ?_, fun hn => ?_, fun st hst => ?_, frameBody_area c _ p, rfl⟩
  · rw [frame_eq]
    rfl
  · rw [frame_indications, indications_none hn]
  · have hcalls := callBytes_eq (es := c.callEntries st) fun e he => callEntries_length he
    rw [frame_indications, State.indications, hst, State.summary, hst]
    dsimp only
    rw [State.callsShown, hcalls, ← callEntries_eq, ← talkShown_eq, ← talkShown_eq, ← talkShown_eq, ← talkShown_eq,
      ← lampShown_eq, ← lampShown_eq, ← lampShown_eq, ← lampShown_eq, ← announceShown_eq, State.homingByte]
    rw [← homingCode_eq]
    rfl

end Sys2Proof.Machine
end

section
/-! What the cue controller's and the homing controller's events can change (R72 to R99, R142 to R154): `CueOnly` and
`Moves`. -/

namespace Sys2Proof.Machine

/-! The cue controller's own events. -/

/-- `t` differs from `s` in the active list, the claims, the CUE warn flag and the reports alone. -/
def CueOnly (s t : State) : Prop :=
  t = { s with cues := t.cues, out := t.out, lamps := { s.lamps with claims := t.lamps.claims },
               faults := { s.faults with cueWarn := t.faults.cueWarn } }

namespace CueOnly

theorem refl (s : State) : CueOnly s s := rfl

theorem trans {s t u : State} (h : CueOnly s t) (k : CueOnly t u) : CueOnly s u := by
  unfold CueOnly at h k ⊢
  calc u = _ := k
    _ = _ := congrArg (fun v : State => { v with
      cues := u.cues, out := u.out, lamps := { v.lamps with claims := u.lamps.claims },
      faults := { v.faults with cueWarn := u.faults.cueWarn } }) h

theorem foldl {α : Type} {f : State → α → State} (h : ∀ s a, CueOnly s (f s a)) (l : List α) (s : State) :
    CueOnly s (l.foldl f s) := by
  induction l generalizing s with
  | nil => exact refl s
  | cons a l ih => exact (h s a).trans (ih (f s a))

variable {s t : State} (h : CueOnly s t)
include h

theorem live : t.live = s.live := by rw [h]

theorem arb : t.arb = s.arb := by rw [h]

theorem homing : t.homing = s.homing := by rw [h]

theorem auth : t.auth = s.auth := by rw [h]

theorem freeCount : t.freeCount = s.freeCount := by rw [h]

theorem table : t.table = s.table := by rw [h]

theorem ports : t.ports = s.ports := by rw [h]

theorem modes : t.faults.modes = s.faults.modes := by rw [h]

theorem stations : t.faults.stations = s.faults.stations := by rw [h]

theorem cueRec (c : CueIx) : t.cueRec c = s.cueRec c := by rw [State.cueRec, h.table, State.cueRec]

theorem inService (st : Station) (j : Lamp) : t.inService st j = s.inService st j := by
  unfold State.inService State.station State.isolated
  rw [h.live, h.homing]

end CueOnly

theorem setOut_only (v : Vector Outbound 24) (s : State) : CueOnly s { s with out := v } := rfl

theorem broadcast_only (m : Message) (s : State) : CueOnly s (broadcast m s) := setOut_only _ s

theorem cueReport_only (m : Message) (s : State) : CueOnly s (cueReport m s) := by
  unfold cueReport
  split
  · exact setOut_only _ s
  · exact .refl s

theorem reportCue_only (k : Nat) (c : CueIx) (d1 d2 d3 : Nat) (s : State) : CueOnly s (reportCue k c d1 d2 d3 s) :=
  cueReport_only _ s

theorem cueEvent_only (s : State) : CueOnly s (cueEvent s) := by
  unfold cueEvent
  split
  · exact rfl
  · exact .refl s

theorem modEntry_only (c : CueIx) (f : CueEntry → CueEntry) (s : State) : CueOnly s (s.modEntry c f) := rfl

theorem setTarget_only (c : CueIx) (i : Nat) (y : TargetState) (s : State) : CueOnly s (setTarget c i y s) := rfl

theorem modLamps_only {f : LampState → LampState} {s : State} (ht : (f s.lamps).test = s.lamps.test)
    (hr : (f s.lamps).timer = s.lamps.timer) : CueOnly s (s.modLamps f) := by
  have h : f s.lamps = { s.lamps with claims := (f s.lamps).claims } := by
    dsimp only
    rw [← ht, ← hr]
  exact congrArg (fun l : LampState => { s with lamps := l }) h

theorem placeClaim_only (c : CueIx) (i : Nat) (st : Station) (j : Lamp) (r : Rank) (s : State) :
    CueOnly s (placeClaim c i st j r s) := by
  refine modLamps_only ?_ ?_ <;> unfold LampState.place <;> split <;> rfl

theorem withdrawClaim_only (c : CueIx) (i : Nat) (s : State) : CueOnly s (s.modLamps (·.withdraw c i)) :=
  modLamps_only rfl rfl

theorem recompute_only (c : CueIx) (s : State) : CueOnly s (recompute c s) := by
  unfold recompute
  split
  · dsimp only
    split
    · exact (modEntry_only c _ s).trans (reportCue_only _ _ _ _ _ _)
    · split
      · exact (modEntry_only c _ s).trans (reportCue_only _ _ _ _ _ _)
      · exact .refl s
  · exact .refl s

theorem loseTarget_only (c : CueIx) (s : State) (x : Nat × Station × Lamp × TargetState) : CueOnly s (loseTarget c s x) :=
  ((((setTarget_only c _ _ s).trans (withdrawClaim_only c _ _)).trans (reportCue_only _ _ _ _ _ _)).trans
    (cueEvent_only _)).trans (recompute_only c _)

theorem loseTargets_only (p : Station → Lamp → Bool) (s : State) : CueOnly s (loseTargets p s) :=
  .foldl (fun t c => .foldl (loseTarget_only c) _ t) _ s

theorem restoreTarget_only (c : CueIx) (e : CueEntry) (s : State) (x : Nat × Station × Lamp × TargetState) :
    CueOnly s (restoreTarget c e s x) := by
  obtain ⟨r, hr⟩ := claimRank_restored e.state e.deadline
  rw [restoreTarget_eq hr]
  have hplaced := ((setTarget_only c x.1 (restoredState e.deadline) s).trans
    (placeClaim_only c x.1 x.2.1 x.2.2.1 r _)).trans (reportCue_only 0xC5 c x.2.1.val x.2.2.1.val 0 _)
  split
  · exact hplaced.trans (cueEvent_only _)
  · exact hplaced

theorem cueReturned_only (st : Station) (s : State) : CueOnly s (cueReturned st s) := by
  refine .foldl (fun t c => ?_) _ s
  unfold restoreInEntry
  split
  · exact .foldl (restoreTarget_only c _) _ t
  · exact .refl t

theorem lateTarget_only (c : CueIx) (s : State) (x : Nat × Station × Lamp × TargetState) : CueOnly s (lateTarget c s x) := by
  unfold lateTarget
  dsimp only
  split
  · exact (((setTarget_only c _ _ s).trans (placeClaim_only c _ _ _ _ _)).trans (reportCue_only _ _ _ _ _ _)).trans
      (cueEvent_only _)
  · exact .refl s

/-! The entries that stand, each with its deadline. -/

/-- The same cues stand in the list, in the same order and with the same deadlines. -/
def SameEntries (s t : State) : Prop :=
  t.cues.map (fun e => (e.cue, e.deadline)) = s.cues.map fun e => (e.cue, e.deadline)

theorem sameEntries_of_cues {s t : State} (h : t.cues = s.cues) : SameEntries s t := by rw [SameEntries, h]

theorem SameEntries.trans {s t u : State} (h : SameEntries s t) (k : SameEntries t u) : SameEntries s u := Eq.trans k h

theorem SameEntries.foldl {α : Type} {f : State → α → State} (h : ∀ s a, SameEntries s (f s a)) (l : List α) (s : State) :
    SameEntries s (l.foldl f s) :=
  foldl_keeps (P := SameEntries s) (fun t a ht => ht.trans (h t a)) l rfl

theorem modEntry_sameEntries {c : CueIx} {f : CueEntry → CueEntry} (hf : ∀ e, (f e).cue = e.cue ∧ (f e).deadline = e.deadline)
    (s : State) : SameEntries s (s.modEntry c f) := by
  unfold SameEntries State.modEntry
  rw [List.map_map]
  refine List.map_congr_left fun e _ => ?_
  dsimp only [Function.comp]
  split
  · rw [(hf e).1, (hf e).2]
  · rfl

theorem setTarget_sameEntries (c : CueIx) (i : Nat) (y : TargetState) (s : State) : SameEntries s (setTarget c i y s) :=
  modEntry_sameEntries (f := fun e => { e with targets := e.targets.set i y }) (by intro; exact ⟨rfl, rfl⟩) s

theorem recompute_sameEntries (c : CueIx) (s : State) : SameEntries s (recompute c s) := by
  have hmod : ∀ es k, SameEntries s (reportCue k c 0 0 0 (s.modEntry c fun e => { e with state := es })) := fun es k =>
    (modEntry_sameEntries (f := fun e => { e with state := es }) (by intro; exact ⟨rfl, rfl⟩) s).trans
      (sameEntries_of_cues (reportCue_cues _ _ _ _ _ _))
  unfold recompute
  split
  · dsimp only
    split
    · exact hmod _ _
    · split
      · exact hmod _ _
      · rfl
  · rfl

theorem loseTarget_sameEntries (c : CueIx) (s : State) (x : Nat × Station × Lamp × TargetState) :
    SameEntries s (loseTarget c s x) := by
  refine SameEntries.trans ?_ (recompute_sameEntries c _)
  refine (setTarget_sameEntries c x.1 .lost s).trans (sameEntries_of_cues ?_)
  rw [cueEvent_cues, reportCue_cues]
  rfl

theorem loseTargets_sameEntries (p : Station → Lamp → Bool) (s : State) : SameEntries s (loseTargets p s) :=
  .foldl (fun t c => .foldl (loseTarget_sameEntries c) _ t) _ s

theorem restoreTarget_sameEntries (c : CueIx) (e : CueEntry) (s : State) (x : Nat × Station × Lamp × TargetState) :
    SameEntries s (restoreTarget c e s x) := by
  obtain ⟨r, hr⟩ := claimRank_restored e.state e.deadline
  rw [restoreTarget_eq hr]
  refine (setTarget_sameEntries c x.1 (restoredState e.deadline) s).trans (sameEntries_of_cues ?_)
  split
  · rw [cueEvent_cues, reportCue_cues]
    rfl
  · rw [reportCue_cues]
    rfl

theorem cueReturned_sameEntries (st : Station) (s : State) : SameEntries s (cueReturned st s) := by
  refine .foldl (fun t c => ?_) _ s
  unfold restoreInEntry
  split
  · exact .foldl (restoreTarget_sameEntries c _) _ t
  · rfl

/-! The homing controller's events. -/

/-- A port unit as the homing controller leaves it: its awaiting mark may change, and its input be restarted (R145). -/
def Eased (u v : PortUnit) : Prop :=
  v = { u with awaiting := v.awaiting }
    ∨ v = { u with awaiting := v.awaiting, latest := silence, fresh := false, conceal := .silent }

theorem Eased.refl (u : PortUnit) : Eased u u := .inl rfl

theorem Eased.trans {u v w : PortUnit} (h : Eased u v) (k : Eased v w) : Eased u w := by
  rcases h with h | h <;> rcases k with k | k
  · exact .inl (k.trans (congrArg (fun x : PortUnit => { x with awaiting := w.awaiting }) h))
  · exact .inr (k.trans (congrArg (fun x : PortUnit =>
      { x with awaiting := w.awaiting, latest := silence, fresh := false, conceal := .silent }) h))
  · exact .inr (k.trans (congrArg (fun x : PortUnit => { x with awaiting := w.awaiting }) h))
  · exact .inr (k.trans (congrArg (fun x : PortUnit =>
      { x with awaiting := w.awaiting, latest := silence, fresh := false, conceal := .silent }) h))

theorem Eased.awaiting (u : PortUnit) (b : Bool) : Eased u { u with awaiting := b } := .inl rfl

theorem Eased.restarted (u : PortUnit) : Eased u { u with latest := silence, fresh := false, conceal := .silent } := .inr rfl

/-- `t` differs from `s` only in what the homing controller and those it hands an event to change. -/
structure Moves (s t : State) : Prop where
  rest : t = { s with
    arb := t.arb, homing := t.homing, auth := t.auth, out := t.out, cues := t.cues, ports := t.ports,
    lamps := { s.lamps with claims := t.lamps.claims }, freeCount := t.freeCount,
    faults := { s.faults with cueWarn := t.faults.cueWarn } }
  ports : ∀ p : Port, Eased s.ports[p] t.ports[p]
  entries : SameEntries s t

namespace Moves

theorem refl (s : State) : Moves s s := ⟨rfl, fun p => .refl _, rfl⟩

theorem trans {s t u : State} (h : Moves s t) (k : Moves t u) : Moves s u := by
  refine ⟨?_, fun p => (h.ports p).trans (k.ports p), h.entries.trans k.entries⟩
  calc u = _ := k.rest
    _ = _ := congrArg (fun v : State => { v with
      arb := u.arb, homing := u.homing, auth := u.auth, out := u.out, cues := u.cues, ports := u.ports,
      lamps := { v.lamps with claims := u.lamps.claims }, freeCount := u.freeCount,
      faults := { v.faults with cueWarn := u.faults.cueWarn } }) h.rest

theorem foldl {α : Type} {f : State → α → State} (h : ∀ s a, Moves s (f s a)) (l : List α) (s : State) :
    Moves s (l.foldl f s) := by
  induction l generalizing s with
  | nil => exact refl s
  | cons a l ih => exact (h s a).trans (ih (f s a))

variable {s t : State} (h : Moves s t)
include h

theorem live : t.live = s.live := by rw [h.rest]

theorem modes : t.faults.modes = s.faults.modes := by rw [h.rest]

theorem stations : t.faults.stations = s.faults.stations := by rw [h.rest]

theorem station (st : Station) : t.station st = s.station st := by rw [State.station, h.live, State.station]

end Moves

theorem CueOnly.moves {s t : State} (h : CueOnly s t) (he : SameEntries s t) : Moves s t :=
  ⟨by rw [h.arb, h.homing, h.auth, h.ports, h.freeCount]; exact h, fun p => by rw [h.ports]; exact .refl _, he⟩

theorem broadcast_moves (m : Message) (s : State) : Moves s (broadcast m s) :=
  (broadcast_only m s).moves (sameEntries_of_cues (broadcast_same m s).cues)

theorem modHoming_moves (st : Station) (f : Homing → Homing) (s : State) : Moves s (s.modHoming st f) :=
  ⟨rfl, fun p => .refl _, rfl⟩

theorem modArb_moves (f : Arbiter → Arbiter) (s : State) : Moves s (s.modArb f) := ⟨rfl, fun p => .refl _, rfl⟩

theorem setAuth_moves (a : Authority) (s : State) : Moves s { s with auth := a } := ⟨rfl, fun p => .refl _, rfl⟩

theorem spend_moves (n : Nat) (s : State) : Moves s (s.spend n) := by
  unfold State.spend
  split
  · exact .refl s
  · exact ⟨rfl, fun p => .refl _, rfl⟩

theorem modPort_moves {p : Port} {f : PortUnit → PortUnit} {s : State} (hf : Eased s.ports[p] (f s.ports[p])) :
    Moves s (s.modPort p f) := by
  refine ⟨rfl, fun q => ?_, rfl⟩
  rw [State.modPort_ports, upd_get]
  split
  · next h => rw [← h]; exact hf
  · exact .refl _

theorem setAwaiting_moves (p : Port) (b : Bool) (s : State) : Moves s (setAwaiting p b s) := modPort_moves (.awaiting _ b)

theorem restartInput_moves (p : Port) (s : State) : Moves s (restartInput p s) := modPort_moves (.restarted _)

theorem clearAwaiting_moves (r : StationRecord) (s : State) : Moves s (clearAwaiting r s) := by
  unfold clearAwaiting
  split
  · exact (setAwaiting_moves _ _ s).trans (setAwaiting_moves _ _ _)
  · exact setAwaiting_moves _ _ s

theorem reportHoming_moves (k : Nat) (st : Station) (r : List Byte) (s : State) : Moves s (reportHoming k st r s) :=
  broadcast_moves _ s

theorem loseAuthority_moves (r : LossReason) (s : State) : Moves s (loseAuthority r s) := by
  unfold loseAuthority
  split
  · exact (setAuth_moves _ s).trans (broadcast_moves _ _)
  · exact .refl s

theorem authMoved_moves (st : Station) (p : Port) (s : State) : Moves s (authMoved st p s) := by
  unfold authMoved
  split
  · split
    · exact (setAuth_moves _ s).trans (broadcast_moves _ _)
    · exact .refl s
  · exact .refl s

theorem returnOn_moves (st : Station) (p : Port) (hs : HomingState) (s : State) : Moves s (returnOn st p hs s) :=
  (((modHoming_moves st _ s).trans (setAwaiting_moves p true _)).trans ((cueReturned_only st _).moves (cueReturned_sameEntries st _))).trans
    (reportHoming_moves _ st _ _)

theorem tryReturn_moves (st : Station) (s : State) : Moves s (tryReturn st s) := by
  unfold tryReturn
  split
  · split
    · exact returnOn_moves st _ _ s
    · split
      · split
        · exact returnOn_moves st _ _ s
        · exact .refl s
      · exact .refl s
  · exact .refl s

theorem isoPart_moves (st : Station) (r : IsoReason) (cause : Option Port) (x : IsoPart) (s : State) :
    Moves s (x.take st r cause s) := by
  cases x with
  | cue => exact (loseTargets_only _ s).moves (loseTargets_sameEntries _ s)
  | authority =>
    show Moves s (authIsolated st s)
    unfold authIsolated
    split
    · exact loseAuthority_moves _ s
    · exact .refl s
  | report => exact reportHoming_moves _ st _ s

theorem inAnyOrder_moves {α : Type} {f : α → State → State} (h : ∀ a s, Moves s (f a s)) (n : Nat) (l : List α) (s : State) :
    Moves s (inAnyOrder f n l s) :=
  inAnyOrder_keeps (P := Moves s) (fun t n ht => ht.trans (spend_moves n t)) (fun a t ht => ht.trans (h a t)) n l (.refl s)

theorem isolateState_moves (st : Station) (s : State) : Moves s (isolateState st s) :=
  (modHoming_moves st _ s).trans (clearAwaiting_moves _ _)

theorem enterIsolated_moves (st : Station) (r : IsoReason) (cause : Option Port) (s : State) :
    Moves s (enterIsolated st r cause s) :=
  (((isolateState_moves st s).trans (modArb_moves _ _)).trans (inAnyOrder_moves (isoPart_moves st r cause) _ _ _)).trans
    (tryReturn_moves st _)

theorem startSwitchover_moves (st : Station) (sp : Port) (s : State) : Moves s (startSwitchover st sp s) :=
  (((((modHoming_moves st _ s).trans (setAwaiting_moves _ false _)).trans (setAwaiting_moves sp true _)).trans
    (restartInput_moves sp _)).trans (authMoved_moves st sp _)).trans (reportHoming_moves _ st _ _)

theorem isolatePrimary_moves (st : Station) (s : State) : Moves s (isolatePrimary st s) :=
  (modHoming_moves st _ s).trans (enterIsolated_moves st _ _ _)

theorem isolateSpare_moves (st : Station) (s : State) : Moves s (isolateSpare st s) :=
  (modHoming_moves st _ s).trans (enterIsolated_moves st _ _ _)

theorem linkFault_moves (st : Station) (s : State) : Moves s (linkFault st s) := by
  unfold linkFault
  split
  · split
    · split
      · exact startSwitchover_moves st _ s
      · exact isolatePrimary_moves st s
    · exact isolatePrimary_moves st s
  · exact isolateSpare_moves st s
  · exact isolateSpare_moves st s
  · exact .refl s

theorem portsJudged_moves (st : Station) (s : State) : Moves s (portsJudged st s) := by
  unfold portsJudged otherPortJudged
  split
  · exact tryReturn_moves st s
  · split
    · split
      · exact linkFault_moves st s
      · exact .refl s
    · exact .refl s

theorem homingCondEnded_moves (st : Station) (p : Port) (s : State) : Moves s (homingCondEnded st p s) := by
  have hmark : Moves s (if s.faults.modes.link = .auto then clearMark st p s else s) := by
    split
    · exact modHoming_moves st _ s
    · exact .refl s
  unfold homingCondEnded
  generalize (if s.faults.modes.link = .auto then clearMark st p s else s) = u at hmark
  dsimp only
  split
  · exact hmark
  · exact hmark.trans (portsJudged_moves st _)

end Sys2Proof.Machine
end

section
/-! Closed forms of the homing controller's events: isolation, return, switchover (R144 to R150). -/

namespace Sys2Proof.Machine

/-! Every item once, in some order. -/

theorem spend_eq (n : Nat) (s : State) : ∃ k, s.spend n = { s with freeCount := k } := by
  unfold State.spend
  split
  · exact ⟨s.freeCount, rfl⟩
  · exact ⟨_, rfl⟩

/-- Items taken in a free order are taken along a list that permutes them, each with the free count that it finds. -/
theorem inAnyOrder_perm {α : Type} (f : α → State → State) (l : List α) (s : State) :
    ∃ m : List (α × Nat), (m.map (·.1)).Perm l
      ∧ inAnyOrder f l.length l s = m.foldl (fun t x => f x.1 { t with freeCount := x.2 }) s := by
  generalize hn : l.length = n
  induction n generalizing l s with
  | zero =>
    obtain rfl := List.eq_nil_of_length_eq_zero hn
    exact ⟨[], .refl _, rfl⟩
  | succ n ih =>
    obtain ⟨a, rest, rfl⟩ := List.exists_cons_of_length_eq_add_one hn
    obtain ⟨k, hk⟩ := spend_eq (rest.length + 1) s
    rw [inAnyOrder]
    have hlt : chooseIx s.freeCount (rest.length + 1) < (a :: rest).length := chooseIx_lt _ (Nat.succ_pos _)
    generalize chooseIx s.freeCount (rest.length + 1) = i at hlt
    obtain ⟨m, hperm, hm⟩ := ih ((a :: rest).eraseIdx i) (f ((a :: rest).getD i a) (s.spend (rest.length + 1))) (by
      rw [List.length_eraseIdx_of_lt hlt]
      omega)
    refine ⟨((a :: rest).getD i a, k) :: m, ?_, ?_⟩
    · rw [List.map_cons, List.getD_eq_getElem _ _ hlt]
      exact (hperm.cons _).trans (List.getElem_cons_eraseIdx_perm hlt)
    · rw [hm, List.foldl_cons, hk]

/-! Where the homing of one station is looked at. -/

theorem modHoming_eq (st : Station) (f : Homing → Homing) (s : State) :
    s.modHoming st f = { s with homing := s.homing.set st (f s.homing[st]) } := rfl

theorem Eased.link {u v : PortUnit} (h : Eased u v) : v.up = u.up ∧ v.loss = u.loss ∧ v.bucket = u.bucket ∧ v.cond = u.cond := by
  rcases h with h | h <;> rw [h] <;> exact ⟨rfl, rfl, rfl, rfl⟩

/-- Whether a port is clean reads its link and the station's marks. -/
theorem Moves.clean {s t : State} (h : Moves s t) {st : Station}
    (hm : t.homing[st].primFailed = s.homing[st].primFailed ∧ t.homing[st].spareFailed = s.homing[st].spareFailed) (p : Port) :
    t.clean st p = s.clean st p := by
  obtain ⟨hup, hloss, hbucket, hcond⟩ := (h.ports p).link
  unfold State.clean State.linkUp State.linkCond State.markedFor
  rw [hup, hloss, hbucket, hcond, h.live, h.station, hm.1, hm.2]

theorem setAwaiting_homing (p : Port) (b : Bool) (s : State) : (setAwaiting p b s).homing = s.homing := rfl

theorem vector_ext_fin {α : Type} {n : Nat} {v w : Vector α n} (h : ∀ i : Fin n, v[i] = w[i]) : v = w :=
  Vector.ext fun i hi => h ⟨i, hi⟩

theorem ofFn_get {α : Type} {n : Nat} (f : Fin n → α) (i : Fin n) : (Vector.ofFn f)[i] = f i := by simp

theorem clearAwaiting_eq (r : StationRecord) (s : State) :
    clearAwaiting r s = { s with ports := Vector.ofFn fun p : Port =>
      if p = r.primary ∨ r.spare = some p then { s.ports[p] with awaiting := false } else s.ports[p] } := by
  unfold clearAwaiting setAwaiting State.modPort
  cases r.spare with
  | none =>
    refine congrArg (fun v => { s with ports := v }) (vector_ext_fin fun p => ?_)
    rw [upd_get, ofFn_get]
    by_cases h : r.primary = p <;> simp [-Fin.getElem_fin, h, eq_comm (a := p)]
  | some q =>
    refine congrArg (fun v => { s with ports := v }) (vector_ext_fin fun p => ?_)
    rw [upd_get, upd_get, ofFn_get]
    by_cases h : r.primary = p <;> by_cases hq : q = p <;> simp [-Fin.getElem_fin, h, hq, eq_comm (a := p)]

/-! Return (R150). -/

theorem reportHoming_only (k : Nat) (st : Station) (r : List Byte) (s : State) : CueOnly s (reportHoming k st r s) :=
  broadcast_only _ s

theorem returnOn_homing (st : Station) (p : Port) (x : HomingState) (s : State) :
    (returnOn st p x s).homing = s.homing.set st { s.homing[st] with state := x, active := some p } := by
  unfold returnOn
  dsimp only
  rw [(reportHoming_only _ _ _ _).homing, (cueReturned_only st _).homing]
  rfl

theorem returnOn_arb (st : Station) (p : Port) (x : HomingState) (s : State) : (returnOn st p x s).arb = s.arb := by
  unfold returnOn
  dsimp only
  rw [(reportHoming_only _ _ _ _).arb, (cueReturned_only st _).arb]
  rfl

theorem returnOn_auth (st : Station) (p : Port) (x : HomingState) (s : State) : (returnOn st p x s).auth = s.auth := by
  unfold returnOn
  dsimp only
  rw [(reportHoming_only _ _ _ _).auth, (cueReturned_only st _).auth]
  rfl

/-- R150: where an ISOLATED station goes, with its homing otherwise as it was. -/
def State.returned (s : State) (st : Station) (h : Homing) : Homing :=
  { h with
    state := if s.clean st (s.station st).primary then .onPrimary
      else if (s.station st).spare.any (s.clean st) then .onSpare else .isolated,
    active := if s.clean st (s.station st).primary then some (s.station st).primary
      else if (s.station st).spare.any (s.clean st) then (s.station st).spare else none }

theorem tryReturn_cases (st : Station) (s : State) :
    (tryReturn st s = s ∧ (s.isolated st = false ∨ (s.clean st (s.station st).primary = false
        ∧ (s.station st).spare.any (s.clean st) = false)))
      ∨ (s.isolated st = true ∧ ∃ p x, tryReturn st s = returnOn st p x s
        ∧ ∀ h : Homing, s.returned st h = { h with state := x, active := some p }) := by
  unfold tryReturn State.returned
  split
  · next hi =>
    cases hc : s.clean st (s.station st).primary with
    | true => exact .inr ⟨hi, (s.station st).primary, .onPrimary, by simp, fun h => by simp⟩
    | false =>
      cases hsp : (s.station st).spare with
      | none => exact .inl ⟨by simp, .inr ⟨rfl, rfl⟩⟩
      | some p =>
        cases hcp : s.clean st p with
        | false => exact .inl ⟨by simp [hcp], .inr ⟨rfl, by simp [hcp]⟩⟩
        | true => exact .inr ⟨hi, p, .onSpare, by simp [hcp], fun h => by simp [hcp]⟩
  · next hi => exact .inl ⟨rfl, .inl (Bool.eq_false_iff.mpr hi)⟩

theorem tryReturn_arb (st : Station) (s : State) : (tryReturn st s).arb = s.arb := by
  obtain ⟨h, -⟩ | ⟨-, p, x, h, -⟩ := tryReturn_cases st s
  · rw [h]
  · rw [h, returnOn_arb]

theorem tryReturn_auth (st : Station) (s : State) : (tryReturn st s).auth = s.auth := by
  obtain ⟨h, -⟩ | ⟨-, p, x, h, -⟩ := tryReturn_cases st s
  · rw [h]
  · rw [h, returnOn_auth]

theorem tryReturn_homing {st : Station} {s : State} (hi : s.homing[st].state = .isolated) (ha : s.homing[st].active = none) :
    (tryReturn st s).homing = s.homing.set st (s.returned st s.homing[st]) := by
  obtain ⟨h, hno⟩ | ⟨-, p, x, h, hr⟩ := tryReturn_cases st s
  · obtain ⟨hc, hsp⟩ := hno.resolve_left (by simp [-Fin.getElem_fin, State.isolated, hi])
    have hsame : s.returned st s.homing[st] = s.homing[st] := by
      unfold State.returned
      rw [hc, hsp, if_neg (by simp), if_neg (by simp), if_neg (by simp), if_neg (by simp), ← hi, ← ha]
    rw [h, hsame]
    refine Vector.ext fun i hi => ?_
    rw [Vector.getElem_set]
    split
    · next e => subst e; rfl
    · rfl
  · rw [h, returnOn_homing, hr]

/-! Isolation (R149). -/

/-- What the parts of an isolation leave alone. -/
structure PartKept (s t : State) : Prop where
  homing : t.homing = s.homing
  arb : t.arb = s.arb
  ports : t.ports = s.ports
  moves : Moves s t

theorem CueOnly.partKept {s t : State} (h : CueOnly s t) (he : SameEntries s t) : PartKept s t :=
  ⟨h.homing, h.arb, h.ports, h.moves he⟩

theorem PartKept.refl (s : State) : PartKept s s := (CueOnly.refl s).partKept rfl

theorem broadcast_partKept (m : Message) (s : State) : PartKept s (broadcast m s) :=
  (broadcast_only m s).partKept (sameEntries_of_cues (broadcast_same m s).cues)

theorem PartKept.trans {s t u : State} (h : PartKept s t) (k : PartKept t u) : PartKept s u :=
  ⟨k.homing.trans h.homing, k.arb.trans h.arb, k.ports.trans h.ports, h.moves.trans k.moves⟩

theorem setAuth_partKept (a : Authority) (s : State) : PartKept s { s with auth := a } :=
  ⟨rfl, rfl, rfl, setAuth_moves a s⟩

theorem loseAuthority_partKept (r : LossReason) (s : State) : PartKept s (loseAuthority r s) := by
  unfold loseAuthority
  split
  · exact (setAuth_partKept _ s).trans (broadcast_partKept _ _)
  · exact PartKept.refl s

theorem isoPart_partKept (st : Station) (r : IsoReason) (cause : Option Port) (x : IsoPart) (s : State) :
    PartKept s (x.take st r cause s) := by
  cases x with
  | cue => exact (loseTargets_only _ s).partKept (loseTargets_sameEntries _ s)
  | authority =>
    show PartKept s (authIsolated st s)
    unfold authIsolated
    split
    · exact loseAuthority_partKept _ s
    · exact PartKept.refl s
  | report => exact broadcast_partKept _ s

theorem spend_partKept (n : Nat) (s : State) : PartKept s (s.spend n) := by
  obtain ⟨k, hk⟩ := spend_eq n s
  have hm := spend_moves n s
  rw [hk] at hm ⊢
  exact ⟨rfl, rfl, rfl, hm⟩

theorem isoParts_partKept (st : Station) (r : IsoReason) (cause : Option Port) (n : Nat) (l : List IsoPart) (s : State) :
    PartKept s (inAnyOrder (IsoPart.take st r cause) n l s) :=
  inAnyOrder_keeps (P := PartKept s) (fun t n h => h.trans (spend_partKept n t))
    (fun x t h => h.trans (isoPart_partKept st r cause x t)) n l (PartKept.refl s)

/-- An isolation's state before its parts are handed (R149 steps 1 to 3). -/
def isolationBegun (st : Station) (s : State) : State := (isolateState st s).modArb (Arbiter.withdraw s.live st .isolated)

theorem enterIsolated_eq (st : Station) (r : IsoReason) (cause : Option Port) (s : State) :
    enterIsolated st r cause s =
      tryReturn st (inAnyOrder (IsoPart.take st r cause) ((isolationBegun st s).isoParts st).length
        ((isolationBegun st s).isoParts st) (isolationBegun st s)) := rfl

/-- A station's homing as an isolation begins. -/
def Homing.isolate (h : Homing) : Homing :=
  { h with state := .isolated, active := none, switchRem := none, restorePending := false, restoreDue := false }

theorem isolationBegun_eq (st : Station) (s : State) :
    isolationBegun st s = { s with
      homing := s.homing.set st s.homing[st].isolate,
      ports := Vector.ofFn fun p : Port =>
        if p = (s.station st).primary ∨ (s.station st).spare = some p then { s.ports[p] with awaiting := false } else s.ports[p],
      arb := Arbiter.withdraw s.live st .isolated s.arb } := by
  unfold isolationBegun isolateState
  rw [clearAwaiting_eq]
  rfl

theorem isolationBegun_moves (st : Station) (s : State) : Moves s (isolationBegun st s) :=
  (isolateState_moves st s).trans (modArb_moves _ _)

theorem set_self {n : Nat} {α : Type} (v : Vector α n) (i : Fin n) (x : α) : (v.set i x)[i] = x := by
  simp

theorem set_other {n : Nat} {α : Type} (v : Vector α n) {i j : Fin n} (x : α) (h : j ≠ i) : (v.set i x)[j] = v[j] := by
  have : i.val ≠ j.val := fun e => h (Fin.ext e.symm)
  simp [this]

/-- R149, R150: the homing that an isolation leaves. -/
theorem enterIsolated_homing (st : Station) (r : IsoReason) (cause : Option Port) (s : State) :
    (enterIsolated st r cause s).homing = s.homing.set st (s.returned st s.homing[st].isolate) := by
  rw [enterIsolated_eq]
  have hparts := isoParts_partKept st r cause ((isolationBegun st s).isoParts st).length
    ((isolationBegun st s).isoParts st) (isolationBegun st s)
  generalize inAnyOrder _ _ _ _ = t at hparts ⊢
  have hhom : t.homing = s.homing.set st s.homing[st].isolate := by rw [hparts.homing, isolationBegun_eq]
  have hself : t.homing[st] = s.homing[st].isolate := by rw [hhom, set_self]
  have hmoves : Moves s t := (isolationBegun_moves st s).trans hparts.moves
  have hclean : t.returned st = s.returned st := by
    have : t.clean st = s.clean st := funext fun p => hmoves.clean (by rw [hself]; exact ⟨rfl, rfl⟩) p
    unfold State.returned
    rw [this, hmoves.station]
  rw [tryReturn_homing (by rw [hself]; rfl) (by rw [hself]; rfl), hclean, hself, hhom, Vector.set_set]

theorem enterIsolated_arb (st : Station) (r : IsoReason) (cause : Option Port) (s : State) :
    (enterIsolated st r cause s).arb = Arbiter.withdraw s.live st .isolated s.arb := by
  rw [enterIsolated_eq, tryReturn_arb, (isoParts_partKept st r cause _ _ _).arb, isolationBegun_eq]

end Sys2Proof.Machine
end

section
/-! A LINK fault's effect on homing and on the port units' inputs (R144, R145, R148). -/

namespace Sys2Proof.Machine

/-! The input of a port unit: its latest block and its concealment step (R136). -/

/-- The latest block and the concealment step. -/
def PortUnit.input (u : PortUnit) : Block × Conceal := (u.latest, u.conceal)

/-- The input of a port unit that is silent (R131, R145). -/
def silentInput : Block × Conceal := (silence, .silent)

theorem Eased.input {u v : PortUnit} (h : Eased u v) : v.input = u.input ∨ v.input = silentInput := by
  rcases h with h | h <;> rw [h]
  · exact .inl rfl
  · exact .inr rfl

/-- Every port's input is as it was. -/
def SameInputs (s t : State) : Prop := ∀ p : Port, t.ports[p].input = s.ports[p].input

theorem sameInputs_of_ports {s t : State} (h : t.ports = s.ports) : SameInputs s t := fun p => by rw [h]

theorem SameInputs.trans {s t u : State} (h : SameInputs s t) (k : SameInputs t u) : SameInputs s u :=
  fun p => (k p).trans (h p)

theorem setAwaiting_inputs (p : Port) (b : Bool) (s : State) : SameInputs s (setAwaiting p b s) := by
  intro q
  rw [setAwaiting, State.modPort_ports, upd_get]
  split <;> rfl

theorem returnOn_inputs (st : Station) (p : Port) (x : HomingState) (s : State) : SameInputs s (returnOn st p x s) := by
  have hs : SameInputs s (s.modHoming st fun h => { h with state := x, active := some p }) := fun _ => rfl
  exact (hs.trans (setAwaiting_inputs p true _)).trans
    (sameInputs_of_ports ((reportHoming_only _ st _ _).ports.trans (cueReturned_only st _).ports))

theorem tryReturn_inputs (st : Station) (s : State) : SameInputs s (tryReturn st s) := by
  obtain ⟨h, -⟩ | ⟨-, p, x, h, -⟩ := tryReturn_cases st s
  · rw [h]
    exact fun _ => rfl
  · rw [h]
    exact returnOn_inputs st p x s

theorem enterIsolated_inputs (st : Station) (r : IsoReason) (cause : Option Port) (s : State) :
    SameInputs s (enterIsolated st r cause s) := by
  have hbegun : SameInputs s (isolationBegun st s) := by
    rw [isolationBegun_eq]
    intro p
    dsimp only
    rw [ofFn_get]
    split <;> rfl
  rw [enterIsolated_eq]
  exact (hbegun.trans (sameInputs_of_ports (isoParts_partKept st r cause _ _ _).ports)).trans (tryReturn_inputs st _)

/-! The switchover (R145). -/

theorem authMoved_ports (st : Station) (p : Port) (s : State) : (authMoved st p s).ports = s.ports := by
  unfold authMoved
  split
  · split
    · exact (broadcast_only _ _).ports
    · rfl
  · rfl

theorem startSwitchover_homing (st : Station) (sp : Port) (s : State) :
    (startSwitchover st sp s).homing = s.homing.set st
      { s.homing[st] with primFailed := true, state := .switching, active := some sp, switchRem := some Config.switchoverMs } := by
  unfold startSwitchover
  dsimp only
  rw [(reportHoming_only _ _ _ _).homing, authMoved_eq.1]
  rfl

theorem startSwitchover_ports (st : Station) (sp : Port) (s : State) :
    (startSwitchover st sp s).ports
      = upd (upd (upd s.ports (s.station st).primary fun u => { u with awaiting := false }) sp fun u =>
          { u with awaiting := true }) sp fun u => { u with latest := silence, fresh := false, conceal := .silent } := by
  unfold startSwitchover
  dsimp only
  rw [(reportHoming_only _ _ _ _).ports, authMoved_ports]
  rfl

theorem startSwitchover_silent (st : Station) (sp : Port) (s : State) :
    (startSwitchover st sp s).ports[sp].input = silentInput := by
  rw [startSwitchover_ports, upd_get, if_pos rfl]
  rfl

theorem startSwitchover_input (st : Station) {sp q : Port} (h : q ≠ sp) (s : State) :
    (startSwitchover st sp s).ports[q].input = s.ports[q].input := by
  rw [startSwitchover_ports, upd_get, if_neg (Ne.symm h), upd_get, if_neg (Ne.symm h), upd_get]
  split <;> rfl

/-! A LINK fault (R144). -/

/-- What a LINK fault of station `st` makes of the homing and the inputs. -/
inductive FaultTaken (st : Station) (s t : State) : Prop
  | none (hst : s.homing[st].state = .isolated) (ht : t = s)
  | switched (sp : Port) (hst : s.homing[st].state = .onPrimary) (hsp : (s.station st).spare = some sp)
      (hclean : s.clean st sp = true) (ht : t = startSwitchover st sp s)
  | isolated (k : Homing) (hk : (k = { s.homing[st] with primFailed := true } ∧ s.homing[st].state = .onPrimary)
        ∨ (k = { s.homing[st] with spareFailed := true } ∧ (s.homing[st].state = .switching ∨ s.homing[st].state = .onSpare)))
      (r : IsoReason) (cause : Option Port)
      (ht : t = enterIsolated st r cause { s with homing := s.homing.set st k })

theorem linkFault_taken (st : Station) (s : State) : FaultTaken st s (linkFault st s) := by
  unfold linkFault
  split
  · next hst =>
    split
    · next sp hsp =>
      split
      · next hc => exact .switched sp hst hsp hc rfl
      · exact .isolated _ (.inl ⟨rfl, hst⟩) _ _ rfl
    · exact .isolated _ (.inl ⟨rfl, hst⟩) _ _ rfl
  · next hst => exact .isolated _ (.inr ⟨rfl, .inl hst⟩) _ _ rfl
  · next hst => exact .isolated _ (.inr ⟨rfl, .inr hst⟩) _ _ rfl
  · next hst => exact .none hst rfl

/-- A port that is marked failed is not clean. -/
theorem clean_primary_marked {s : State} {st : Station} (h : s.homing[st].primFailed = true) :
    s.clean st (s.station st).primary = false := by
  simp [-Fin.getElem_fin, State.clean, State.markedFor, h]

theorem clean_spare_marked {s : State} {st : Station} {p : Port} (hp : (s.station st).spare = some p)
    (h : s.homing[st].spareFailed = true) : s.clean st p = false := by
  simp [-Fin.getElem_fin, State.clean, State.markedFor, h, hp]

theorem anyClean_spare_marked {s : State} {st : Station} (h : s.homing[st].spareFailed = true) :
    (s.station st).spare.any (s.clean st) = false := by
  cases hp : (s.station st).spare with
  | none => rfl
  | some p => exact clean_spare_marked hp h

theorem returned_state_ne_switching (s : State) (st : Station) (h : Homing) : (s.returned st h).state ≠ .switching := by
  unfold State.returned
  dsimp only
  split
  · decide
  · split <;> decide

/-- An isolation of a station after a change of its homing. -/
theorem enterIsolated_homing_after (st : Station) (k : Homing) (r : IsoReason) (cause : Option Port) (s : State) :
    (enterIsolated st r cause { s with homing := s.homing.set st k }).homing
      = s.homing.set st (({ s with homing := s.homing.set st k } : State).returned st k.isolate) := by
  rw [enterIsolated_homing]
  dsimp only
  rw [Vector.set_set, set_self]

theorem FaultTaken.other {st x : Station} {s t : State} (h : FaultTaken st s t) (hx : x ≠ st) :
    t.homing[x] = s.homing[x] := by
  cases h with
  | none hst ht => rw [ht]
  | switched sp hst hsp hc ht => rw [ht, startSwitchover_homing, set_other _ _ hx]
  | isolated k hk r cause ht => rw [ht, enterIsolated_homing_after, set_other _ _ hx]

end Sys2Proof.Machine
end

section
/-! The port units at a completion: their slots, their counts and what the homing makes of them (R130 to R136, R144). -/

namespace Sys2Proof.Machine

/-! A switchover leaves the input it moves to silent. -/

/-- A station that is in SWITCHING on a port either was, or that port's input is silent. -/
def SwitchKept (s t : State) : Prop :=
  ∀ st : Station, t.homing[st].state = .switching →
    (s.homing[st].state = .switching ∧ t.homing[st].active = s.homing[st].active)
      ∨ ∀ q : Port, t.homing[st].active = some q → t.ports[q].input = silentInput

theorem switchKept_of_homing {s t : State} (h : t.homing = s.homing) : SwitchKept s t := fun st hst =>
  .inl ⟨by rw [← h]; exact hst, by rw [h]⟩

theorem SwitchKept.trans {s t u : State} (h : SwitchKept s t) (k : SwitchKept t u)
    (hu : ∀ q : Port, t.ports[q].input = silentInput → u.ports[q].input = silentInput) : SwitchKept s u := by
  intro st hst
  rcases k st hst with ⟨hst', hac⟩ | hq
  · rw [hac]
    exact (h st hst').imp_right fun hq q hqa => hu q (hq q hqa)
  · exact .inr hq

/-- A change of one station's homing that leaves it out of SWITCHING. -/
theorem switchKept_set {s t : State} {st : Station} {x : Homing} (h : t.homing = s.homing.set st x) (hx : x.state ≠ .switching) :
    SwitchKept s t := by
  intro y hy
  by_cases he : y = st
  · subst he
    rw [h, set_self] at hy
    exact absurd hy hx
  · rw [h, set_other _ _ he] at hy ⊢
    exact .inl ⟨hy, rfl⟩

theorem FaultTaken.switchKept {st : Station} {s t : State} (h : FaultTaken st s t) : SwitchKept s t := by
  cases h with
  | none hst ht => rw [ht]; exact switchKept_of_homing rfl
  | isolated k hk r cause ht =>
    rw [ht]
    exact switchKept_set (enterIsolated_homing_after st k r cause s) (returned_state_ne_switching _ _ _)
  | switched sp hst hsp hc ht =>
    intro y hy
    by_cases he : y = st
    · subst he
      refine .inr fun q hq => ?_
      rw [ht, startSwitchover_homing, set_self] at hq
      obtain rfl := Option.some.inj hq
      rw [ht, startSwitchover_silent]
    · rw [ht, startSwitchover_homing, set_other _ _ he] at hy ⊢
      exact .inl ⟨hy, rfl⟩

theorem tryReturn_switchKept (st : Station) (s : State) : SwitchKept s (tryReturn st s) := by
  obtain ⟨h, -⟩ | ⟨-, p, x, h, hr⟩ := tryReturn_cases st s
  · rw [h]
    exact switchKept_of_homing rfl
  · rw [h]
    refine switchKept_set (returnOn_homing st p x s) ?_
    rw [← hr]
    exact returned_state_ne_switching s st _

theorem portsJudged_switchKept (st : Station) (s : State) : SwitchKept s (portsJudged st s) := by
  unfold portsJudged otherPortJudged
  split
  · exact tryReturn_switchKept st s
  · split
    · split
      · exact (linkFault_taken st s).switchKept
      · exact switchKept_of_homing rfl
    · exact switchKept_of_homing rfl

theorem Moves.silent {s t : State} (h : Moves s t) (q : Port) (hq : s.ports[q].input = silentInput) :
    t.ports[q].input = silentInput := (h.ports q).input.elim (·.trans hq) id

theorem clearMark_switchKept (st : Station) (p : Port) (s : State) : SwitchKept s (clearMark st p s) := by
  intro y hy
  refine .inl ?_
  unfold clearMark at hy ⊢
  rw [State.modHoming_homing, upd_get] at hy ⊢
  by_cases he : st = y
  · rw [if_pos he] at hy ⊢
    exact ⟨hy, rfl⟩
  · rw [if_neg he] at hy ⊢
    exact ⟨hy, rfl⟩

theorem homingCondEnded_switchKept (st : Station) (p : Port) (s : State) : SwitchKept s (homingCondEnded st p s) := by
  have hmark : SwitchKept s (if s.faults.modes.link = .auto then clearMark st p s else s) := by
    split
    · exact clearMark_switchKept st p s
    · exact switchKept_of_homing rfl
  unfold homingCondEnded
  generalize (if s.faults.modes.link = .auto then clearMark st p s else s) = u at hmark
  dsimp only
  split
  · exact hmark
  · exact hmark.trans (portsJudged_switchKept st u) fun q => (portsJudged_moves st u).silent q

/-! The judgement of a condition (R133, R158). -/

/-- What the fault supervisor's part of a judgement leaves alone: all but the port fault flags and the reports. -/
structure Flagged (s t : State) : Prop where
  rest : t = { s with faults := t.faults, out := t.out }
  live : t.live = s.live
  ports : t.ports = s.ports
  homing : t.homing = s.homing
  stations : t.faults.stations = s.faults.stations

theorem Flagged.trans {s t u : State} (h : Flagged s t) (k : Flagged t u) : Flagged s u :=
  ⟨k.rest.trans (congrArg (fun v : State => { v with faults := u.faults, out := u.out }) h.rest),
    k.live.trans h.live, k.ports.trans h.ports, k.homing.trans h.homing, k.stations.trans h.stations⟩

theorem broadcast_flagged (m : Message) (s : State) : Flagged s (broadcast m s) :=
  have h := broadcast_only m s
  ⟨by rw [broadcast], h.live, h.ports, h.homing, h.stations⟩

theorem modPortFaults_flagged (p : Port) (f : PortFaults → PortFaults) (s : State) : Flagged s (s.modPortFaults p f) :=
  ⟨rfl, rfl, rfl, rfl, rfl⟩

theorem linkRaised_flagged (p : Port) (st : Station) (s : State) : Flagged s (linkRaised p st s) := by
  unfold linkRaised
  dsimp only
  split
  · exact broadcast_flagged _ s
  · exact broadcast_flagged _ s
  · exact (modPortFaults_flagged p _ s).trans (broadcast_flagged _ _)
  · exact ⟨rfl, rfl, rfl, rfl, rfl⟩
  · exact ⟨rfl, rfl, rfl, rfl, rfl⟩

theorem linkEnded_flagged (p : Port) (st : Station) (s : State) : Flagged s (linkEnded p st s) := by
  unfold linkEnded
  split
  · exact ⟨rfl, rfl, rfl, rfl, rfl⟩
  · exact broadcast_flagged _ s

/-- A judgement handed: the flags first, then what the homing controller makes of it. A beginning is a LINK fault or
nothing to it. -/
structure Handed (c : Bool) (s u t : State) : Prop where
  flagged : Flagged s u
  moves : Moves u t
  switch : SwitchKept u t
  fault : c = true → t = u ∨ ∃ st, FaultTaken st u t

theorem handCond_handed (p : Port) (st : Station) (c : Bool) (s : State) : ∃ u, Handed c s u (handCond p st c s) := by
  unfold handCond
  have hf := modPortFaults_flagged p (fun f => { f with linkCond := c }) s
  generalize s.modPortFaults p (fun f => { f with linkCond := c }) = v at hf
  dsimp only
  cases c with
  | true =>
    rw [if_pos rfl, linkBegun]
    have hu := hf.trans (linkRaised_flagged p st v)
    generalize linkRaised p st v = u at hu
    split
    · exact ⟨u, hu, linkFault_moves st u, (linkFault_taken st u).switchKept, fun _ => .inr ⟨st, linkFault_taken st u⟩⟩
    · exact ⟨u, hu, .refl u, switchKept_of_homing rfl, fun _ => .inl rfl⟩
  | false =>
    rw [if_neg (by decide)]
    exact ⟨_, hf.trans (linkEnded_flagged p st v), homingCondEnded_moves st p _, homingCondEnded_switchKept st p _, nofun⟩

theorem judgePort_cases (p : Port) (s : State) :
    (judgePort p s = s ∧ ∀ st, s.live.serves p = some st → judgedCond s.ports[p] (s.station st).threshold = s.ports[p].cond)
      ∨ ∃ st, s.live.serves p = some st
        ∧ judgedCond s.ports[p] (s.station st).threshold ≠ s.ports[p].cond
        ∧ judgePort p s = handCond p st (judgedCond s.ports[p] (s.station st).threshold)
            (s.modPort p fun u => { u with cond := judgedCond s.ports[p] (s.station st).threshold }) := by
  unfold judgePort judgeWith
  split
  · next hn => exact .inl ⟨rfl, fun st hst => by cases hn.symm.trans hst⟩
  · next st hst =>
    dsimp only
    split
    · next hc =>
      refine .inl ⟨rfl, fun x hx => ?_⟩
      obtain rfl := Option.some.inj (hst.symm.trans hx)
      exact hc
    · next hc => exact .inr ⟨st, hst, hc, rfl⟩

/-! One port's tick (R130 to R132). -/

theorem PortUnit.tick_cond (u : PortUnit) : u.tick.cond = u.cond := by
  unfold PortUnit.tick
  split
  · rfl
  · split
    · split <;> rfl
    · rfl

/-- A tick touches neither the input of a port unit nor what the homing controller changes in it. -/
theorem Eased.tick {u v : PortUnit} {c : Bool} (h : Eased { u with cond := c } v) : Eased { u.tick with cond := c } v.tick := by
  rcases h with h | h <;> rw [h] <;> unfold PortUnit.tick <;> dsimp only <;> split
  · exact .inl rfl
  · split
    · split <;> exact .inl rfl
    · exact .inl rfl
  · exact .inr rfl
  · split
    · split <;> exact .inr rfl
    · exact .inr rfl

theorem PortUnit.tick_input (u : PortUnit) : u.tick.input = u.input := by
  unfold PortUnit.tick
  split
  · rfl
  · split
    · split <;> rfl
    · rfl

theorem le_raised (b : Nat) (h : b ≤ 255) : b ≤ raised b := by
  unfold raised
  omega

/-- At a tick a condition that stands judged does not end (R132, R133). -/
theorem judgedCond_tick {u : PortUnit} {k : Nat} (hk : k ≤ 255) (h : judgedCond u k = u.cond) (hc : u.cond = true) :
    judgedCond u.tick k = true := by
  unfold judgedCond at h ⊢
  rw [hc, if_pos rfl] at h
  rw [PortUnit.tick_cond, hc, if_pos rfl]
  unfold PortUnit.tick
  split
  · exact h
  · split
    · next hup =>
      rw [hup] at h
      have hb : ¬ u.bucket ≤ k / 2 := by simpa using h
      split
      · have : ¬ raised u.bucket ≤ k / 2 := by
          unfold raised
          omega
        simp [this]
      · simpa [hup] using hb
    · next hup => simp [hup]

/-- What one port's tick does. -/
structure Ticked (p : Port) (s t : State) : Prop where
  live : t.live = s.live
  stations : t.faults.stations = s.faults.stations
  other : ∀ q : Port, q ≠ p → Eased s.ports[q] t.ports[q]
  self : ∃ c, Eased { s.ports[p].tick with cond := c } t.ports[p]
  switch : SwitchKept s t
  fault : (∀ st, s.live.serves p = some st → (s.station st).threshold ≤ 255
      ∧ judgedCond s.ports[p] (s.station st).threshold = s.ports[p].cond) →
    ∃ u : State, u.live = s.live ∧ u.homing = s.homing ∧ SameInputs s u ∧ (t = u ∨ ∃ st, FaultTaken st u t)

theorem modPort_tick_get (p q : Port) (s : State) :
    (s.modPort p PortUnit.tick).ports[q] = if p = q then s.ports[q].tick else s.ports[q] := by
  rw [State.modPort_ports, upd_get]

theorem portTick_ticked (p : Port) (s : State) : Ticked p s (portTick p s) := by
  unfold portTick
  have hinput : SameInputs s (s.modPort p PortUnit.tick) := by
    intro q
    rw [modPort_tick_get]
    split
    · exact PortUnit.tick_input _
    · rfl
  have hself : (s.modPort p PortUnit.tick).ports[p] = s.ports[p].tick := by rw [modPort_tick_get, if_pos rfl]
  have hother : ∀ q : Port, q ≠ p → (s.modPort p PortUnit.tick).ports[q] = s.ports[q] := fun q hq => by
    rw [modPort_tick_get, if_neg (Ne.symm hq)]
  have hlive : (s.modPort p PortUnit.tick).live = s.live := rfl
  have hhom : (s.modPort p PortUnit.tick).homing = s.homing := rfl
  have hstf : (s.modPort p PortUnit.tick).faults.stations = s.faults.stations := rfl
  generalize s.modPort p PortUnit.tick = v at hinput hself hother hlive hhom hstf
  obtain ⟨h, -⟩ | ⟨st, hst, hne, h⟩ := judgePort_cases p v
  · rw [h]
    exact ⟨hlive, hstf, fun q hq => by rw [hother q hq]; exact .refl _, ⟨_, by rw [hself]; exact .refl _⟩,
      switchKept_of_homing hhom, fun _ => ⟨v, hlive, hhom, hinput, .inl rfl⟩⟩
  · generalize hc : judgedCond v.ports[p] (v.station st).threshold = c at hne h
    have hget : ∀ q : Port, (v.modPort p fun u => { u with cond := c }).ports[q]
        = if p = q then { v.ports[q] with cond := c } else v.ports[q] := fun q => by rw [State.modPort_ports, upd_get]
    have hcond : SameInputs v (v.modPort p fun u => { u with cond := c }) := by
      intro q
      rw [hget]
      split <;> rfl
    have hw : (v.modPort p fun u => { u with cond := c }).live = v.live
      ∧ (v.modPort p fun u => { u with cond := c }).homing = v.homing
      ∧ (v.modPort p fun u => { u with cond := c }).faults.stations = v.faults.stations := ⟨rfl, rfl, rfl⟩
    rw [h]
    generalize (v.modPort p fun u => { u with cond := c }) = w at hget hcond hw
    obtain ⟨u, hu⟩ := handCond_handed p st c w
    have hports : ∀ q : Port, Eased (if p = q then { v.ports[q] with cond := c } else v.ports[q]) (handCond p st c w).ports[q] := by
      intro q
      rw [← hget, ← hu.flagged.ports]
      exact hu.moves.ports q
    refine ⟨?_, ?_, fun q hq => ?_, ⟨c, ?_⟩, ?_, fun hj => ?_⟩
    · rw [hu.moves.live, hu.flagged.live, hw.1, hlive]
    · rw [hu.moves.stations, hu.flagged.stations, hw.2.2, hstf]
    · have := hports q
      rwa [if_neg (Ne.symm hq), hother q hq] at this
    · have := hports p
      rwa [if_pos rfl, hself] at this
    · refine SwitchKept.trans (switchKept_of_homing ?_) hu.switch fun q => hu.moves.silent q
      rw [hu.flagged.homing, hw.2.1, hhom]
    · have hstation : v.station st = s.station st := by rw [State.station, hlive, State.station]
      obtain ⟨hk, hjudged⟩ := hj st (by rw [← hlive]; exact hst)
      have htrue : c = true := by
        cases hb : s.ports[p].cond with
        | false =>
          rw [hself, PortUnit.tick_cond, hb] at hne
          exact Bool.eq_true_of_not_eq_false hne
        | true => rw [← hc, hself, hstation, judgedCond_tick hk hjudged hb]
      refine ⟨u, ?_, ?_, (hinput.trans hcond).trans (sameInputs_of_ports hu.flagged.ports), hu.fault htrue⟩
      · rw [hu.flagged.live, hw.1, hlive]
      · rw [hu.flagged.homing, hw.2.1, hhom]

end Sys2Proof.Machine
end

section
/-! The ticks of a completion, each port's once (notes/assumptions/6.md), and what a completion leaves of each port unit. -/

namespace Sys2Proof.Machine

/-! Every port ticks once. -/

/-- What holds of a state and the ports still to tick, and is kept as one of them ticks, holds once all have. -/
theorem tickPorts_each {I : (Port → Prop) → State → Prop} (hspend : ∀ L s n, I L s → I L (s.spend n))
    (h : ∀ (L : Port → Prop) p s, L p → I L s → I (fun q => L q ∧ q ≠ p) (portTick p s)) {s : State}
    (hs : I (fun _ => True) s) : I (fun _ => False) (tickPorts s) := by
  have congr : ∀ {L M : Port → Prop} {t : State}, (∀ q, L q ↔ M q) → I L t → I M t := fun hLM ht => by
    rwa [← funext fun q => propext (hLM q)]
  have hfold : ∀ (l : List Port) (L : Port → Prop) (t : State), l.Nodup → (∀ q ∈ l, L q) → I L t →
      I (fun q => L q ∧ q ∉ l) (l.foldl (fun t p => portTick p t) t) := by
    intro l
    induction l with
    | nil => exact fun L t _ _ ht => congr (by simp) ht
    | cons p l ih =>
      intro L t hn hl ht
      obtain ⟨hp, hn⟩ := List.nodup_cons.mp hn
      have hstep := h L p t (hl p List.mem_cons_self) ht
      refine congr (fun q => ?_) (ih _ _ hn (fun q hq => ⟨hl q (List.mem_cons_of_mem _ hq), fun e => hp (e ▸ hq)⟩) hstep)
      rw [List.mem_cons]
      tauto
  unfold tickPorts
  dsimp only
  have hnodup : ∀ f : Port → Bool, (allPorts.filter f).Nodup := fun f => (List.nodup_finRange 24).filter f
  have hquiet := hfold (allPorts.filter fun p => !s.tickShows p) (fun _ => True) s (hnodup _) (fun _ _ => trivial) hs
  generalize (allPorts.filter fun p => !s.tickShows p).foldl (fun t p => portTick p t) s = t at hquiet
  have hloud : I (· ∈ allPorts.filter s.tickShows) t := by
    refine congr (fun q => ?_) hquiet
    cases hq : s.tickShows q <;> simp [allPorts, hq]
  have hrest := inAnyOrder_rest (I := fun l t => l.Nodup ∧ I (· ∈ l) t) (f := portTick)
    (fun l t n ht => ⟨ht.1, hspend _ t n ht.2⟩) (fun l i hi t ht => ?_) (allPorts.filter s.tickShows).length
    (allPorts.filter s.tickShows) t rfl ⟨hnodup s.tickShows, hloud⟩
  · exact congr (by simp) hrest.2
  · refine ⟨ht.1.eraseIdx i, congr (fun q => ?_) (h _ l[i] t (List.getElem_mem hi) ht.2)⟩
    rw [← ht.1.erase_getElem i hi, ht.1.mem_erase_iff]
    exact and_comm

/-! What the ticks of a completion keep. -/

/-- R133: every port that serves a station stands as judged. -/
def AllJudged (s : State) : Prop :=
  ∀ p st, s.live.serves p = some st → (s.station st).threshold ≤ 255
    ∧ judgedCond s.ports[p] (s.station st).threshold = s.ports[p].cond

/-- Why the input of port `p` is restarted in the course from `m` to `t`: it is the spare of station `st`, which was in
ON_PRIMARY and whose primary has failed. -/
structure Told (m t : State) (st : Station) (p : Port) : Prop where
  spare : (m.station st).spare = some p
  was : m.homing[st].state = .onPrimary
  failed : t.homing[st].primFailed = true
  now : t.homing[st].state = .switching ∨ t.homing[st].state = .isolated

/-- What LINK faults alone make of the homing and the inputs. -/
structure Story (m t : State) : Prop where
  primary : ∀ st : Station, t.homing[st].state = .onPrimary →
    m.homing[st].state = .onPrimary ∨ t.homing[st].spareFailed = true
  input : ∀ p : Port, t.ports[p].input = m.ports[p].input ∨ (t.ports[p].input = silentInput ∧ ∃ st, Told m t st p)

theorem Story.of_eq {m s t : State} (h : Story m s) (hh : t.homing = s.homing) (hp : SameInputs s t) : Story m t := by
  refine ⟨fun st => by rw [hh]; exact h.primary st, fun p => ?_⟩
  rw [hp p]
  exact (h.input p).imp_right fun ⟨hs, st, ht⟩ => ⟨hs, st, ht.spare, ht.was, by rw [hh]; exact ht.failed,
    by rw [hh]; exact ht.now⟩

/-- A station whose primary has failed and that is in SWITCHING or ISOLATED stays so at a LINK fault. -/
theorem FaultTaken.told {st x : Station} {m s t : State} {p : Port} (h : FaultTaken st s t) (ht : Told m s x p) :
    Told m t x p := by
  obtain ⟨hspare, hwas, hfailed, hnow⟩ := ht
  by_cases hx : x = st
  · subst hx
    cases h with
    | none hst ht => rw [ht]; exact ⟨hspare, hwas, hfailed, hnow⟩
    | switched sp hst hsp hc ht => rw [hst] at hnow; simp at hnow
    | isolated k hk r cause ht =>
      rcases hk with ⟨-, hst⟩ | ⟨rfl, hst⟩
      · rw [hst] at hnow
        simp at hnow
      · refine ⟨hspare, hwas, ?_, .inr ?_⟩
        · rw [ht, enterIsolated_homing_after, set_self]
          exact hfailed
        · rw [ht, enterIsolated_homing_after, set_self]
          unfold State.returned
          dsimp only
          rw [clean_primary_marked (by rw [set_self]; exact hfailed), anyClean_spare_marked (by rw [set_self]),
            if_neg (by simp), if_neg (by simp)]
  · exact ⟨hspare, hwas, by rw [h.other hx]; exact hfailed, by rw [h.other hx]; exact hnow⟩

theorem FaultTaken.story {st : Station} {m s t : State} (hl : s.live = m.live) (h : FaultTaken st s t) (hs : Story m s) :
    Story m t := by
  have hold : ∀ p : Port, t.ports[p].input = s.ports[p].input →
      t.ports[p].input = m.ports[p].input ∨ (t.ports[p].input = silentInput ∧ ∃ st, Told m t st p) := by
    intro p hp
    rw [hp]
    exact (hs.input p).imp_right fun ⟨hsil, x, hx⟩ => ⟨hsil, x, h.told hx⟩
  refine ⟨fun x hx => ?_, fun p => ?_⟩
  · by_cases hxs : x = st
    · subst hxs
      cases h with
      | none hst ht => rw [ht] at hx ⊢; exact hs.primary x hx
      | switched sp hst hsp hc ht =>
        rw [ht, startSwitchover_homing, set_self] at hx
        cases hx
      | isolated k hk r cause ht =>
        rw [ht, enterIsolated_homing_after, set_self] at hx ⊢
        rcases hk with ⟨rfl, -⟩ | ⟨rfl, -⟩
        · refine absurd hx ?_
          unfold State.returned
          dsimp only
          rw [clean_primary_marked (by rw [set_self]), if_neg (by simp)]
          split <;> decide
        · exact .inr rfl
    · rw [h.other hxs] at hx ⊢
      exact hs.primary x hx
  · have hfull := h
    cases h with
    | none hst ht => exact hold p (by rw [ht])
    | isolated k hk r cause ht => exact hold p (by rw [ht]; exact enterIsolated_inputs st r cause _ p)
    | switched sp hst hsp hc ht =>
      by_cases hp : p = sp
      · subst hp
        refine .inr ⟨by rw [ht, startSwitchover_silent], st, ?_, ?_, ?_, ?_⟩
        · rw [← hsp, State.station, State.station, hl]
        · refine (hs.primary st hst).resolve_right fun hm => ?_
          rw [clean_spare_marked hsp hm] at hc
          cases hc
        · rw [ht, startSwitchover_homing, set_self]
        · rw [ht, startSwitchover_homing, set_self]
          exact .inl rfl
      · exact hold p (by rw [ht, startSwitchover_input st hp])

/-- What holds in the course of the ticks from `m`, `L` the ports still to tick. -/
structure Counted (m : State) (L : Port → Prop) (t : State) : Prop where
  live : t.live = m.live
  stations : t.faults.stations = m.faults.stations
  still : ∀ q, L q → Eased m.ports[q] t.ports[q]
  ticked : ∀ q, ¬ L q → ∃ c, Eased { m.ports[q].tick with cond := c } t.ports[q]
  switch : SwitchKept m t
  story : AllJudged m → Story m t

theorem Ticked.silent {p : Port} {s t : State} (h : Ticked p s t) (q : Port) (hq : s.ports[q].input = silentInput) :
    t.ports[q].input = silentInput := by
  by_cases hqp : q = p
  · subst hqp
    obtain ⟨c, hc⟩ := h.self
    exact hc.input.elim (fun e => e.trans ((PortUnit.tick_input _).trans hq)) id
  · exact (h.other q hqp).input.elim (·.trans hq) id

theorem counted_tick {m : State} {L : Port → Prop} {p : Port} {t : State} (hp : L p) (h : Counted m L t) :
    Counted m (fun q => L q ∧ q ≠ p) (portTick p t) := by
  have htick := portTick_ticked p t
  refine ⟨htick.live.trans h.live, htick.stations.trans h.stations, fun q hq => ?_, fun q hq => ?_,
    h.switch.trans htick.switch htick.silent, fun hj => ?_⟩
  · exact (h.still q hq.1).trans (htick.other q hq.2)
  · by_cases hqp : q = p
    · subst hqp
      obtain ⟨c, hc⟩ := htick.self
      have hpre : Eased { m.ports[q].tick with cond := m.ports[q].cond } t.ports[q].tick := Eased.tick (h.still q hp)
      have hlift : ∀ {u v : PortUnit}, Eased u v → Eased { u with cond := c } { v with cond := c } := by
        intro u v huv
        rcases huv with e | e <;> rw [e]
        · exact .inl rfl
        · exact .inr rfl
      exact ⟨c, (hlift hpre).trans hc⟩
    · obtain ⟨c, hc⟩ := h.ticked q fun hL => hq ⟨hL, hqp⟩
      exact ⟨c, hc.trans (htick.other q hqp)⟩
  · have hs := h.story hj
    obtain ⟨u, hul, huh, hui, htu⟩ := htick.fault (by
      intro st hst
      have hstation : t.station st = m.station st := by rw [State.station, h.live, State.station]
      obtain ⟨hup, -, hbucket, hcond⟩ := (h.still p hp).link
      rw [h.live] at hst
      obtain ⟨hk, hjudged⟩ := hj p st hst
      rw [hstation, hcond, ← hjudged]
      refine ⟨hk, ?_⟩
      unfold judgedCond
      rw [hup, hbucket, hcond])
    have hu := hs.of_eq huh hui
    obtain rfl | ⟨st, hst⟩ := htu
    · exact hu
    · exact hst.story (hul.trans h.live) hu

theorem tickPorts_counted (m : State) : Counted m (fun _ => False) (tickPorts m) := by
  refine tickPorts_each (I := Counted m) (fun L t n h => ?_) (fun L p t hp h => counted_tick hp h)
    ⟨rfl, rfl, fun q _ => .refl _, fun q hq => absurd trivial hq, switchKept_of_homing rfl, fun _ => ⟨fun st hst => .inl hst,
      fun p => .inl rfl⟩⟩
  obtain ⟨k, hk⟩ := spend_eq n t
  rw [hk]
  exact ⟨h.live, h.stations, h.still, h.ticked, h.switch.trans (switchKept_of_homing rfl) fun _ => id,
    fun hj => (h.story hj).of_eq rfl fun _ => rfl⟩

/-! The state before the ticks. -/

theorem mixPut_homing (c : State) : (mixPut c).homing = c.homing := by
  unfold mixPut
  have hmix : ∀ r t, (putMix r t).homing = t.homing := fun r t =>
    (Beside.foldl (fun t st => clipPresent_beside st t) _ _ : Beside { t with mix := { duck := r.duck, clip := r.clip } } _).homing
  rw [(putMeter_same _ _).homing, (putMarks_beside _).homing, hmix, (framesSent_same c).homing, sendFrames_homing, setSlots_homing]

theorem mixPut_live (c : State) : (mixPut c).live = c.live := by
  unfold mixPut
  rw [(putMeter_same _ _).live, (putMarks_stays _).live, (putMix_stays _ _).live]
  dsimp only
  rw [(framesSent_same c).live, sendFrames_live, setSlots_live]

theorem clipPresent_ports (st : Station) (s : State) : (clipPresent st s).ports = s.ports := by
  unfold clipPresent
  split
  · exact (broadcast_only _ _).ports
  · rfl

theorem putMix_ports (r : MixResult) (s : State) : (putMix r s).ports = s.ports := by
  unfold putMix
  exact foldl_keeps (P := fun t => t.ports = s.ports) (fun t st ht => (clipPresent_ports st t).trans ht) _ rfl

theorem sendFrames_ports (listen : Vector (Option Block) 24) (s : State) (p : Port) :
    (sendFrames listen s).ports[p] = { s.ports[p] with downSeq := s.ports[p].downSeq + 1 } := by
  simp [sendFrames]

theorem setSlots_ports (s : State) (p : Port) : (setSlots s).ports[p] = s.ports[p].setSlot := by
  simp [setSlots]

theorem mixPut_ports (c : State) (p : Port) :
    (mixPut c).ports[p] = { c.ports[p].setSlot with downSeq := c.ports[p].setSlot.downSeq + 1 } := by
  unfold mixPut
  have hmarks : ∀ t, (putMarks t).ports = t.ports := fun t => by rw [putMarks]
  rw [(putMeter_same _ _).ports, hmarks, putMix_ports, (framesSent_same c).ports, sendFrames_ports, setSlots_ports]

theorem allJudged_mixPut {c : State} (h : CondsOk c) : AllJudged (mixPut c) := by
  obtain ⟨hk, -, hports⟩ := condsOk_iff.mp h
  intro p st hst
  have hstation : (mixPut c).station st = c.station st := by rw [State.station, mixPut_live, State.station]
  rw [mixPut_live] at hst
  have hj := (hports p).2 st hst
  have hkst := (hk st).2.1
  rw [hstation, mixPut_ports]
  refine ⟨by show c.live.stations[st].threshold ≤ 255; omega, ?_⟩
  have hcond : c.ports[p].setSlot.cond = c.ports[p].cond ∧ c.ports[p].setSlot.up = c.ports[p].up
      ∧ c.ports[p].setSlot.bucket = c.ports[p].bucket := by
    unfold PortUnit.setSlot
    split
    · exact ⟨rfl, rfl, rfl⟩
    · split <;> exact ⟨rfl, rfl, rfl⟩
  obtain ⟨hc, hup, hb⟩ := hcond
  unfold judgedCond at hj ⊢
  dsimp only
  rw [hc, hup, hb]
  exact hj

/-! The port units' statement (R130 to R136). -/

theorem Eased.rest {u v : PortUnit} (h : Eased u v) : v.slot = u.slot ∧ v.up = u.up ∧ v.lastSeq = u.lastSeq
    ∧ v.validSeen = u.validSeen ∧ v.downSeq = u.downSeq ∧ v.bucket = u.bucket ∧ v.loss = u.loss ∧ v.acquire = u.acquire
    ∧ (u.fresh = false → v.fresh = false) := by
  rcases h with h | h <;> rw [h] <;> exact ⟨rfl, rfl, rfl, rfl, rfl, rfl, rfl, rfl, by simp⟩

theorem PortUnit.tick_rest (u : PortUnit) : u.tick.slot = u.slot ∧ u.tick.up = u.up ∧ u.tick.lastSeq = u.lastSeq
    ∧ u.tick.validSeen = false ∧ u.tick.downSeq = u.downSeq ∧ u.tick.fresh = u.fresh
    ∧ u.tick.bucket = (if u.validSeen then u.bucket else if u.up && decide (20 ≤ u.loss + 1) then u.bucket
        else min 255 (u.bucket + 8))
    ∧ u.tick.loss = (if u.validSeen then u.loss else if u.up then min 20 (u.loss + 1) else u.loss)
    ∧ u.tick.acquire = (if u.validSeen || u.up then u.acquire else 0) := by
  unfold PortUnit.tick
  cases hv : u.validSeen with
  | true => simp
  | false =>
    cases hup : u.up with
    | false => simp [hv, hup, raised]
    | true =>
      by_cases hl : u.loss + 1 < Config.lossLimit
      · have hl' : u.loss + 1 < 20 := hl
        simp [hv, hup, hl, raised]
        omega
      · have hl' : ¬ u.loss + 1 < 20 := hl
        simp [hv, hup, hl, Config.lossLimit]
        omega

theorem PortUnit.setSlot_rest (u : PortUnit) : u.setSlot.up = u.up ∧ u.setSlot.lastSeq = u.lastSeq
    ∧ u.setSlot.validSeen = u.validSeen ∧ u.setSlot.downSeq = u.downSeq ∧ u.setSlot.bucket = u.bucket
    ∧ u.setSlot.loss = u.loss ∧ u.setSlot.acquire = u.acquire ∧ u.setSlot.fresh = false
    ∧ u.setSlot.latest = u.latest
    ∧ u.setSlot.conceal = (if u.fresh then .fresh else if u.conceal = .fresh then .halved else .silent)
    ∧ u.setSlot.slot = (if u.fresh then u.latest
      else if u.conceal = .fresh then u.latest.map (fun x => BitVec.ofInt 16 (x.toInt / 2)) else silence) := by
  unfold PortUnit.setSlot
  split
  · exact ⟨rfl, rfl, rfl, rfl, rfl, rfl, rfl, rfl, rfl, rfl, rfl⟩
  · split <;> exact ⟨rfl, rfl, rfl, rfl, rfl, rfl, rfl, rfl, rfl, rfl, rfl⟩

/-- Settles O10: the slot is set, the frame counted, the tick taken; the homing restarts an input where a switchover
begins, which with judged conditions only a LINK fault in ON_PRIMARY does. -/
theorem completionOfThePortUnits : Obligations.CompletionOfThePortUnits := by
  intro s hcalm
  refine ⟨_, exec_completion hcalm, fun p => ?_⟩
  generalize s.composed = c
  have hcount := tickPorts_counted (mixPut c)
  have hm := mixPut_ports c
  have hhom := mixPut_homing c
  have hlive := mixPut_live c
  have hjudged := allJudged_mixPut (c := c)
  generalize mixPut c = m at hcount hm hhom hlive hjudged
  generalize tickPorts m = t at hcount
  dsimp only
  obtain ⟨cond, hp⟩ := hcount.ticked p id
  obtain ⟨h1, h2, h3, h4, h5, h6, h7, h8, h9⟩ := hp.rest
  obtain ⟨k1, k2, k3, k4, k5, k6, k7, k8, k9⟩ := m.ports[p].tick_rest
  obtain ⟨l1, l2, l3, l4, l5, l6, l7, l8, l9, l10, l11⟩ := c.ports[p].setSlot_rest
  dsimp only at h1 h2 h3 h4 h5 h6 h7 h8 h9
  have hinput : m.ports[p].input = (c.ports[p].latest,
      if c.ports[p].fresh then .fresh else if c.ports[p].conceal = .fresh then .halved else .silent) := by
    rw [hm, ← l9, ← l10]
    rfl
  refine ⟨?_, h9 ?_, fun hc => ?_, fun st hwas hnow hac => ?_, ?_, ?_, ?_, ?_, ?_, ?_, ?_⟩
  · rw [h1, k1, hm, ← l11]
  · rw [k6, hm]
    exact l8
  · rcases (hcount.story (hjudged hc)).input p with h | ⟨h, st, hst⟩
    · rw [hinput] at h
      exact .inl (Prod.mk.inj h)
    · refine .inr ⟨(Prod.mk.inj h).1, (Prod.mk.inj h).2, st, ?_, by rw [← hhom]; exact hst.was, hst.failed, hst.now⟩
      have := hst.spare
      rwa [State.station, hlive] at this
  · rcases hcount.switch st hnow with ⟨h, -⟩ | h
    · rw [hhom, hwas] at h
      cases h
    · exact Prod.mk.inj (h p hac)
  · rw [h2, k2, hm]; exact l1
  · rw [h3, k3, hm]; exact l2
  · rw [h4, k4]
  · rw [h5, k5, hm, ← l4]
  · rw [h6, k7, hm]
    dsimp only
    rw [l3, l5, l1, l6]
  · rw [h7, k8, hm]
    dsimp only
    rw [l3, l1, l6]
  · rw [h8, k9, hm]
    dsimp only
    rw [l3, l1, l7]

end Sys2Proof.Machine
end

section
/-! The mix of a completion (R41 to R51), the CLIP conditions it hands (R164), and the full-scale marks (R137). -/

namespace Sys2Proof.Machine

/-! The listener's mix, value by value. -/

theorem mixInput_xs (c : State) (a : Station) (k : Fin 24) :
    c.mixInput.xs[a][k] = (c.inputBlock a)[k].toInt * (c.station a).talkGain / 256 := by
  simp [State.mixInput, State.talkScaled, waveOf, scale]

theorem mixInput_sums (c : State) (n : Net) (k : Fin 24) :
    c.mixInput.sums[n][k] = (c.arb.holders[n].map fun h => c.mixInput.xs[h.st][k]).sum := by
  simp [State.mixInput, netSum]

theorem mixInput_prog (c : State) (k : Fin 24) : c.mixInput.prog[k] = (c.programme[k]).toInt := by
  simp [State.mixInput, waveOf]

theorem listenWave_get (c : State) (duck : Nat) (st : Station) (k : Fin 24) :
    (c.listenWave c.mixInput duck st)[k] = ListenValue c duck st k := by
  have hmix : (Vector.ofFn (c.masterScaled c.mixInput duck st))[k] = c.masterScaled c.mixInput duck st k := ofFn_get _ _
  have hcontribution : ∀ n, c.contribution c.mixInput st k n =
      if (c.live.cell st n).level = 0 then 0
      else ((c.arb.holders[n].map fun h => (c.inputBlock h.st)[k].toInt * (c.station h.st).talkGain / 256).sum
        - (if c.arb.holders[n].any (fun h => h.st = st) then (c.inputBlock st)[k].toInt * (c.station st).talkGain / 256 else 0))
          * (c.live.cell st n).level / 256 := by
    intro n
    unfold State.contribution
    dsimp only
    rw [mixInput_sums, mixInput_xs]
    simp only [mixInput_xs]
    rfl
  unfold State.listenWave State.announceFor ListenValue
  cases c.arb.announce with
  | none =>
    dsimp only
    rw [hmix, State.masterScaled, mixInput_prog, funext hcontribution]
    rfl
  | some a =>
    dsimp only
    by_cases h : a ≠ st ∧ (c.station st).recvAnn = true
    · have hb : (decide (a ≠ st) && (c.station st).recvAnn) = true := by simpa using h
      rw [if_pos h, if_pos hb]
      dsimp only
      rw [← mixInput_xs]
      simp [scale]
    · have hb : ¬ (decide (a ≠ st) && (c.station st).recvAnn) = true := by simpa using h
      rw [if_neg h, if_neg hb]
      dsimp only
      rw [hmix, State.masterScaled, mixInput_prog, funext hcontribution]
      rfl

theorem saturate_eq (x : Int) : saturate x = max (-32768) (min 32767 x) := by
  unfold saturate
  split
  · omega
  · split <;> omega

theorem clips_iff (x : Int) : clips x = true ↔ x < -32768 ∨ 32767 < x := by
  unfold clips saturate
  rw [decide_eq_true_eq]
  split
  · omega
  · split <;> omega

theorem vector_any_iff {α : Type} {n : Nat} (v : Vector α n) (p : α → Bool) : v.any p = true ↔ ∃ k : Fin n, p v[k] = true := by
  rw [Vector.any_eq_true]
  constructor
  · rintro ⟨i, hi, h⟩
    exact ⟨⟨i, hi⟩, h⟩
  · rintro ⟨k, h⟩
    exact ⟨k.val, k.isLt, h⟩

theorem clipNext_iff (c : State) (duck : Nat) (st : Station) :
    c.clipNext c.mixInput duck st = true ↔
      c.listener st = true ∧ ∃ k, ListenValue c duck st k < -32768 ∨ 32767 < ListenValue c duck st k := by
  unfold State.clipNext
  rw [Bool.and_eq_true, vector_any_iff]
  simp only [clips_iff, listenWave_get]

theorem toList_eq_finRange {α : Type} {n : Nat} (v : Vector α n) : v.toList = (List.finRange n).map fun k => v[k] := by
  refine List.ext_getElem (by simp) fun i h1 h2 => ?_
  simp

theorem listenBlock_bytes (c : State) (duck : Nat) (st : Station) :
    listenBytes (some (Wave.toBlock (c.listenWave c.mixInput duck st))) = 24 :: ((List.finRange 24).map fun k =>
      sampleBytes (BitVec.ofInt 16 (max (-32768) (min 32767 (ListenValue c duck st k))))).flatten := by
  have hget : ∀ k : Fin 24, (Wave.toBlock (c.listenWave c.mixInput duck st))[k]
      = BitVec.ofInt 16 (max (-32768) (min 32767 (ListenValue c duck st k))) := by
    intro k
    rw [← listenWave_get, ← saturate_eq]
    simp [Wave.toBlock, toSample]
  unfold listenBytes
  dsimp only
  rw [toList_eq_finRange, List.map_map]
  exact congrArg (fun l : List (List Byte) => (24 : Byte) :: l.flatten) (List.map_congr_left fun k _ => congrArg sampleBytes (hget k))

/-! The conditions handed to the fault supervisor (R137, R164). -/

theorem framesSent_faults (c : State) : (framesSent c).faults = c.faults := by
  rw [(framesSent_same c).faults, sendFrames_faults, setSlots_faults]

theorem clipPresent_stations (st x : Station) (s : State) :
    (clipPresent st s).faults.modes = s.faults.modes
      ∧ (clipPresent st s).faults.stations[x] = { s.faults.stations[x] with
          clipWarn := s.faults.stations[x].clipWarn || (decide (s.faults.modes.clip = .warn) && decide (x = st)) } := by
  by_cases h : (decide (s.faults.modes.clip = .warn) && !s.faults.stations[st].clipWarn) = true
  · have hpresent : clipPresent st s
        = broadcast (clipWarnReport st) (s.modStFaults st fun f => { f with clipWarn := true }) := if_pos h
    have hb := broadcast_only (clipWarnReport st) (s.modStFaults st fun f => { f with clipWarn := true })
    rw [hpresent]
    refine ⟨hb.modes, (congrArg (fun v => v[x]) hb.stations).trans ?_⟩
    rw [State.modStFaults_faults]
    dsimp only
    rw [upd_get, (Bool.and_eq_true_iff.mp h).1]
    by_cases hx : st = x
    · subst hx
      simp
    · simp [-Fin.getElem_fin, hx, Ne.symm hx]
  · have hpresent : clipPresent st s = s := if_neg h
    rw [hpresent]
    refine ⟨rfl, ?_⟩
    by_cases hx : x = st
    · subst hx
      have : (s.faults.stations[x].clipWarn || decide (s.faults.modes.clip = .warn)) = s.faults.stations[x].clipWarn := by
        revert h
        cases s.faults.stations[x].clipWarn <;> cases decide (s.faults.modes.clip = .warn) <;> simp
      rw [decide_eq_true (rfl : x = x), Bool.and_true, this]
    · rw [decide_eq_false hx, Bool.and_false, Bool.or_false]

theorem clipPresent_fold (l : List Station) (x : Station) (s : State) :
    (l.foldl (fun t st => clipPresent st t) s).faults.stations[x] = { s.faults.stations[x] with
      clipWarn := s.faults.stations[x].clipWarn || (decide (s.faults.modes.clip = .warn) && decide (x ∈ l)) } := by
  induction l generalizing s with
  | nil => simp
  | cons st l ih =>
    obtain ⟨hm, hs⟩ := clipPresent_stations st x s
    rw [List.foldl_cons, ih, hs, hm]
    have hcons : decide (x ∈ st :: l) = (decide (x = st) || decide (x ∈ l)) := by simp
    dsimp only
    rw [hcons, Bool.and_or_distrib_left, Bool.or_assoc]

/-- What a completion hands about station `st`: its CLIP condition and its full-scale mark. -/
theorem completion_stations (c : State) (st : Station) :
    (tickPorts (mixPut c)).faults.stations[st].clipWarn
        = (c.faults.stations[st].clipWarn || (decide (c.faults.modes.clip = .warn) && (setSlots c).computeMix.clip[st]))
      ∧ (tickPorts (mixPut c)).faults.stations[st].mark = some ((setSlots c).fullScaleMark st) := by
  have hput : ∀ t : State, (putMarks t).faults.stations[st] = { t.faults.stations[st] with mark := some (t.fullScaleMark st) } := by
    intro t
    rw [putMarks]
    exact ofFn_get _ st
  rw [(tickPorts_counted _).stations, mixPut, (putMeter_same _ _).faults, hput]
  refine ⟨?_, ?_⟩
  · dsimp only
    rw [putMix, clipPresent_fold]
    dsimp only
    rw [framesSent_faults]
    simp [allStations]
  · dsimp only
    have hbeside : Beside { framesSent c with mix := { duck := (setSlots c).computeMix.duck, clip := (setSlots c).computeMix.clip } }
        (putMix (setSlots c).computeMix (framesSent c)) := Beside.foldl (fun t st => clipPresent_beside st t) _ _
    have hhom := hbeside.homing
    have hlive := hbeside.stays.live
    have hports := putMix_ports (setSlots c).computeMix (framesSent c)
    dsimp only at hhom hlive
    rw [(framesSent_same c).homing, sendFrames_homing] at hhom
    rw [(framesSent_same c).live, sendFrames_live] at hlive
    rw [(framesSent_same c).ports] at hports
    generalize putMix (setSlots c).computeMix (framesSent c) = t at hhom hlive hports
    unfold State.fullScaleMark State.station
    rw [hhom, hlive, hports]
    congr 2
    split
    · rw [sendFrames_ports]
    · rfl

/-- Settles O12: the listen blocks and clip flags are the mix of the state at the slots' stage, and the CLIP conditions are
handed from its flags. -/
theorem listenBlocksAreTheMix : Obligations.ListenBlocksAreTheMix := by
  refine ⟨fun s hcalm => ?mix, fun st a => ?clip, fun r a => rfl⟩
  case clip =>
    unfold clipPresent
    simp only [Bool.and_eq_true, Bool.not_eq_true', decide_eq_true_eq]
    rfl
  case mix =>
    refine ⟨_, exec_completion hcalm, ?_⟩
    generalize s.composed = c
    dsimp only
    have hmix : (tickPorts (mixPut c)).mix = _ := (tickPorts_mix _).trans (mixPut_mix c)
    have hclip : ∀ st : Station, (tickPorts (mixPut c)).mix.clip[st] = true ↔ (setSlots c).listener st = true
        ∧ ∃ k, ListenValue (setSlots c) (tickPorts (mixPut c)).mix.duck[st] st k < -32768
          ∨ 32767 < ListenValue (setSlots c) (tickPorts (mixPut c)).mix.duck[st] st k := by
      intro st
      rw [hmix, ← clipNext_iff]
      simp [State.computeMix]
    refine ⟨hclip, fun p st hp hl => ?_, fun st => ?_⟩
    · have hsent := composeCompletion_sent c p
      rw [composeCompletion_eq] at hsent
      dsimp only at hsent
      have hblock : (setSlots c).listenFor (setSlots c).computeMix.listen p
          = some (Wave.toBlock ((setSlots c).listenWave (setSlots c).mixInput (tickPorts (mixPut c)).mix.duck[st] st)) := by
        unfold State.listenFor
        rw [hp]
        dsimp only
        rw [computeMix_listen, State.listenBlock, if_pos hl, hmix]
      rw [hsent, frame_listen _ _ _ 49 (by rw [listenBytes_length, hblock]; rfl), hblock, listenBlock_bytes]
    · rw [(completion_stations c st).1, hmix, setSlots_faults]

end Sys2Proof.Machine
end

section
/-! The meter (R53, R180), the overload marks (R159 to R162) and the responses that wait (R171, R177). -/

namespace Sys2Proof.Machine

/-! What the frames' stage leaves of the management processor. -/

theorem placeResponse_mgmt {p : Port} {m : Message} {s t : State} (h : placeResponse p m s = some t) : t.mgmt = s.mgmt := by
  obtain ⟨o, -, rfl⟩ := Option.map_eq_some_iff.mp h
  rfl

theorem placeTakeWaiting_mgmt (s : State) : (placeTakeWaiting s).mgmt = s.mgmt := by
  unfold placeTakeWaiting
  refine foldl_keeps (P := fun t => t.mgmt = s.mgmt) (fun t w ht => ?_) _ rfl
  split
  · split
    · next t' h => rw [placeResponse_mgmt h, ht]
    · exact ht
  · exact ht

theorem framesSent_mgmt (c : State) :
    (framesSent c).mgmt.meter = c.mgmt.meter ∧ (framesSent c).mgmt.settings = c.mgmt.settings := by
  have hnote : ∀ b (t : State), (noteReset b t).mgmt.meter = t.mgmt.meter ∧ (noteReset b t).mgmt.settings = t.mgmt.settings := by
    intro b t
    unfold noteReset
    split <;> exact ⟨rfl, rfl⟩
  obtain ⟨h1, h2⟩ := hnote (setSlots c).resetLeaves (placeTakeWaiting (sendFrames (setSlots c).computeMix.listen (setSlots c)))
  rw [framesSent, h1, h2, placeTakeWaiting_mgmt, sendFrames_mgmt, setSlots_mgmt]
  exact ⟨rfl, rfl⟩

/-! A measurement at a completion. -/

/-- `t` is as `s` in all that a measurement looks at. -/
structure SoundsAs (s t : State) : Prop where
  live : t.live = s.live
  homing : t.homing = s.homing
  settings : t.mgmt.settings = s.mgmt.settings
  ports : ∀ p : Port, t.ports[p].slot = s.ports[p].slot ∧ t.ports[p].up = s.ports[p].up ∧ t.ports[p].loss = s.ports[p].loss

namespace SoundsAs

variable {s t : State} (h : SoundsAs s t)
include h

theorem linkUp (p : Port) : t.linkUp p = s.linkUp p := by
  obtain ⟨-, hup, hloss⟩ := h.ports p
  rw [State.linkUp, hup, hloss, State.linkUp]

theorem programme : t.programme = s.programme := by
  have hslot : (fun p : Port => t.ports[p].slot) = fun p => s.ports[p].slot := funext fun p => (h.ports p).1
  have hblock : t.inputBlock = s.inputBlock := by
    funext st
    unfold State.inputBlock State.station State.isolated
    rw [h.live, h.homing]
    split
    · split
      · exact (h.ports _).1
      · rfl
    · rfl
  have hstation : t.programmeStation = s.programmeStation := by
    unfold State.programmeStation State.station State.isolated
    rw [h.live, h.homing, h.settings]
  rw [State.programme, hblock, hstation, State.programme]

theorem meterSamples (r : MixResult) (m : MeterPoint) : t.meterSamples r m = s.meterSamples r m := by
  cases m with
  | inputSlot p => exact (h.ports p).1
  | netSum n => rfl
  | listen st => rfl
  | programme => exact h.programme

theorem meterUnfit (m : MeterPoint) : t.meterUnfit m = s.meterUnfit m := by
  have hlink : t.linkUp = s.linkUp := funext h.linkUp
  unfold State.meterUnfit State.stationUnfit State.isolated
  rw [h.live, h.homing, h.settings, hlink]

end SoundsAs

theorem putMarks_soundsAs (s : State) : SoundsAs s (putMarks s) := by
  unfold putMarks
  exact ⟨rfl, rfl, rfl, fun _ => ⟨rfl, rfl, rfl⟩⟩

theorem putMix_homing (r : MixResult) (s : State) : (putMix r s).homing = s.homing :=
  (Beside.foldl (fun t st => clipPresent_beside st t) _ _ : Beside { s with mix := { duck := r.duck, clip := r.clip } } _).homing

theorem putMix_soundsAs (r : MixResult) (s : State) : SoundsAs s (putMix r s) := by
  have h := putMix_stays r s
  have hm := h.mgmt
  dsimp only at hm
  exact ⟨h.live, putMix_homing r s, by rw [hm], fun p => by rw [putMix_ports]; exact ⟨rfl, rfl, rfl⟩⟩

theorem framesSent_soundsAs (c : State) : SoundsAs (setSlots c) (framesSent c) := by
  have h := framesSent_same c
  refine ⟨?_, ?_, ?_, fun p => ?_⟩
  · rw [h.live, sendFrames_live]
  · rw [h.homing, sendFrames_homing]
  · rw [(framesSent_mgmt c).2, setSlots_mgmt]
  · rw [h.ports, sendFrames_ports]
    exact ⟨rfl, rfl, rfl⟩

theorem SoundsAs.trans {s t u : State} (h : SoundsAs s t) (k : SoundsAs t u) : SoundsAs s u :=
  ⟨k.live.trans h.live, k.homing.trans h.homing, k.settings.trans h.settings, fun p =>
    ⟨(k.ports p).1.trans (h.ports p).1, (k.ports p).2.1.trans (h.ports p).2.1, (k.ports p).2.2.trans (h.ports p).2.2⟩⟩

theorem tickPorts_mgmt (s : State) : (tickPorts s).mgmt = s.mgmt := by
  refine tickPorts_keeps (P := fun t => t.mgmt = s.mgmt) (fun t n ht => ?_) (fun p t ht => ?_) rfl
  · rw [(spend_stays n t).mgmt, ht]
  · rw [(portTick_stays p t).mgmt]
    exact ht

theorem completion_meter (c : State) :
    (tickPorts (mixPut c)).mgmt.meter = c.mgmt.meter.map fun m =>
      m.sample ((setSlots c).meterSamples (setSlots c).computeMix m.point) ((setSlots c).meterUnfit m.point) := by
  have hsound := ((framesSent_soundsAs c).trans (putMix_soundsAs (setSlots c).computeMix _)).trans (putMarks_soundsAs _)
  have hmeter : (putMarks (putMix (setSlots c).computeMix (framesSent c))).mgmt.meter = c.mgmt.meter := by
    have hm := (putMix_stays (setSlots c).computeMix (framesSent c)).mgmt
    dsimp only at hm
    rw [(putMarks_stays _).mgmt, hm, (framesSent_mgmt c).1]
  rw [tickPorts_mgmt, mixPut]
  generalize putMarks (putMix (setSlots c).computeMix (framesSent c)) = t at hsound hmeter
  rw [putMeter, State.modMgmt]
  dsimp only
  rw [hmeter]
  exact congrArg (fun f => c.mgmt.meter.map f) (funext fun m => by rw [hsound.meterSamples, hsound.meterUnfit])

/-! The measured points, spelled out. -/

theorem toBlock_eq (w : Wave) (f : Fin 24 → Int) (h : ∀ k : Fin 24, w[k] = f k) :
    Wave.toBlock w = Vector.ofFn fun k => BitVec.ofInt 16 (max (-32768) (min 32767 (f k))) := by
  refine vector_ext_fin fun k => ?_
  rw [ofFn_get, ← h, ← saturate_eq]
  simp [Wave.toBlock, toSample]

theorem meterSamples_inputSlot (s : State) (r : MixResult) (p : Port) : s.meterSamples r (.inputSlot p) = s.ports[p].slot := rfl

theorem meterSamples_programme (s : State) (r : MixResult) : s.meterSamples r .programme = s.programme := rfl

theorem meterSamples_netSum (c : State) (n : Net) :
    c.meterSamples c.computeMix (.netSum n) = Vector.ofFn fun k : Fin 24 => BitVec.ofInt 16 (max (-32768) (min 32767
      (c.arb.holders[n].map fun h => (c.inputBlock h.st)[k].toInt * (c.station h.st).talkGain / 256).sum)) := by
  have hsum : ∀ r : MixResult, c.meterSamples r (.netSum n) = Wave.toBlock r.input.sums[n] := fun _ => rfl
  have hinput : c.computeMix.input = c.mixInput := by rw [State.computeMix]
  rw [hsum, hinput]
  refine toBlock_eq _ _ fun k => ?_
  rw [mixInput_sums]
  simp only [mixInput_xs]

theorem meterSamples_listen (c : State) (st : Station) :
    c.meterSamples c.computeMix (.listen st) = if c.listener st then
      Vector.ofFn fun k => BitVec.ofInt 16 (max (-32768) (min 32767 (ListenValue c c.computeMix.duck[st] st k))) else silence := by
  have hlisten : ∀ r : MixResult, c.meterSamples r (.listen st) = r.listen[st].getD silence := fun _ => rfl
  rw [hlisten, computeMix_listen, State.listenBlock]
  split
  · exact toBlock_eq _ _ fun k => listenWave_get c _ st k
  · rfl

theorem stationUnfit_eq (c : State) (st : Station) :
    c.stationUnfit st = (decide (c.homing[st].state = .isolated) || c.homing[st].active.any fun p => !c.linkUp p) := by
  unfold State.stationUnfit State.isolated
  cases c.homing[st].active <;> rfl

theorem meterUnfit_inputSlot (c : State) (p : Port) : c.meterUnfit (.inputSlot p)
    = (!c.linkUp p || (c.live.serves p).any fun st => decide (c.homing[st].state = .isolated)) := by
  unfold State.meterUnfit
  dsimp only
  cases c.live.serves p <;> rfl

theorem meterUnfit_listen (c : State) (st : Station) : c.meterUnfit (.listen st)
    = (decide (c.homing[st].state = .isolated) || c.homing[st].active.any fun p => !c.linkUp p) := stationUnfit_eq c st

theorem meterUnfit_programme (c : State) : c.meterUnfit .programme = c.mgmt.settings.progSource.any fun st =>
    decide (c.homing[st].state = .isolated) || c.homing[st].active.any fun p => !c.linkUp p := by
  unfold State.meterUnfit
  dsimp only
  cases c.mgmt.settings.progSource with
  | none => rfl
  | some st => exact stationUnfit_eq c st

theorem sample_eq (m : Meter) (y : Block) (unfit : Bool) (h : m.measuring = true) :
    m.sample y unfit = { m with
      count := m.count + 1,
      peak := y.toList.foldl (fun a x => max a x.toInt.natAbs) m.peak,
      blocks := m.blocks + (if y.toList.any (fun x => x.toInt = -32768 || x.toInt = 32767) then 1 else 0),
      noSignal := m.noSignal || unfit } := by
  unfold Meter.sample peakOf Block.hasFullScale
  rw [if_pos h, ← Vector.foldl_toList, ← Vector.any_toList]
  rfl

/-- Settles O20: the phases' ends are events of their own; each completion samples the point as its slots and mix stand. -/
theorem meterPhasesEnd : Obligations.MeterPhasesEnd := by
  refine ⟨fun s m hcalm hm => ⟨fun hp hc => ?blank, fun hp hc => ?result⟩, fun s hcalm => ?sample⟩
  case blank =>
    have hdue : Due.isDue s .meterBlank = true := by
      simp [Due.isDue, hm, Meter.blankDone, hp, hc, Config.meterBlank]
    rw [exec_event_due (d := .meterBlank) rfl hcalm hdue]
    show Host.Outcome.next (endBlank s) = _
    rw [endBlank, State.modMgmt, hm]
    rfl
  case result =>
    have hdue : Due.isDue s .meterResult = true := by
      simp [Due.isDue, hm, Meter.windowDone, hp, hc, Config.meterWindow]
    rw [exec_event_due (d := .meterResult) rfl hcalm hdue]
    show Host.Outcome.next (reportMeter s) = _
    rw [reportMeter, hm]
    rfl
  case sample =>
    refine ⟨_, exec_completion hcalm, ?_⟩
    generalize s.composed = c
    dsimp only
    have hmeter := completion_meter c
    have hduck : ∀ st : Station, (tickPorts (mixPut c)).mix.duck[st] = (setSlots c).computeMix.duck[st] := fun st => by
      rw [tickPorts_mix, mixPut_mix]
    rw [setSlots_mgmt]
    refine ⟨fun hm => ?_, fun m hm => ⟨fun hp => ?_, fun hp => ?_⟩⟩
    · rw [hmeter, hm]
      rfl
    · rw [hmeter, hm, Option.map_some, Meter.sample, if_neg (by simp [hp])]
    · rw [hmeter, hm, Option.map_some]
      refine congrArg some ((congrArg₂ m.sample ?_ ?_).trans (sample_eq m _ _ hp))
      · cases m.point with
        | inputSlot p => exact meterSamples_inputSlot _ _ p
        | netSum n => exact meterSamples_netSum _ n
        | listen st =>
          dsimp only
          rw [meterSamples_listen, hduck]
        | programme => exact meterSamples_programme _ _
      · cases m.point with
        | inputSlot p => exact meterUnfit_inputSlot _ p
        | netSum n => rfl
        | listen st => exact meterUnfit_listen _ st
        | programme =>
          rw [meterUnfit_programme, setSlots_mgmt]

end Sys2Proof.Machine
end

section
/-! The overload marks (R137, R159 to R162), and the responses and streamed reads that wait for room (R171, R177). -/

namespace Sys2Proof.Machine

/-! One station's fault state put, with the arbiter. -/

/-- The state with the arbiter and one station's fault state replaced. -/
def State.putStation (s : State) (st : Station) (f : StationFaults) (a : Arbiter) : State :=
  { s with arb := a, faults := { s.faults with stations := s.faults.stations.set st f } }

theorem modStFaults_eq (s : State) (st : Station) (f : StationFaults → StationFaults) :
    s.modStFaults st f = s.putStation st (f s.faults.stations[st]) s.arb := rfl

theorem putStation_modStFaults (s : State) (st : Station) (g : StationFaults) (a : Arbiter)
    (f : StationFaults → StationFaults) : (s.putStation st g a).modStFaults st f = s.putStation st (f g) a := by
  rw [modStFaults_eq]
  unfold State.putStation
  dsimp only
  rw [Vector.set_set, set_self]

theorem putStation_mute (s : State) (st : Station) (g : StationFaults) (a : Arbiter) : (s.putStation st g a).mute st = g.mute := by
  unfold State.putStation State.mute
  dsimp only
  rw [set_self]

theorem beginMute_putStation (s : State) (st : Station) (g : StationFaults) (m : Mute) :
    beginMute st m (s.putStation st g s.arb) = s.putStation st { g with mute := m } (Arbiter.withdraw s.live st .mute s.arb) := by
  rw [beginMute, putStation_modStFaults]
  rfl

theorem overWarn_putStation (s : State) (st : Station) (g : StationFaults) :
    overWarn st (s.putStation st g s.arb) = s.putStation st { g with overWarn := true } s.arb :=
  putStation_modStFaults s st g s.arb _

/-! A counted mark. -/

theorem count_eq (f : StationFaults) (m : Bool) : f.count m =
    if m then { f with mark := none, clearRun := 0, setRun := if f.setRun < 16 then f.setRun + 1 else f.setRun,
                       overCond := f.overCond || decide (15 ≤ f.setRun) }
    else { f with mark := none, setRun := 0, clearRun := if f.clearRun < 16 then f.clearRun + 1 else f.clearRun,
                  overCond := f.overCond && decide (f.clearRun < 15) } := by
  have hset : decide (Config.overloadRun ≤ runNext f.setRun) = decide (15 ≤ f.setRun) := by
    rw [runNext, Config.overloadRun]
    split <;> rw [decide_eq_decide] <;> omega
  have hclear : decide (runNext f.clearRun < Config.overloadRun) = decide (f.clearRun < 15) := by
    rw [runNext, Config.overloadRun]
    split <;> rw [decide_eq_decide] <;> omega
  unfold StationFaults.count
  rw [hset, hclear]
  rfl

theorem overloadBegun_putStation (s : State) (st : Station) (g : StationFaults) :
    overloadBegun st (s.putStation st g s.arb) = match s.faults.modes.overload with
      | .latched => broadcast (overRaisedReport st .latched) (if g.mute = .none then
          s.putStation st { g with mute := .latched } (Arbiter.withdraw s.live st .mute s.arb) else s.putStation st g s.arb)
      | .rekey => if (s.station st).kind = .source then
          broadcast (overRaisedReport st .rekey) (s.putStation st { g with overWarn := true } s.arb)
        else broadcast (overRaisedReport st .rekey) (if g.mute = .none then
          s.putStation st { g with mute := .rekey } (Arbiter.withdraw s.live st .mute s.arb) else s.putStation st g s.arb)
      | .warn => broadcast (overRaisedReport st .warn) (s.putStation st { g with overWarn := true } s.arb)
      | .auto => broadcast (overRaisedReport st .auto) (s.putStation st g s.arb)
      | .off => s.putStation st g s.arb := by
  have hmodes : (s.putStation st g s.arb).faults.modes = s.faults.modes := rfl
  have hstation : (s.putStation st g s.arb).station st = s.station st := rfl
  unfold overloadBegun overloadAct
  rw [hmodes]
  cases s.faults.modes.overload with
  | off => rw [if_pos rfl]
  | auto => rw [if_neg (by decide)]
  | warn => rw [if_neg (by decide)]; dsimp only; rw [overWarn_putStation]
  | latched => rw [if_neg (by decide)]; dsimp only; rw [putStation_mute, beginMute_putStation]
  | rekey =>
    rw [if_neg (by decide)]
    dsimp only
    rw [putStation_mute, beginMute_putStation, overWarn_putStation, hstation, apply_ite (broadcast _)]

theorem overload_isDue {s : State} {st : Station} {m : Bool} (h : s.faults.stations[st].mark = some m) :
    (Due.overload st).isDue s = true := by
  rw [Due.isDue, h]
  rfl

theorem takeMark_eq {s : State} {st : Station} {m : Bool} (h : s.faults.stations[st].mark = some m) :
    (Due.overload st).take s = countMark st m s := by
  show takeMark st s = _
  rw [takeMark, h]

theorem fullScaleMark_eq (c : State) (st : Station) : c.fullScaleMark st = ((c.station st).enabled
    && decide ((c.station st).kind ≠ .cueStation) && c.homing[st].active.any fun p =>
      c.ports[p].slot.toList.any fun x => decide (x.toInt = -32768) || decide (x.toInt = 32767)) := by
  have hscale : ∀ b : Block, Block.hasFullScale b = b.toList.any fun x => decide (x.toInt = -32768) || decide (x.toInt = 32767) := by
    intro b
    rw [Block.hasFullScale, ← Vector.any_toList]
    rfl
  unfold State.fullScaleMark
  cases c.homing[st].active with
  | none => rfl
  | some p =>
    dsimp only
    rw [hscale]
    rfl

/-- Settles O23: a mark is formed at each completion, counted as an event, and its condition's change responded to by the
mode; a Take clears what no longer has a talker. -/
theorem overloadMarksAreCounted : Obligations.OverloadMarksAreCounted := by
  refine ⟨fun s st m hcalm hm => ?count, fun s hcalm => ?mark, fun old new f => ?take⟩
  case count =>
    rw [exec_event_due (d := .overload st) rfl hcalm (overload_isDue hm), takeMark_eq hm]
    dsimp only
    rw [← count_eq]
    unfold countMark
    dsimp only
    rw [modStFaults_eq]
    refine congrArg Host.Outcome.next ?_
    split
    · rfl
    · split
      · rw [overloadBegun_putStation]
        have hmute : (s.faults.stations[st].count m).mute = s.faults.stations[st].mute := by
          rw [count_eq]
          split <;> rfl
        rw [hmute]
        cases s.faults.modes.overload <;> rfl
      · unfold overloadEnded
        rfl
  case mark =>
    refine ⟨_, exec_completion hcalm, fun st => ?_⟩
    generalize s.composed = c
    dsimp only
    rw [(completion_stations c st).2, fullScaleMark_eq]
  case take =>
    refine ⟨rfl, fun st => ?_⟩
    have hget : (f.applyTake old new).stations[st] = (f.stations[st]).afterTake old.stations[st] new.stations[st] := by
      rw [Faults.applyTake]
      exact ofFn_get _ st
    dsimp only
    rw [hget, StationFaults.afterTake]
    simp only [Bool.or_eq_true, Bool.and_eq_true, Bool.not_eq_true', decide_eq_true_eq, and_assoc]
    refine ⟨fun h => if_pos h, fun h => ?_⟩
    rw [if_neg h]
    split <;> rfl

/-! Responses that wait (R171, R177). -/

/-- What the placing of the Takes' waiting responses reads and changes: the queues and those that wait. -/
theorem placeTakeWaiting_congr {s t : State} (ho : t.out = s.out) (hw : t.takeWaiting = s.takeWaiting) :
    (placeTakeWaiting t).takeWaiting = (placeTakeWaiting s).takeWaiting := by
  have hfold : ∀ (l : List TakeWait) (s t : State), t.out = s.out → t.takeWaiting = s.takeWaiting →
      (l.foldl (fun t w => if w.ripe then
          match placeResponse w.port w.msg t with
          | some t' => t'
          | none => { t with takeWaiting := t.takeWaiting ++ [w] }
        else { t with takeWaiting := t.takeWaiting ++ [w] }) t).takeWaiting
      = (l.foldl (fun t w => if w.ripe then
          match placeResponse w.port w.msg t with
          | some t' => t'
          | none => { t with takeWaiting := t.takeWaiting ++ [w] }
        else { t with takeWaiting := t.takeWaiting ++ [w] }) s).takeWaiting := by
    intro l
    induction l with
    | nil => exact fun s t _ h => h
    | cons w l ih =>
      intro s t ho hw
      rw [List.foldl_cons, List.foldl_cons]
      refine ih _ _ ?_ ?_
      all_goals
        split
        · rw [placeResponse, placeResponse, ho]
          cases (s.out[w.port]).putResponse w.msg with
          | none => simp [ho, hw]
          | some o => simp [ho, hw]
        · simp [ho, hw]
  unfold placeTakeWaiting
  rw [hw]
  exact hfold _ _ _ ho rfl

theorem tickPorts_takeWaiting (s : State) : (tickPorts s).takeWaiting = s.takeWaiting := by
  refine tickPorts_keeps (P := fun t => t.takeWaiting = s.takeWaiting) (fun t n ht => ?_) (fun p t ht => ?_) rfl
  · rw [(spend_stays n t).takeWaiting, ht]
  · rw [(portTick_stays p t).takeWaiting]
    exact ht

theorem completion_takeWaiting (c : State) : (tickPorts (mixPut c)).takeWaiting = (placeTakeWaiting
    { c with out := c.out.map fun o => { o with queue := (fillArea 64 o.queue).2 } }).takeWaiting := by
  have hnote : ∀ b (t : State), (noteReset b t).takeWaiting = t.takeWaiting := by
    intro b t
    unfold noteReset
    split <;> rfl
  have hmeter : ∀ r t, (putMeter r t).takeWaiting = t.takeWaiting := fun r t => rfl
  rw [tickPorts_takeWaiting, mixPut, hmeter, (putMarks_stays _).takeWaiting, (putMix_stays _ _).takeWaiting]
  dsimp only
  rw [framesSent, hnote]
  refine placeTakeWaiting_congr ?_ ?_
  · rw [sendFrames, setSlots]
  · rw [sendFrames, setSlots]

/-- Settles O24: what waits for room is placed once its queue takes it, the responses of Takes once a completion's frames
have made room. -/
theorem waitingResponsesArePlaced : Obligations.WaitingResponsesArePlaced := by
  refine ⟨fun s hline => ⟨fun p m r hs => ?waiting, fun p tag i w hs hw => ?stream⟩, fun s => ?fold, fun s hcalm => ?completion⟩
  case waiting =>
    show running placeWaiting s = _
    rw [running_free hline, placeWaiting, hs]
    dsimp only
    cases h : placeResponse p m s with
    | none => rfl
    | some t =>
      dsimp only
      rw [setService, State.modMgmt, placeResponse_mgmt h]
  case stream =>
    show running streamOne s = _
    rw [running_free hline, streamOne, hs, hw]
    dsimp only
    have hper : w.table.perResponse = if w.table = .matrix then 8 else 1 := by cases w.table <;> rfl
    unfold readResponse Window.span
    rw [hper]
    have hm : ∀ body, responseTo 0x03 tag .ok body = { kind := 0x83, tag := tag, code := 0, body := body } := fun _ => rfl
    dsimp only
    rw [hm]
    generalize ho : placeResponse p _ s = o
    cases o with
    | none => rfl
    | some t =>
      dsimp only
      rw [setService, State.modMgmt, placeResponse_mgmt ho]
  case fold =>
    unfold placeTakeWaiting
    refine congrArg (fun f => s.takeWaiting.foldl f _) (funext fun a => funext fun w => ?_)
    cases w.ripe with
    | false => rfl
    | true => cases placeResponse w.port w.msg a <;> rfl
  case completion =>
    refine ⟨_, exec_completion hcalm, ?_⟩
    dsimp only
    exact completion_takeWaiting _

end Sys2Proof.Machine
end

section
/-! LINK faults, isolation and return spelled out (R144 to R150, R154). -/

namespace Sys2Proof.Machine

/-! What an isolation makes of the authority (R117, R149). -/

theorem loseAuthority_auth {s : State} (r : LossReason) (h : s.auth.holder.isSome = true) :
    (loseAuthority r s).auth = Authority.init := by
  obtain ⟨p, hp⟩ := Option.isSome_iff_exists.mp h
  rw [loseAuthority, hp]
  exact (broadcast_only _ _).auth

theorem authIsolated_auth_of_not {s : State} {st : Station} (h : s.holds st = false) : authIsolated st s = s := by
  rw [authIsolated, h, if_neg (by decide)]

theorem authIsolated_auth_of_holds {s : State} {st : Station} (h : s.holds st = true) (hq : s.auth.holder.isSome = true) :
    (authIsolated st s).auth = Authority.init := by
  rw [authIsolated, h, if_pos rfl, loseAuthority_auth _ hq]

theorem holds_congr {s t : State} (h : t.auth = s.auth) (st : Station) : t.holds st = s.holds st := by
  rw [State.holds, h, State.holds]

theorem spend_auth (n : Nat) (s : State) : (s.spend n).auth = s.auth := by
  obtain ⟨k, hk⟩ := spend_eq n s
  rw [hk]

/-- A station that does not hold authority leaves it as it is. -/
theorem isoParts_auth_of_not {st : Station} (r : IsoReason) (cause : Option Port) (n : Nat) (l : List IsoPart) {s : State}
    (h : s.holds st = false) : (inAnyOrder (IsoPart.take st r cause) n l s).auth = s.auth := by
  refine inAnyOrder_keeps (P := fun t => t.auth = s.auth) (fun t n ht => (spend_auth n t).trans ht) (fun x t ht => ?_) n l rfl
  cases x with
  | cue => exact (loseTargets_only _ t).auth.trans ht
  | report => exact (broadcast_only _ t).auth.trans ht
  | authority =>
    show (authIsolated st t).auth = _
    rw [authIsolated_auth_of_not ((holds_congr ht st).trans h), ht]

/-- A holding station's isolation loses authority, whenever its turn comes. -/
theorem isoParts_auth_of_holds {st : Station} (r : IsoReason) (cause : Option Port) {s : State} (h : s.holds st = true)
    (hq : s.auth.holder.isSome = true) {l : List IsoPart} (hl : IsoPart.authority ∈ l) :
    (inAnyOrder (IsoPart.take st r cause) l.length l s).auth = Authority.init := by
  have hrest := inAnyOrder_rest
    (I := fun l t => (t.auth = s.auth ∧ IsoPart.authority ∈ l) ∨ t.auth = Authority.init)
    (f := IsoPart.take st r cause) (fun l t n ht => by rw [spend_auth]; exact ht) (fun l i hi t ht => ?_) l.length l s rfl
    (.inl ⟨rfl, hl⟩)
  · exact hrest.resolve_left fun ⟨_, hm⟩ => List.not_mem_nil hm
  · have hmem : l[i] ≠ IsoPart.authority → IsoPart.authority ∈ l → IsoPart.authority ∈ l.eraseIdx i := by
      intro hne hx
      obtain ⟨j, hj, e⟩ := List.getElem_of_mem hx
      refine List.mem_eraseIdx_iff_getElem.mpr ⟨j, hj, fun e' => hne ?_, e⟩
      subst e'
      exact e
    have hbeside : ∀ {u : State}, u.auth = t.auth → l[i] ≠ .authority →
        (u.auth = s.auth ∧ IsoPart.authority ∈ l.eraseIdx i) ∨ u.auth = Authority.init := by
      intro u hu hne
      rw [hu]
      exact ht.imp_left fun ⟨h1, h2⟩ => ⟨h1, hmem hne h2⟩
    cases hx : l[i] with
    | cue => exact hbeside (loseTargets_only _ t).auth (by rw [hx]; decide)
    | report => exact hbeside (broadcast_only _ t).auth (by rw [hx]; decide)
    | authority =>
      refine .inr ?_
      show (authIsolated st t).auth = _
      rcases ht with ⟨hs, -⟩ | ht
      · exact authIsolated_auth_of_holds ((holds_congr hs st).trans h) (by rw [hs]; exact hq)
      · rw [authIsolated_auth_of_not (by rw [State.holds, ht]; rfl), ht]

theorem isolationBegun_auth (st : Station) (s : State) : (isolationBegun st s).auth = s.auth := by rw [isolationBegun_eq]

theorem enterIsolated_auth_of_not {st : Station} (r : IsoReason) (cause : Option Port) {s : State} (h : s.holds st = false) :
    (enterIsolated st r cause s).auth = s.auth := by
  rw [enterIsolated_eq, tryReturn_auth, isoParts_auth_of_not r cause _ _ (by rw [holds_congr (isolationBegun_auth st s), h]),
    isolationBegun_auth]

theorem enterIsolated_auth_of_holds {st : Station} (r : IsoReason) (cause : Option Port) {s : State} (h : s.holds st = true)
    (hq : s.auth.holder.isSome = true) : (enterIsolated st r cause s).auth = Authority.init := by
  have hb : (isolationBegun st s).holds st = true := by rw [holds_congr (isolationBegun_auth st s), h]
  rw [enterIsolated_eq, tryReturn_auth, isoParts_auth_of_holds r cause hb (by rw [isolationBegun_auth]; exact hq)
    (isoParts_authority hb)]

/-! The parts of an isolation. -/

theorem isoParts_spec (s : State) (st : Station) :
    (s.isoParts st).Nodup ∧ IsoPart.report ∈ s.isoParts st
      ∧ (IsoPart.authority ∈ s.isoParts st ↔ s.auth.holding = some (.station st))
      ∧ (IsoPart.cue ∈ s.isoParts st ↔ ∃ e ∈ s.cues, ∃ x ∈ s.targetsOf e.cue, x.2.1 = st ∧ x.2.2.2 ≠ .lost) := by
  have hcue : s.hasTargets (fun t _ => decide (t = st)) = true
      ↔ ∃ e ∈ s.cues, ∃ x ∈ s.targetsOf e.cue, x.2.1 = st ∧ x.2.2.2 ≠ .lost := by
    simp only [State.hasTargets, List.any_eq_true, Bool.and_eq_true, decide_eq_true_eq]
  have hholds : s.holds st = true ↔ s.auth.holding = some (.station st) := by rw [State.holds, decide_eq_true_eq]
  rw [← hcue, ← hholds]
  unfold State.isoParts
  cases s.hasTargets (fun t _ => decide (t = st)) <;> cases s.holds st <;> simp

/-! Reports and small updates. -/

theorem upd_upd {α : Type} {n : Nat} (v : Vector α n) (i : Fin n) (f g : α → α) :
    upd (upd v i f) i g = upd v i fun x => g (f x) := by
  refine vector_ext_fin fun j => ?_
  rw [upd_get, upd_get, upd_get]
  split
  · next h => rfl
  · rfl

theorem homingBytes_eq (s : State) (st : Station) : s.homingBytes st = [byteOf st.val,
    (match s.homing[st].state with
      | .onPrimary => 1
      | .switching => 2
      | .onSpare => 3
      | .isolated => 4),
    byteOf (s.station st).primary.val,
    (match (s.station st).spare with
      | some p => byteOf p.val
      | none => 0xFF),
    byteOf ((if s.homing[st].primFailed then 1 else 0) + (if s.homing[st].spareFailed then 2 else 0))] := by
  unfold State.homingBytes
  cases s.homing[st].state <;> cases (s.station st).spare <;> rfl

theorem authMoved_spec (st : Station) (p : Port) (s : State) : authMoved st p s = match s.auth.holder with
    | some q =>
      if s.auth.holding = some (.station st) then
        broadcast (movedReport q p st) { s with auth := { s.auth with holder := some p } }
      else s
    | none => s := by
  unfold authMoved State.holds
  cases s.auth.holder with
  | none => simp
  | some q =>
    by_cases h : s.auth.holding = some (.station st)
    · simp [h, State.modAuth]
    · simp [h]

theorem startSwitchover_eq (st : Station) (sp : Port) (s : State) :
    startSwitchover st sp s = reportHoming 0xD8 st [byteOf (s.station st).primary.val, byteOf sp.val] (authMoved st sp
      { s with
        homing := s.homing.set st { s.homing[st] with
          primFailed := true, state := .switching, active := some sp, switchRem := some 50 },
        ports := upd (upd s.ports (s.station st).primary fun x => { x with awaiting := false }) sp fun x =>
          { x with awaiting := true, latest := silence, fresh := false, conceal := .silent } }) := by
  unfold startSwitchover restartInput setAwaiting State.modPort
  dsimp only
  rw [upd_upd]
  rfl

theorem switchover_isDue {s : State} {st : Station} (h1 : s.homing[st].state = .switching)
    (h2 : s.homing[st].switchRem = some 0) : (Due.switchover st).isDue s = true := by
  simp [-Fin.getElem_fin, Due.isDue, h1, h2]

/-- The homing controller's events leave the test claims too, said of the lamps as a whole. -/
theorem Moves.rest_lamps {s t : State} (h : Moves s t) :
    t = { s with arb := t.arb, homing := t.homing, auth := t.auth, out := t.out, cues := t.cues, lamps := t.lamps,
                 ports := t.ports, freeCount := t.freeCount, faults := { s.faults with cueWarn := t.faults.cueWarn } } :=
  h.rest.trans (congrArg (fun l => { s with
    arb := t.arb, homing := t.homing, auth := t.auth, out := t.out, cues := t.cues, lamps := l, ports := t.ports,
    freeCount := t.freeCount, faults := { s.faults with cueWarn := t.faults.cueWarn } }) (congrArg State.lamps h.rest).symm)

/-! A LINK fault by the homing state (R144). -/

theorem linkFault_switches {st : Station} {sp : Port} {s : State} (hst : s.homing[st].state = .onPrimary)
    (hsp : (s.station st).spare = some sp) (hc : s.clean st sp = true) : linkFault st s = startSwitchover st sp s := by
  rw [linkFault, hst]
  dsimp only
  rw [hsp]
  exact if_pos hc

theorem linkFault_isolates {st : Station} {s : State} (hst : s.homing[st].state = .onPrimary)
    (hno : ∀ sp, (s.station st).spare = some sp → s.clean st sp = false) : linkFault st s = isolatePrimary st s := by
  rw [linkFault, hst]
  dsimp only
  cases hsp : (s.station st).spare with
  | none => rfl
  | some sp => exact if_neg (by rw [hno sp hsp]; decide)

theorem linkFault_offPrimary {st : Station} {s : State}
    (hst : s.homing[st].state = .switching ∨ s.homing[st].state = .onSpare) : linkFault st s = isolateSpare st s := by
  rcases hst with hst | hst <;> rw [linkFault, hst]

theorem linkFault_none {st : Station} {s : State} (hst : s.homing[st].state = .isolated) : linkFault st s = s := by
  rw [linkFault, hst]

/-- Settles O18: a LINK fault by the homing state, an isolation by its parts, a return by the ports that are clean. -/
theorem switchoverTimeoutIsolates : Obligations.SwitchoverTimeoutIsolates := by
  refine ⟨fun s st hcalm hst hrem => ?timeout, fun k st rest s => ?report, fun s st => ?fault,
    fun s st reason cause => ?isolation, fun a st reason cause => ⟨rfl, fun q hst hq => ?_, ?_⟩, fun s st => ?back⟩
  case timeout =>
    have hexec : exec (.switchoverTimeout st) s = .next (enterIsolated st .switchoverTimeout none s) :=
      exec_event_due (d := .switchover st) rfl hcalm (switchover_isDue hst hrem)
    have hhom := enterIsolated_homing st .switchoverTimeout none s
    refine ⟨hexec, _, hexec, enterIsolated_arb st _ _ s, ?_, fun u hu => ?_, fun h hq => enterIsolated_auth_of_holds _ _ h hq,
      fun h => enterIsolated_auth_of_not _ _ h, (enterIsolated_moves st _ _ s).rest_lamps⟩
    · rw [hhom, set_self]
      rfl
    · rw [hhom, set_other _ _ hu]
  case report =>
    rw [reportHoming, homingBytes_eq] <;> rfl
  case fault =>
    refine ⟨fun hst sp hsp hc => ?_, fun hst hno => ?_, fun hst => ?_, fun hst => ?_⟩
    · rw [linkFault_switches hst hsp hc, startSwitchover_eq, authMoved_spec] <;> rfl
    · exact linkFault_isolates hst hno
    · exact linkFault_offPrimary hst
    · exact linkFault_none hst
  case isolation =>
    have hbegun := isolationBegun_eq st s
    unfold Homing.isolate at hbegun
    dsimp only
    rw [enterIsolated_eq, ← hbegun]
    obtain ⟨l, hperm, hl⟩ := inAnyOrder_perm (IsoPart.take st reason cause) ((isolationBegun st s).isoParts st) (isolationBegun st s)
    obtain ⟨h1, h2, h3, h4⟩ := isoParts_spec (isolationBegun st s) st
    refine ⟨⟨l, hperm, by rw [hl]⟩, h1, h2, ?_, ?_⟩
    · rw [h3, isolationBegun_auth]
    · rw [h4, hbegun]
      rfl
  case back =>
    have hback : ∀ p x, returnOn st p x s = reportHoming 0xDB st [byteOf p.val] (cueReturned st
        { s with homing := s.homing.set st { s.homing[st] with state := x, active := some p },
                 ports := upd s.ports p fun v => { v with awaiting := true } }) := fun p x => rfl
    refine ⟨fun h => ?_, fun h hc => ?_, fun sp h hc hsp hcs => ?_, fun h hc hno => ?_⟩
    · exact if_neg (by rw [State.isolated, decide_eq_true_eq]; exact h)
    · rw [tryReturn, State.isolated, if_pos (decide_eq_true h), if_pos hc, hback]
    · rw [tryReturn, State.isolated, if_pos (decide_eq_true h), if_neg (by rw [hc]; decide), hsp]
      dsimp only
      rw [if_pos hcs, hback]
    · rw [tryReturn, State.isolated, if_pos (decide_eq_true h), if_neg (by rw [hc]; decide)]
      cases hsp : (s.station st).spare with
      | none => rfl
      | some sp => exact if_neg (by rw [hno sp hsp]; decide)
  · show authIsolated st a = _
    rw [authIsolated, State.holds, hst, if_pos (by simp), loseAuthority, hq]
    rfl
  · cases reason <;> rfl

end Sys2Proof.Machine
end

section
/-! Restore Station at its completion, and the homing controller's part of a Take (R152, R153). -/

namespace Sys2Proof.Machine

/-! What a report to the management ports reads. -/

/-- `t` is as `s` in all that a report to the management ports reads: who they are, which links are up, and the queues. -/
structure HearsAs (s t : State) : Prop where
  live : t.live = s.live
  homing : t.homing = s.homing
  linkUp : ∀ p, t.linkUp p = s.linkUp p
  out : t.out = s.out

theorem HearsAs.isMgmt {s t : State} (h : HearsAs s t) (p : Port) : t.isMgmt p = s.isMgmt p := by
  unfold State.isMgmt State.station
  rw [h.live, h.homing]

theorem HearsAs.broadcast {s t : State} (h : HearsAs s t) (m : Message) : HearsAs (broadcast m s) (broadcast m t) := by
  refine ⟨?_, ?_, fun p => ?_, ?_⟩
  · rw [(broadcast_only m t).live, (broadcast_only m s).live, h.live]
  · rw [(broadcast_only m t).homing, (broadcast_only m s).homing, h.homing]
  · rw [State.linkUp, (broadcast_only m t).ports, State.linkUp, (broadcast_only m s).ports]
    exact h.linkUp p
  · refine vector_ext_fin fun p => ?_
    rw [Machine.broadcast, Machine.broadcast]
    dsimp only
    rw [ofFn_get, ofFn_get, h.isMgmt, h.linkUp, h.out]

theorem HearsAs.reportHoming {s t : State} (h : HearsAs s t) (k : Nat) (st : Station) (r : List Byte) :
    HearsAs (reportHoming k st r s) (reportHoming k st r t) := by
  have hbytes : t.homingBytes st = s.homingBytes st := by
    unfold State.homingBytes State.station
    rw [h.live, h.homing]
  rw [Machine.reportHoming, Machine.reportHoming, hbytes]
  exact h.broadcast _

theorem linkUp_of_moves {s t : State} (h : Moves s t) (p : Port) : t.linkUp p = s.linkUp p := by
  obtain ⟨hup, hloss, -⟩ := (h.ports p).link
  rw [State.linkUp, hup, hloss, State.linkUp]

/-! The restore (R152). -/

/-- The port units once a restored station's awaiting marks are put. -/
theorem restoreAwaiting_ports (pr : Port) (r : StationRecord) (s : State) (q : Port) :
    (setAwaiting pr true (clearAwaiting r s)).ports[q] = { s.ports[q] with
      awaiting := if q = pr then true else if q = r.primary ∨ r.spare = some q then false else s.ports[q].awaiting } := by
  rw [clearAwaiting_eq, setAwaiting, State.modPort_ports, upd_get]
  dsimp only
  rw [ofFn_get]
  by_cases hp : q = pr
  · subst hp
    rw [if_pos rfl, if_pos rfl]
    split <;> rfl
  · rw [if_neg (Ne.symm hp), if_neg hp]
    split <;> rfl

theorem restoreAwaiting_rest (pr : Port) (r : StationRecord) (s : State) :
    setAwaiting pr true (clearAwaiting r s) = { s with ports := (setAwaiting pr true (clearAwaiting r s)).ports } := by
  rw [clearAwaiting_eq]
  rfl

theorem broadcast_rest (m : Message) (s : State) : broadcast m s = { s with out := (broadcast m s).out } := by rw [broadcast]

theorem authMoved_rest (st : Station) (p : Port) (s : State) :
    authMoved st p s = { s with auth := (authMoved st p s).auth, out := (authMoved st p s).out } := by
  unfold authMoved
  split
  · split
    · exact broadcast_rest _ _
    · rfl
  · rfl

theorem authMoved_auth (st : Station) (p : Port) (s : State) : (authMoved st p s).auth =
    if s.holds st && s.auth.holder.isSome then { s.auth with holder := some p } else s.auth := by
  unfold authMoved
  cases s.holds st with
  | false => rfl
  | true =>
    cases s.auth.holder with
    | none => rfl
    | some q => exact (broadcast_only _ _).auth

/-- A holder's move as it is heard by the management ports of a state that is heard as this one. -/
theorem authMoved_hears {s t : State} (h : HearsAs s t) (ha : t.auth = s.auth) (st : Station) (p : Port) :
    HearsAs (match s.auth.holder with
      | some q =>
        if s.auth.holding = some (.station st) then broadcast (reportOf 0xD3 [byteOf q.val, byteOf p.val, byteOf st.val]) s else s
      | none => s) (authMoved st p t) := by
  rw [authMoved_spec, ha]
  cases s.auth.holder with
  | none => exact h
  | some q =>
    dsimp only
    split
    · have hset : HearsAs s { t with auth := { s.auth with holder := some p } } :=
        ⟨h.live, h.homing, h.linkUp, h.out⟩
      exact hset.broadcast _
    · exact h

/-- R152, as an equation: the state once the station's homing and awaiting marks are put, its authority moved, reported. -/
theorem restorePrimary_eq (st : Station) (s : State) :
    restorePrimary st s = reportHoming 0xDC st [] (authMoved st (s.station st).primary
      (setAwaiting (s.station st).primary true (clearAwaiting (s.station st) { s with
        homing := s.homing.set st { s.homing[st] with state := .onPrimary, active := some (s.station st).primary } }))) := rfl

/-- A state restored, from the state in which the station's homing alone has been put. -/
def restoredFrom (st : Station) (pr : Port) (u : State) : State :=
  reportHoming 0xDC st [] (authMoved st pr (setAwaiting pr true (clearAwaiting (u.station st) u)))

theorem restoredFrom_spec (st : Station) (pr : Port) (u : State) :
    (restoredFrom st pr u).homing = u.homing
      ∧ (restoredFrom st pr u).ports[pr].awaiting = true
      ∧ (∀ q : Port, (u.station st).spare = some q → q ≠ pr → (restoredFrom st pr u).ports[q].awaiting = false)
      ∧ (∀ q : Port, { (restoredFrom st pr u).ports[q] with awaiting := u.ports[q].awaiting } = u.ports[q])
      ∧ (restoredFrom st pr u).auth
        = (if u.holds st && u.auth.holder.isSome then { u.auth with holder := some pr } else u.auth)
      ∧ (restoredFrom st pr u).out = (reportHoming 0xDC st [] (match u.auth.holder with
        | some q =>
          if u.auth.holding = some (.station st) then
            broadcast (reportOf 0xD3 [byteOf q.val, byteOf pr.val, byteOf st.val]) u
          else u
        | none => u)).out
      ∧ restoredFrom st pr u = { u with
        ports := (restoredFrom st pr u).ports, auth := (restoredFrom st pr u).auth, out := (restoredFrom st pr u).out } := by
  have hmoves := (clearAwaiting_moves (u.station st) u).trans (setAwaiting_moves pr true _)
  have hrest := restoreAwaiting_rest pr (u.station st) u
  have hports := restoreAwaiting_ports pr (u.station st) u
  unfold restoredFrom
  generalize setAwaiting pr true (clearAwaiting (u.station st) u) = w at hmoves hrest hports ⊢
  have hhom : w.homing = u.homing := by rw [hrest]
  have hauth : w.auth = u.auth := by rw [hrest]
  have hears : HearsAs u w := ⟨hmoves.live, hhom, linkUp_of_moves hmoves, by rw [hrest]⟩
  have hported : (reportHoming 0xDC st [] (authMoved st pr w)).ports = w.ports := by
    rw [(reportHoming_only _ _ _ _).ports, authMoved_ports]
  have hput : ∀ t : State, reportHoming 0xDC st [] t = { t with out := (reportHoming 0xDC st [] t).out } := fun t =>
    broadcast_rest _ t
  refine ⟨?_, ?_, fun q hq hne => ?_, fun q => ?_, ?_, ((authMoved_hears hears hauth st pr).reportHoming 0xDC st []).out, ?_⟩
  · rw [(reportHoming_only _ _ _ _).homing, authMoved_eq.1, hhom]
  · rw [hported, hports, if_pos rfl]
  · rw [hported, hports]
    dsimp only
    rw [if_neg hne, if_pos (.inr hq)]
  · rw [hported, hports]
  · rw [(reportHoming_only _ _ _ _).auth, authMoved_auth, hauth, holds_congr hauth]
  · rw [hported, (reportHoming_only _ _ _ _).auth]
    calc reportHoming 0xDC st [] (authMoved st pr w)
        = { authMoved st pr w with out := (reportHoming 0xDC st [] (authMoved st pr w)).out } := hput _
      _ = { w with auth := (authMoved st pr w).auth, out := (reportHoming 0xDC st [] (authMoved st pr w)).out } :=
        congrArg (fun v : State => { v with out := (reportHoming 0xDC st [] (authMoved st pr w)).out }) (authMoved_rest st pr w)
      _ = { u with ports := w.ports, auth := (authMoved st pr w).auth,
                   out := (reportHoming 0xDC st [] (authMoved st pr w)).out } :=
        congrArg (fun v : State => { v with
          auth := (authMoved st pr w).auth, out := (reportHoming 0xDC st [] (authMoved st pr w)).out }) hrest

/-- A station's homing put back on its primary, its restore done. -/
def backOnPrimary (st : Station) (s : State) : State :=
  { s with homing := s.homing.set st { s.homing[st] with
      state := .onPrimary, active := some (s.station st).primary, restorePending := false, restoreDue := false } }

theorem restorePrimary_restored (st : Station) (s : State) :
    restorePrimary st (s.modHoming st fun h => { h with restorePending := false, restoreDue := false })
      = restoredFrom st (s.station st).primary (backOnPrimary st s) := by
  rw [restorePrimary_eq, modHoming_self, modHoming_eq]
  dsimp only
  rw [Vector.set_set]
  rfl

theorem restore_isDue {s : State} {st : Station} (h : s.homing[st].restoreDue = true) : (Due.restore st).isDue s = true := h

theorem modHoming_clean (st : Station) (f : Homing → Homing) (s : State)
    (hf : ∀ h, (f h).primFailed = h.primFailed ∧ (f h).spareFailed = h.spareFailed) (p : Port) :
    (s.modHoming st f).clean st p = s.clean st p :=
  (modHoming_moves st f s).clean (by rw [modHoming_self]; exact hf _) p

/-! The homing controller's part of a Take (R153). -/

/-- Whether a record names port `p`, enabled or not. -/
def StationRecord.hasPort (r : StationRecord) (p : Port) : Bool := r.primary = p || r.spare = some p

theorem clearAwaiting_hasPort (r : StationRecord) (s : State) :
    clearAwaiting r s = { s with ports := Vector.ofFn fun p : Port =>
      { s.ports[p] with awaiting := s.ports[p].awaiting && !r.hasPort p } } := by
  rw [clearAwaiting_eq]
  refine congrArg (fun v => { s with ports := v }) (vector_ext_fin fun p => ?_)
  rw [ofFn_get, ofFn_get]
  have hport : (p = r.primary ∨ r.spare = some p) ↔ r.hasPort p = true := by
    simp [StationRecord.hasPort, eq_comm (a := p)]
  by_cases h : r.hasPort p = true
  · rw [if_pos (hport.mpr h), h, Bool.not_true, Bool.and_false]
  · rw [if_neg fun e => h (hport.mp e), Bool.eq_false_iff.mpr h, Bool.not_false, Bool.and_true]

/-- The state once the stations of a list are reset. -/
def resetAll (old new : Bank) (l : List Station) (s : State) : State :=
  { s with
    homing := Vector.ofFn fun x : Station => if x ∈ l then Homing.afterTake new.stations[x] else s.homing[x],
    ports := Vector.ofFn fun p : Port => { s.ports[p] with
      awaiting := s.ports[p].awaiting && l.all fun x => !(old.stations[x].hasPort p || new.stations[x].hasPort p) } }

theorem takeResetStation_eq (o n : StationRecord) (s : State) (st : Station) :
    takeResetStation o n s st = { s with
      homing := s.homing.set st (Homing.afterTake n),
      ports := Vector.ofFn fun p : Port => { s.ports[p] with
        awaiting := s.ports[p].awaiting && !(o.hasPort p || n.hasPort p) } } := by
  rw [takeResetStation, clearAwaiting_hasPort, clearAwaiting_hasPort]
  have hports : ∀ v w : Vector PortUnit 24, v = w →
      ({ s with homing := s.homing.set st (Homing.afterTake n), ports := v } : State)
        = { s with homing := s.homing.set st (Homing.afterTake n), ports := w } := fun v w h => by rw [h]
  refine hports _ _ (vector_ext_fin fun p => ?_)
  dsimp only [State.modHoming]
  rw [ofFn_get, ofFn_get, ofFn_get]
  dsimp only
  rw [Bool.not_or, Bool.and_assoc]

theorem takeResets_eq_resetAll (old new : Bank) (l : List Station) (s : State) :
    l.foldl (fun t st => takeResetStation old.stations[st] new.stations[st] t st) s = resetAll old new l s := by
  have hstate : ∀ (v v' : Vector Homing 24) (w w' : Vector PortUnit 24), v = v' → w = w' →
      ({ s with homing := v, ports := w } : State) = { s with homing := v', ports := w' } := fun _ _ _ _ h k => by rw [h, k]
  induction l generalizing s with
  | nil =>
    refine hstate s.homing _ s.ports _ (vector_ext_fin fun x => ?_) (vector_ext_fin fun p => ?_)
    · rw [ofFn_get, if_neg List.not_mem_nil]
    · rw [ofFn_get, List.all_nil, Bool.and_true]
  | cons st l ih =>
    rw [List.foldl_cons, ih _ fun v v' w w' h k => by rw [h, k], takeResetStation_eq]
    refine hstate _ _ _ _ (vector_ext_fin fun x => ?_) (vector_ext_fin fun p => ?_)
    · dsimp only
      rw [ofFn_get, ofFn_get]
      by_cases hx : x = st
      · subst hx
        rw [set_self, if_pos List.mem_cons_self, ite_self]
      · rw [set_other _ _ hx]
        simp [-Fin.getElem_fin, hx]
    · dsimp only
      rw [ofFn_get, ofFn_get, ofFn_get]
      dsimp only
      rw [List.all_cons, Bool.and_assoc]

theorem takeLinkFault_eq : takeLinkFault = fun (s : State) (st : Station) =>
    if (s.homing[st].active.any s.linkCond
      && (decide (s.faults.modes.link = .latched) || decide (s.faults.modes.link = .auto))) = true
    then linkFault st s else s := by
  funext s st
  have hcond : s.activeCond st = s.homing[st].active.any s.linkCond := by
    unfold State.activeCond
    cases s.homing[st].active <;> rfl
  unfold takeLinkFault State.linkActs
  rw [hcond]

/-- Settles O22: a restore is judged as it stands at its completion; a Take resets its stations one by one, which together
is one change, and then judges each. -/
theorem restoreIsAppliedOrLapses : Obligations.RestoreIsAppliedOrLapses := by
  refine ⟨fun s st hcalm hdue => ?restore, fun old new s => ?take⟩
  case restore =>
    have hexec : exec (.restoreApply st) s = .next (applyRestore st s) :=
      exec_event_due (d := .restore st) rfl hcalm (restore_isDue hdue)
    have hclean := modHoming_clean st (fun h => { h with restorePending := false, restoreDue := false }) s
      (fun h => ⟨rfl, rfl⟩) (s.station st).primary
    have hrestores : (s.modHoming st fun h => { h with restorePending := false, restoreDue := false }).restores st
        = (decide (s.homing[st].state = .onSpare) && s.clean st (s.station st).primary) := by
      rw [State.restores, modHoming_self]
      exact congrArg _ hclean
    unfold applyRestore at hexec
    dsimp only at hexec ⊢
    rw [hrestores] at hexec
    refine ⟨fun h => ?_, fun hst hc => ?_⟩
    · rw [if_neg (by simpa [-Fin.getElem_fin, imp_iff_not_or] using h)] at hexec
      exact hexec
    · rw [if_pos (by simp [-Fin.getElem_fin, hst, hc])] at hexec
      rw [restorePrimary_restored] at hexec
      obtain ⟨h1, h2, h3, h4, h5, h6, h7⟩ := restoredFrom_spec st (s.station st).primary (backOnPrimary st s)
      exact ⟨_, hexec, h1, h2, h3, h4, h5, by rw [h1]; exact h6, by rw [h1]; exact h7⟩
  case take =>
    have hresets : ∀ st : Station, takeResets old.stations[st] new.stations[st] = (old.stations[st].enabled ≠ new.stations[st].enabled
        || old.stations[st].primary ≠ new.stations[st].primary || old.stations[st].spare ≠ new.stations[st].spare) := by
      intro st
      rw [takeResets, portsDiffer, Bool.or_assoc]
    have hcleared : resetAll old new (takeResetList old new) s = { s with
        homing := Vector.ofFn fun st : Station => if takeResets old.stations[st] new.stations[st] = true then
          Homing.afterTake new.stations[st] else s.homing[st],
        ports := Vector.ofFn fun p : Port => { s.ports[p] with
          awaiting := s.ports[p].awaiting && allStations.all fun st =>
            !(takeResets old.stations[st] new.stations[st] && (old.stations[st].hasPort p || new.stations[st].hasPort p)) } } := by
      have hmem : ∀ st : Station, (st ∈ takeResetList old new) = (takeResets old.stations[st] new.stations[st] = true) :=
        fun st => propext mem_takeResetList
      have hall : ∀ p : Port, ((takeResetList old new).all fun x => !(old.stations[x].hasPort p || new.stations[x].hasPort p))
          = allStations.all fun st => !(takeResets old.stations[st] new.stations[st]
            && (old.stations[st].hasPort p || new.stations[st].hasPort p)) := by
        intro p
        rw [takeResetList, List.all_filter]
        refine congrArg (fun f => allStations.all f) (funext fun st => ?_)
        cases takeResets old.stations[st] new.stations[st] <;> rfl
      unfold resetAll
      simp only [hmem, hall]
    unfold homingTake
    dsimp only
    rw [takeResets_eq_resetAll, hcleared, takeResetList, takeLinkFault_eq]
    simp only [hresets]
    rfl

end Sys2Proof.Machine
end

section
/-! The parts of a Take one by one: what each can change, and the order they are taken in (R35, R118). -/

namespace Sys2Proof.Machine

/-! Each part by its block. -/

section

variable (b s : State) (due : Bool)

theorem take_arbiter : TakePart.take b due .arbiter s = { s with arb := Arbiter.applyTake b.live s.live s.arb } := by
  rw [TakePart.take]
  rfl

theorem take_homing : TakePart.take b due .homing s = homingTake b.live s.live s := by rw [TakePart.take]

theorem take_cue : TakePart.take b due .cue s = cueTake b.live s.live s := by rw [TakePart.take]

theorem take_lamps : TakePart.take b due .lamps s = { s with lamps := LampState.applyTake b.live s.live s.lamps } := by
  rw [TakePart.take]
  rfl

theorem take_authority : TakePart.take b due .authority s = authTake b.live s.live b.homing s := by rw [TakePart.take]

theorem take_faults : TakePart.take b due .faults s = { s with faults := Faults.applyTake b.live s.live s.faults } := by
  rw [TakePart.take]

theorem take_port (p : Port) : TakePart.take b due (.port p) s = portTake b due p s := by rw [TakePart.take]

end

/-! What a part of a Take can change. -/

/-- `t` differs from `s` only in the blocks' own state; the links, the slots and the held levels of the ports stand. -/
structure PartMoves (s t : State) : Prop where
  rest : t = { s with
    arb := t.arb, homing := t.homing, auth := t.auth, out := t.out, cues := t.cues, ports := t.ports, lamps := t.lamps,
    freeCount := t.freeCount, faults := t.faults }
  ports : ∀ p : Port, ∃ c, Eased { s.ports[p] with cond := c } t.ports[p]
  entries : SameEntries s t

namespace PartMoves

theorem refl (s : State) : PartMoves s s := ⟨rfl, fun p => ⟨s.ports[p].cond, .refl _⟩, rfl⟩

theorem trans {s t u : State} (h : PartMoves s t) (k : PartMoves t u) : PartMoves s u := by
  refine ⟨?_, fun p => ?_, h.entries.trans k.entries⟩
  · exact k.rest.trans (congrArg (fun v : State => { v with
      arb := u.arb, homing := u.homing, auth := u.auth, out := u.out, cues := u.cues, ports := u.ports, lamps := u.lamps,
      freeCount := u.freeCount, faults := u.faults }) h.rest)
  · obtain ⟨c, hc⟩ := h.ports p
    obtain ⟨d, hd⟩ := k.ports p
    have hlift : Eased { s.ports[p] with cond := d } { t.ports[p] with cond := d } := by
      rcases hc with e | e <;> rw [e]
      · exact .inl rfl
      · exact .inr rfl
    exact ⟨d, hlift.trans hd⟩

end PartMoves

theorem Moves.part {s t : State} (h : Moves s t) : PartMoves s t := by
  refine ⟨h.rest_lamps.trans ?_, fun p => ⟨s.ports[p].cond, h.ports p⟩, h.entries⟩
  exact congrArg (fun f => { s with
    arb := t.arb, homing := t.homing, auth := t.auth, out := t.out, cues := t.cues, ports := t.ports, lamps := t.lamps,
    freeCount := t.freeCount, faults := f }) (congrArg State.faults h.rest_lamps).symm

theorem Flagged.part {s t : State} (h : Flagged s t) : PartMoves s t := by
  have hcues : t.cues = s.cues := by rw [h.rest]
  refine ⟨?_, fun p => ⟨s.ports[p].cond, by rw [h.ports]; exact .refl _⟩, sameEntries_of_cues hcues⟩
  have harb : t.arb = s.arb ∧ t.homing = s.homing ∧ t.auth = s.auth ∧ t.ports = s.ports ∧ t.lamps = s.lamps
      ∧ t.freeCount = s.freeCount := by rw [h.rest]; exact ⟨rfl, rfl, rfl, rfl, rfl, rfl⟩
  obtain ⟨h1, h2, h3, h4, h5, h6⟩ := harb
  rw [h1, h2, h3, h4, h5, h6, hcues]
  exact h.rest

theorem setCond_part (p : Port) (c : Bool) (s : State) : PartMoves s (s.modPort p fun u => { u with cond := c }) := by
  refine ⟨rfl, fun q => ?_, rfl⟩
  rw [State.modPort_ports, upd_get]
  split
  · exact ⟨c, .refl _⟩
  · exact ⟨_, .refl _⟩

theorem judgeWith_part {hand : Port → Station → Bool → State → State} (hh : ∀ st c s, PartMoves s (hand p st c s)) (s : State) :
    PartMoves s (judgeWith hand p s) := by
  unfold judgeWith
  split
  · exact .refl s
  · dsimp only
    split
    · exact .refl s
    · exact (setCond_part p _ s).trans (hh _ _ _)

theorem handCond_part (p : Port) (st : Station) (c : Bool) (s : State) : PartMoves s (handCond p st c s) := by
  obtain ⟨u, hu⟩ := handCond_handed p st c s
  exact hu.flagged.part.trans hu.moves.part

theorem linkEnded_part (p : Port) (st : Station) (s : State) : PartMoves s (linkEnded p st s) := (linkEnded_flagged p st s).part

theorem superviseCond_part (p : Port) (st : Station) (c : Bool) (s : State) : PartMoves s (superviseCond p st c s) := by
  have hf := modPortFaults_flagged p (fun f => { f with linkCond := c }) s
  unfold superviseCond
  generalize s.modPortFaults p (fun f => { f with linkCond := c }) = v at hf
  dsimp only
  split
  · exact (hf.trans (linkRaised_flagged p st v)).part
  · exact (hf.trans (linkEnded_flagged p st v)).part

theorem portTake_part (b : State) (due : Bool) (p : Port) (s : State) : PartMoves s (portTake b due p s) := by
  unfold portTake
  split
  · split
    · exact linkEnded_part p _ s
    · exact .refl s
  · exact .refl s
  · split
    · exact judgeWith_part (superviseCond_part p) s
    · exact judgeWith_part (handCond_part p) s

theorem resetAll_part (old new : Bank) (l : List Station) (s : State) : PartMoves s (resetAll old new l s) := by
  unfold resetAll
  refine ⟨rfl, fun p => ⟨s.ports[p].cond, ?_⟩, rfl⟩
  dsimp only
  rw [ofFn_get]
  exact .inl rfl

theorem homingTake_part (old new : Bank) (s : State) : PartMoves s (homingTake old new s) := by
  unfold homingTake
  dsimp only
  rw [takeResets_eq_resetAll]
  refine (resetAll_part old new _ s).trans (Moves.foldl (fun t st => ?_) _ _).part
  unfold takeLinkFault
  split
  · exact linkFault_moves st t
  · exact .refl t

theorem authTake_part (old new : Bank) (h : Vector Homing 24) (s : State) : PartMoves s (authTake old new h s) := by
  unfold authTake
  split
  · exact .refl s
  · split
    · exact (setAuth_moves _ s).part
    · exact (loseAuthority_moves _ s).part

theorem setLamps_part (l : LampState) (s : State) : PartMoves s { s with lamps := l } :=
  ⟨rfl, fun p => ⟨s.ports[p].cond, .refl _⟩, rfl⟩

theorem setFaults_part (f : Faults) (s : State) : PartMoves s { s with faults := f } :=
  ⟨rfl, fun p => ⟨s.ports[p].cond, .refl _⟩, rfl⟩

/-- R35: no part of a Take changes more than the blocks' own state. -/
theorem takePart_moves (b : State) (due : Bool) (x : TakePart) (s : State) : PartMoves s (x.take b due s) := by
  cases x
  case arbiter => rw [take_arbiter]; exact (modArb_moves _ s).part
  case homing => rw [take_homing]; exact homingTake_part _ _ s
  case cue => rw [take_cue]; exact ((loseTargets_only _ s).moves (loseTargets_sameEntries _ s)).part
  case lamps => rw [take_lamps]; exact setLamps_part _ s
  case authority => rw [take_authority]; exact authTake_part _ _ _ s
  case faults => rw [take_faults]; exact setFaults_part _ s
  case port p => rw [take_port]; exact portTake_part b due p s

theorem handTake_moves (b s : State) : PartMoves s (handTake b s) := by
  unfold handTake
  dsimp only
  exact takeParts_rest (I := fun _ t => PartMoves s t) (fun l t n h => h.trans (spend_moves n t).part)
    (fun l x t _ h => h.trans (takePart_moves b _ x t)) _ _ s rfl (.refl s)

/-! A part with nothing to do. -/

theorem loseTargets_none {p : Station → Lamp → Bool} {s : State} (h : s.hasTargets p = false) : loseTargets p s = s := by
  have hnone : ∀ e ∈ s.cues, loseInEntry p s e.cue = s := by
    intro e he
    have hfilter : (s.targetsOf e.cue).filter (fun x => p x.2.1 x.2.2.1 && decide (x.2.2.2 ≠ .lost)) = [] := by
      refine List.filter_eq_nil_iff.mpr fun x hx hp => ?_
      have : s.hasTargets p = true := List.any_eq_true.mpr ⟨e, he, List.any_eq_true.mpr ⟨x, hx, hp⟩⟩
      rw [h] at this
      cases this
    unfold loseInEntry
    rw [hfilter]
    rfl
  have hfold : ∀ l : List CueEntry, (∀ e ∈ l, e ∈ s.cues) → (l.map (·.cue)).foldl (loseInEntry p) s = s := by
    intro l hl
    induction l with
    | nil => rfl
    | cons e l ih =>
      rw [List.map_cons, List.foldl_cons, hnone e (hl e List.mem_cons_self)]
      exact ih fun x hx => hl x (List.mem_cons_of_mem _ hx)
  exact hfold s.cues fun _ he => he

theorem setAuth_same {s : State} {h : Holding} (hh : s.auth.holding = some h) :
    s.modAuth (fun a => { a with holding := some h }) = s := by
  unfold State.modAuth
  rw [← hh]

theorem judgeWith_none {hand : Port → Station → Bool → State → State} {p : Port} {st : Station} {s : State}
    (hst : s.live.serves p = some st) (h : judgedCond s.ports[p] (s.station st).threshold = s.ports[p].cond) :
    judgeWith hand p s = s := by
  unfold judgeWith
  rw [hst]
  exact if_pos h

theorem takePart_not_shown {b s : State} {due : Bool} {x : TakePart} (h : x.shows b s = false) : x.take b due s = s := by
  cases x <;> rw [TakePart.shows] at h
  case arbiter =>
    rw [take_arbiter]
    have harb : Arbiter.applyTake b.live s.live s.arb = s.arb := of_not_not (of_decide_eq_false h)
    rw [harb]
  case homing =>
    rw [take_homing]
    have hnil : takeResetList b.live s.live = [] := by simpa using h
    unfold homingTake
    rw [hnil]
    rfl
  case cue =>
    rw [take_cue]
    exact loseTargets_none h
  case lamps =>
    rw [take_lamps]
    have hlamps : LampState.applyTake b.live s.live s.lamps = s.lamps := of_not_not (of_decide_eq_false h)
    rw [hlamps]
  case authority =>
    rw [take_authority]
    unfold authTakeShows at h
    unfold authTake
    cases hh : s.auth.holding with
    | none => rfl
    | some k =>
      rw [hh] at h
      have hk : holdingAfterTake b.live s.live b.homing k = some k := of_not_not (of_decide_eq_false h)
      dsimp only
      rw [hk]
      exact setAuth_same hh
  case faults =>
    rw [take_faults]
    have hst : (s.faults.applyTake b.live s.live).stations = s.faults.stations := of_not_not (of_decide_eq_false h)
    have hfaults : s.faults.applyTake b.live s.live = s.faults := by
      rw [Faults.applyTake] at hst ⊢
      dsimp only at hst
      rw [hst]
    rw [hfaults]
  case port p =>
    rw [take_port]
    unfold takeShows at h
    unfold portTake
    cases hs : s.live.serves p with
    | none =>
      rw [hs] at h
      cases hb : b.live.serves p with
      | none => rfl
      | some st =>
        rw [hb] at h
        exact if_neg (Bool.eq_false_iff.mp h)
    | some st =>
      rw [hs] at h
      have hc : judgedCond s.ports[p] (s.station st).threshold = s.ports[p].cond := by
        refine of_not_not (of_decide_eq_false ?_)
        cases hb : b.live.serves p <;> rw [hb] at h <;> exact h
      have hgoal : (if (due && takeResets b.live.stations[st] s.live.stations[st]) = true then judgeWith superviseCond p s
          else judgePort p s) = s := by
        rw [judgePort, judgeWith_none hs hc, judgeWith_none hs hc, ite_self]
      cases b.live.serves p <;> exact hgoal

/-! The order of the parts. -/

/-- A part that can hand the authority unit a move or an isolation is taken once the authority unit's own is. -/
theorem afterAuthority_spec {l : List TakePart} {x : TakePart} (hx : x ∈ takeReady l) (h : x = .homing ∨ ∃ p, x = .port p) :
    TakePart.authority ∉ l := by
  have hready := (List.mem_filter.mp hx).2
  have hafter : x.afterAuthority = true := by
    rcases h with rfl | ⟨p, rfl⟩ <;> rfl
  rw [hafter, Bool.true_and, Bool.not_eq_true'] at hready
  intro hm
  rw [List.contains_iff_mem.mpr hm] at hready
  cases hready

/-- The parts are taken along a list that permutes them, the authority unit's first of those it comes before. -/
theorem takeParts_along (b : State) (n : Nat) (l : List TakePart) (s : State) (hn : l.length = n) :
    ∃ m : List (TakePart × Nat), (m.map (·.1)).Perm l ∧ AuthorityFirst (m.map (·.1)) ∧ takeParts b n l s = takeAlong b m s := by
  induction n generalizing l s with
  | zero =>
    obtain rfl := List.length_eq_zero_iff.mp hn
    refine ⟨[], .refl _, ?_, rfl⟩
    intro before x after h
    cases before <;> cases h
  | succ n ih =>
    have hi := chooseIx_lt s.freeCount (takeReady_length_pos (List.ne_nil_of_length_eq_add_one hn))
    have hmem : (takeReady l)[chooseIx s.freeCount (takeReady l).length] ∈ takeReady l := List.getElem_mem hi
    unfold takeParts
    dsimp only
    rw [List.getElem?_eq_getElem hi]
    dsimp only
    generalize (takeReady l)[chooseIx s.freeCount (takeReady l).length] = x at hmem
    have hxl := takeReady_sub hmem
    obtain ⟨k, hk⟩ := spend_eq (takeReady l).length s
    rw [hk]
    obtain ⟨m, hperm, hfirst, hm⟩ := ih (l.erase x) (x.take b ((l.erase x).contains .homing) { s with freeCount := k }) (by
      rw [List.length_erase_of_mem hxl, hn]
      rfl)
    refine ⟨(x, k) :: m, ?_, ?_, ?_⟩
    · exact (hperm.cons x).trans (List.perm_cons_erase hxl).symm
    · intro before y after h hy
      cases before with
      | nil =>
        obtain ⟨rfl, rfl⟩ := List.cons.inj h
        exact fun ha => afterAuthority_spec hmem hy (List.mem_of_mem_erase (hperm.mem_iff.mp ha))
      | cons z before => exact hfirst before y after (List.cons.inj h).2 hy
    · have hany : (m.any fun y => decide (y.1 = .homing)) = (l.erase x).contains .homing := by
        rw [Bool.eq_iff_iff, List.contains_iff_mem, ← hperm.mem_iff]
        simp
      rw [takeAlong, hm, hany]

end Sys2Proof.Machine
end

section
/-! The supervision window's expiry, the authority unit's part of a Take (R118, R123, R124), and the Take as a whole (R33,
R35). -/

namespace Sys2Proof.Machine

/-! A late desk fault (R123, R124). -/

theorem supervision_isDue {s : State} {w : SupWindow} (h : s.auth.window = some w) (hw : w.due = true) :
    Due.supervision.isDue s = true := by
  rw [Due.isDue, h]
  exact hw

/-- The window's expiry taken. -/
def windowTaken (s : State) : State := s.modAuth fun a => { a with window := a.window.map fun w => { w with due := false } }

theorem expireSupervision_late (s : State) : expireSupervision s = deskFault .late (windowTaken s) := rfl

/-- A late desk fault of holder `p`, by the DESK mode. -/
theorem expireSupervision_eq {s : State} {p : Port} (h : s.auth.holder = some p) :
    (s.faults.modes.desk = .warn → expireSupervision s =
        { s with auth := { s.auth with window := some ⟨0, false⟩, deskCond := true },
                 faults := { s.faults with ports := upd s.faults.ports p fun f => { f with deskWarn := true } },
                 out := (broadcast (reportOf 0xE3 [byteOf p.val, 2, 4]) s).out })
      ∧ (s.faults.modes.desk = .latched → expireSupervision s =
        { s with auth := ⟨none, none, none, false⟩,
                 faults := { s.faults with ports := upd s.faults.ports p fun f => { f with deskLatched := true } },
                 out := (broadcast (reportOf 0xD2 [byteOf p.val, 5])
                   (broadcast (reportOf 0xE3 [byteOf p.val, 2, 1]) s)).out }) := by
  have hp : (windowTaken s).auth.holder = some p := h
  have hears (m : Message) : broadcast m (windowTaken s) = { windowTaken s with out := (broadcast m s).out } := by
    rw [windowTaken, broadcast_modAuth, broadcast_rest]
    rfl
  refine ⟨fun hm => ?warn, fun hm => ?latched⟩
  case warn =>
    rw [expireSupervision_late, deskFault_warn hp hm, hears]
    rfl
  case latched =>
    rw [expireSupervision_late, deskFault_latched hp hm, windowTaken, broadcast_modAuth, broadcast_modAuth,
      broadcast_rest (lostReport p .deskFault), broadcast_rest (deskFaultReport p _ _)]
    rfl

/-! The authority unit's part of a Take (R118). -/

theorem portsDiffer_iff {o n : StationRecord} : portsDiffer o n = true ↔ o.primary ≠ n.primary ∨ o.spare ≠ n.spare := by
  simp [portsDiffer]

/-- The first index that satisfies a test. -/
theorem find_finRange {n : Nat} {f : Fin n → Bool} {i : Fin n} (h : f i = true) (hu : ∀ j < i, f j = false) :
    (List.finRange n).find? f = some i := by
  refine List.find?_eq_some_iff_getElem.mpr ⟨h, i.val, by simp, by simp, fun j hj => ?_⟩
  have hjn : j < n := Nat.lt_trans hj i.isLt
  have hget : (List.finRange n)[j]'(by simpa using hjn) = ⟨j, hjn⟩ := by simp
  rw [hget, hu ⟨j, hjn⟩ hj]
  rfl

theorem authTake_kept {old new : Bank} {v : Vector Homing 24} {s : State} {h : Holding} (hh : s.auth.holding = some h) {k : Holding}
    (hk : holdingAfterTake old new v h = some k) :
    authTake old new v s = { s with auth := { s.auth with holding := some k } } := by
  unfold authTake
  rw [hh]
  dsimp only
  rw [hk]
  rfl

theorem authTake_lost {old new : Bank} {v : Vector Homing 24} {s : State} {h : Holding} {p : Port}
    (hh : s.auth.holding = some h) (hk : holdingAfterTake old new v h = none) (hp : s.auth.holder = some p) :
    authTake old new v s = broadcast (reportOf 0xD2 [byteOf p.val, 4]) { s with auth := ⟨none, none, none, false⟩ } := by
  unfold authTake
  rw [hh]
  dsimp only
  rw [hk]
  rw [loseAuthority_of_holder hp, ← broadcast_setAuth]
  rfl

theorem setHolding_same {s : State} {h : Holding} (hh : s.auth.holding = some h) :
    ({ s with auth := { s.auth with holding := some h } } : State) = s := by rw [← hh]

theorem anyMgmt_iff {b : Bank} : b.anyMgmt = true ↔ ∃ st : Station, b.stations[st].enabled = true ∧ b.stations[st].mgmt = true := by
  simp [-Fin.getElem_fin, Bank.anyMgmt, allStations]

theorem takesOver_iff {o n : StationRecord} {active : Option Port} : takesOver o n active = true ↔
    (n.enabled = true ∧ n.mgmt = true) ∧ n.primary = 0
      ∧ (o.enabled = false ∨ (o.primary ≠ n.primary ∨ o.spare ≠ n.spare) ∨ active = some 0) := by
  simp only [takesOver, Bool.and_eq_true, Bool.or_eq_true, Bool.not_eq_true', decide_eq_true_eq, portsDiffer_iff]
  tauto

/-- Settles O19: the late fault by the DESK mode; at a Take the holding is judged by the records and what became of them. -/
theorem lateDeskFaultByMode : Obligations.LateDeskFaultByMode := by
  refine ⟨fun s w p hcalm hw hdue hp => ?fault, fun old new homing s => ⟨fun hn => ?nobody, fun st hst => ?station, fun hc => ?commissioning⟩⟩
  case fault =>
    have hexec : exec .supervisionWindowExpiry s = .next (expireSupervision s) :=
      exec_event_due (d := .supervision) rfl hcalm (supervision_isDue hw hdue)
    obtain ⟨hwarn, hlatched⟩ := expireSupervision_eq hp
    rw [hexec]
    exact ⟨fun h => congrArg _ (hwarn h), fun h => congrArg _ (hlatched h)⟩
  case nobody =>
    unfold authTake
    rw [hn]
  case station =>
    have hafter : holdingAfterTake old new homing (.station st)
        = if (!new.stations[st].enabled || !new.stations[st].mgmt || portsDiffer old.stations[st] new.stations[st]) = true
          then none else some (.station st) := rfl
    have hcond : (!new.stations[st].enabled || !new.stations[st].mgmt || portsDiffer old.stations[st] new.stations[st]) = true
        ↔ ¬ (new.stations[st].enabled = true ∧ new.stations[st].mgmt = true)
          ∨ (old.stations[st].primary ≠ new.stations[st].primary ∨ old.stations[st].spare ≠ new.stations[st].spare) := by
      rw [Bool.or_eq_true, portsDiffer_iff, ← Bool.not_and, Bool.not_eq_true', Bool.eq_false_iff, ne_eq, Bool.and_eq_true]
    refine ⟨fun hm hmoved => ?_, fun p hp h => ?_⟩
    · rw [authTake_kept hst (hafter.trans (if_neg fun e => (hcond.mp e).elim (fun h => h hm) hmoved)), setHolding_same hst]
    · exact authTake_lost hst (hafter.trans (if_pos (hcond.mpr h))) hp
  case commissioning =>
    have hafter : holdingAfterTake old new homing .commissioning = if new.anyMgmt then
        (allStations.find? fun st => takesOver old.stations[st] new.stations[st] homing[st].active).map .station
      else some .commissioning := rfl
    refine ⟨fun hno => ?_, fun st hcomes hfirst => ?_, fun p hp hsome hno => ?_⟩
    · have hany : new.anyMgmt = false := Bool.eq_false_iff.mpr fun e => by
        obtain ⟨st, hst⟩ := anyMgmt_iff.mp e
        exact hno st hst
      rw [authTake_kept hc (hafter.trans (by rw [hany]; rfl)), setHolding_same hc]
    · have hany : new.anyMgmt = true := anyMgmt_iff.mpr ⟨st, hcomes.1⟩
      have hfind : (allStations.find? fun st => takesOver old.stations[st] new.stations[st] homing[st].active) = some st :=
        find_finRange (takesOver_iff.mpr hcomes) fun u hu => Bool.eq_false_iff.mpr fun e => hfirst u hu (takesOver_iff.mp e)
      exact authTake_kept hc (hafter.trans (by rw [hany, hfind]; rfl))
    · have hany : new.anyMgmt = true := anyMgmt_iff.mpr hsome
      have hfind : (allStations.find? fun st => takesOver old.stations[st] new.stations[st] homing[st].active) = none :=
        List.find?_eq_none.mpr fun st _ e => hno st (takesOver_iff.mp e)
      exact authTake_lost hc (hafter.trans (by rw [hany, hfind]; rfl)) hp

/-! The Take at its completion (R33). -/

theorem exec_takeApply {s : State} (h : Calm s) : exec .takeApply s = .next (takeEvent s) := settled_calm (f := takeEvent) h

theorem takeEvent_due {s : State} (h : s.takeIsDue = true) : takeEvent s = applyTake s := if_pos h

theorem Calm.opened {s : State} (h : Calm s) : Calm (openCompletion s) := by
  refine ⟨?_, ?_⟩
  · rw [openCompletion]
    exact h.line
  · rw [openCompletion]
    exact h.noWait

/-- What the answer to a Take's requester leaves alone. -/
theorem takeAnswer_rest (o : TakeOrigin) (r : Result) (s : State) :
    takeAnswer o r s = { s with out := (takeAnswer o r s).out, takeWaiting := (takeAnswer o r s).takeWaiting } := by
  unfold takeAnswer
  split
  · unfold takeRespond
    dsimp only
    split
    · next t h =>
      obtain ⟨v, -, rfl⟩ := Option.map_eq_some_iff.mp h
      rfl
    · rfl
  · rfl

/-- EDIT copied into LIVE, and the ports that serve another station than before without a condition (R33, R134). -/
def bankCopied (s : State) : State := unjudgePorts s.live s.edit { s with live := s.edit }

theorem copyTake_rest (o : TakeOrigin) (s : State) : copyTake o s = handTake s (takeAnswer o .ok (bankCopied s)) := rfl

theorem bankCopied_eq (s : State) : bankCopied s = { s with
    live := s.edit,
    ports := Vector.ofFn fun p => if s.live.serves p = s.edit.serves p then s.ports[p] else { s.ports[p] with cond := false },
    faults := { s.faults with
      ports := Vector.ofFn fun p =>
        if s.live.serves p = s.edit.serves p then s.faults.ports[p] else { s.faults.ports[p] with linkCond := false } } } := by
  rw [bankCopied, unjudgePorts]
  rfl

/-- The pending Take taken up. -/
def takeBegun (s : State) : State := { s with takePending := none, takeDue := false }

theorem applyTake_abandoned {s : State} {o : TakeOrigin} (h : s.takePending = some o) (hu : s.unverified = true) :
    applyTake s = abandonTake o (takeBegun s) := by
  rw [applyTake, h]
  exact if_pos hu

theorem applyTake_copied {s : State} {o : TakeOrigin} (h : s.takePending = some o) (hu : s.unverified = false) :
    applyTake s = copyTake o (takeBegun s) := by
  rw [applyTake, h]
  exact if_neg (Bool.eq_false_iff.mp hu)

theorem takeIsDue_iff {s : State} : s.takeIsDue = true ↔ s.takeDue = true ∧ s.takePending.isSome = true ∧ s.resetLeaves = false := by
  rw [State.takeIsDue, Bool.and_eq_true, Bool.and_eq_true, Bool.not_eq_true', and_assoc]

theorem takeEvent_later {s : State} (h : s.takeDue = false) :
    takeEvent s = if (ensureOpen s).takeIsDue then applyTake (ensureOpen s) else s := by
  refine if_neg fun e => ?_
  rw [(takeIsDue_iff.mp e).1] at h
  cases h

/-- A Take that is not due at this completion is due at the next, which it opens, or not at all. -/
theorem takeApply_not_due {s : State} (hcalm : Calm s) (hdue : s.takeDue = false) :
    (s.opened = true → exec .takeApply s = .next s)
      ∧ (s.opened = false → NoneDue s →
        (s.takePending = none ∨ (openCompletion s).resetLeaves = true → exec .takeApply s = .next s)
        ∧ (s.takePending.isSome = true → (openCompletion s).resetLeaves = false →
          exec .takeApply s = exec .takeApply (openCompletion s))) := by
  rw [exec_takeApply hcalm, exec_takeApply hcalm.opened, takeEvent_later hdue]
  refine ⟨fun hopen => ?_, fun hclosed hnone => ⟨fun hno => ?_, fun hsome hstays => ?_⟩⟩
  · rw [ensureOpen_opened hopen, if_neg fun e => ?_]
    rw [(takeIsDue_iff.mp e).1] at hdue
    cases hdue
  · rw [ensureOpen_closed hclosed hnone, if_neg fun e => ?_]
    obtain ⟨-, hpending, hleaves⟩ := takeIsDue_iff.mp e
    rcases hno with hno | hno
    · rw [openCompletion, hno] at hpending
      cases hpending
    · rw [hno] at hleaves
      cases hleaves
  · have hdue' : (openCompletion s).takeIsDue = true := by
      refine takeIsDue_iff.mpr ⟨?_, ?_, hstays⟩
      · rw [openCompletion]
        exact hsome
      · rw [openCompletion]
        exact hsome
    rw [ensureOpen_closed hclosed hnone, if_pos hdue', takeEvent_due hdue']

theorem takeAnswer_bankCopied (o : TakeOrigin) (s : State) : takeAnswer o .ok (bankCopied s) = { bankCopied s with
    out := (takeAnswer o .ok (bankCopied s)).out, takeWaiting := (takeAnswer o .ok (bankCopied s)).takeWaiting } :=
  takeAnswer_rest o .ok (bankCopied s)

theorem PartMoves.units {s t : State} (h : PartMoves s t) (p : Port) : t.ports[p].up = s.ports[p].up
    ∧ t.ports[p].bucket = s.ports[p].bucket ∧ t.ports[p].loss = s.ports[p].loss ∧ t.ports[p].slot = s.ports[p].slot
    ∧ t.ports[p].held = s.ports[p].held := by
  obtain ⟨c, hc⟩ := h.ports p
  rcases hc with e | e <;> rw [e] <;> exact ⟨rfl, rfl, rfl, rfl, rfl⟩

theorem SameEntries.cues {s t : State} (h : SameEntries s t) : t.cues.map (·.cue) = s.cues.map (·.cue) := by
  have := congrArg (List.map Prod.fst) h
  rwa [List.map_map, List.map_map] at this

theorem SameEntries.deadlines {s t : State} (h : SameEntries s t) : t.cues.map (·.deadline) = s.cues.map (·.deadline) := by
  have := congrArg (List.map Prod.snd) h
  rwa [List.map_map, List.map_map] at this

theorem bankCopied_units (s : State) (p : Port) : ∃ c, (bankCopied s).ports[p] = { s.ports[p] with cond := c } := by
  rw [bankCopied_eq]
  dsimp only
  rw [ofFn_get]
  split
  · exact ⟨s.ports[p].cond, rfl⟩
  · exact ⟨false, rfl⟩

/-- What stands through an applied Take. -/
structure TakeKept (s t : State) : Prop where
  banks : t.live = s.edit ∧ t.edit = s.edit
  pending : t.takePending = s.takePending ∧ t.takeDue = s.takeDue
  unverified : t.unverified = s.unverified
  table : t.table = s.table
  mgmt : t.mgmt = s.mgmt
  mix : t.mix = s.mix ∧ t.sent = s.sent ∧ t.opened = s.opened
  cues : t.cues.map (·.cue) = s.cues.map (·.cue) ∧ t.cues.map (·.deadline) = s.cues.map (·.deadline)
  units : ∀ p : Port, t.ports[p].up = s.ports[p].up ∧ t.ports[p].bucket = s.ports[p].bucket
    ∧ t.ports[p].loss = s.ports[p].loss ∧ t.ports[p].slot = s.ports[p].slot ∧ t.ports[p].held = s.ports[p].held

theorem copyTake_kept (o : TakeOrigin) (s : State) : TakeKept s (copyTake o s) := by
  have hm : PartMoves (takeAnswer o .ok (bankCopied s)) (copyTake o s) := handTake_moves s _
  have ha := takeAnswer_bankCopied o s
  have hports : (takeAnswer o .ok (bankCopied s)).ports = (bankCopied s).ports := by rw [ha]
  have hcues : (takeAnswer o .ok (bankCopied s)).cues = s.cues := by
    rw [ha]
    rfl
  have hrest := hm.rest
  rw [ha] at hrest
  refine ⟨?_, ?_, ?_, ?_, ?_, ?_, ?_, fun p => ?_⟩
  · rw [hrest]; exact ⟨rfl, rfl⟩
  · rw [hrest]; exact ⟨rfl, rfl⟩
  · rw [hrest]; rfl
  · rw [hrest]; rfl
  · rw [hrest]; rfl
  · rw [hrest]; exact ⟨rfl, rfl, rfl⟩
  · rw [hm.entries.cues, hm.entries.deadlines, hcues]
    exact ⟨rfl, rfl⟩
  · obtain ⟨c, hc⟩ := bankCopied_units s p
    have hu := hm.units p
    rw [hports, hc] at hu
    exact hu

/-- Settles O21: the pending Take by UNVERIFIED; an applied one copies the bank, answers and takes the parts along a
list. -/
theorem pendingTakeIsAppliedOrAbandoned : Obligations.PendingTakeIsAppliedOrAbandoned := by
  refine ⟨fun s o hcalm hdue hpending hleaves => ?taken, fun s => takeApply_not_due, fun b s due x => takePart_not_shown,
    fun p tag r s => ?respond, fun b s due => ?parts⟩
  case respond =>
    dsimp only
    have hmsg : responseTo 0x05 tag r [] = { kind := 0x85, tag := tag, code := byteOf r.code, body := [] } := rfl
    rw [takeRespond, hmsg, placeResponse]
    cases s.out[p].putResponse _ <;> rfl
  case parts =>
    exact ⟨take_arbiter b s due, take_homing b s due, take_cue b s due, take_lamps b s due, take_authority b s due,
      take_faults b s due, fun p => take_port b s due p⟩
  case taken =>
    have hexec : exec .takeApply s = .next (applyTake s) := by
      rw [exec_takeApply hcalm, takeEvent_due (takeIsDue_iff.mpr ⟨hdue, by rw [hpending]; rfl, hleaves⟩)]
    rw [hexec]
    refine ⟨fun hu => ?abandoned, fun hu => ⟨_, rfl, ?copied⟩⟩
    case abandoned =>
      rw [applyTake_abandoned hpending hu]
      cases o <;> rfl
    case copied =>
      rw [applyTake_copied hpending hu]
      have hk := copyTake_kept o (takeBegun s)
      refine ⟨hk.banks.1, hk.banks.2, hk.pending.1, hk.pending.2, hk.unverified.trans hu, hk.table, hk.mgmt, hk.mix.1, hk.mix.2.1,
        hk.mix.2.2, hk.cues.1, hk.cues.2, hk.units, ?_⟩
      obtain ⟨m, hperm, hfirst, hm⟩ := takeParts_along (takeBegun s) _
        (allTakeParts.filter (TakePart.shows (takeBegun s) (takeAnswer o .ok (bankCopied (takeBegun s)))))
        (takeAnswer o .ok (bankCopied (takeBegun s))) rfl
      have hcopied := bankCopied_eq (takeBegun s)
      rw [copyTake_rest]
      unfold handTake
      rw [hcopied] at hperm hm ⊢
      cases o <;> exact ⟨m, hperm, hfirst, hm⟩

end Sys2Proof.Machine
end

section
/-! The judgement of a port's link condition, what it hands, and the part of a port in a Take (R133, R134, R157, R158). -/

namespace Sys2Proof.Machine

theorem judgedCond_absent {u : PortUnit} (h : u.cond = false) (k : Nat) :
    judgedCond u k = true ↔ u.up = false ∨ k ≤ u.bucket := by
  simp [judgedCond, h]

theorem judgedCond_present {u : PortUnit} (h : u.cond = true) (k : Nat) :
    judgedCond u k = false ↔ u.up = true ∧ u.bucket ≤ k / 2 := by
  simp [judgedCond, h]

theorem judgePort_none {p : Port} {s : State} (h : s.live.serves p = none) : judgePort p s = s := by
  rw [judgePort, judgeWith, h]

theorem judgePort_same {p : Port} {st : Station} {s : State} (h : s.live.serves p = some st)
    (hc : judgedCond s.ports[p] (s.station st).threshold = s.ports[p].cond) : judgePort p s = s := judgeWith_none h hc

/-- The state in which port `p`'s condition stands judged as `c` and the fault supervisor holds it. -/
def condTaken (p : Port) (c : Bool) (s : State) : State := { s with
  ports := upd s.ports p fun x => { x with cond := c },
  faults := { s.faults with ports := upd s.faults.ports p fun f => { f with linkCond := c } } }

theorem judgeWith_change {hand : Port → Station → Bool → State → State} {p : Port} {st : Station} {s : State}
    (h : s.live.serves p = some st)
    (hc : judgedCond s.ports[p] (s.station st).threshold ≠ s.ports[p].cond) :
    judgeWith hand p s = hand p st (judgedCond s.ports[p] (s.station st).threshold)
      (s.modPort p fun u => { u with cond := judgedCond s.ports[p] (s.station st).threshold }) := by
  rw [judgeWith, h]
  exact if_neg hc

theorem judgePort_begun {p : Port} {st : Station} {s : State} (h : s.live.serves p = some st)
    (hc : judgedCond s.ports[p] (s.station st).threshold = true) (hwas : s.ports[p].cond = false) :
    judgePort p s = linkBegun p st (condTaken p true s) := by
  rw [judgePort, judgeWith_change h (by rw [hc, hwas]; decide), hc]
  rfl

theorem judgePort_ended {p : Port} {st : Station} {s : State} (h : s.live.serves p = some st)
    (hc : judgedCond s.ports[p] (s.station st).threshold = false) (hwas : s.ports[p].cond = true) :
    judgePort p s = homingCondEnded st p (linkEnded p st (condTaken p false s)) := by
  rw [judgePort, judgeWith_change h (by rw [hc, hwas]; decide), hc]
  rfl

theorem judgePort_cond {p : Port} {st : Station} {s : State} (h : s.live.serves p = some st) :
    (judgePort p s).ports[p].cond = judgedCond s.ports[p] (s.station st).threshold := by
  by_cases hc : judgedCond s.ports[p] (s.station st).threshold = s.ports[p].cond
  · rw [judgePort_same h hc, hc]
  · rw [judgePort, judgeWith_change h hc]
    obtain ⟨u, hu⟩ := handCond_handed p st (judgedCond s.ports[p] (s.station st).threshold)
      (s.modPort p fun u => { u with cond := judgedCond s.ports[p] (s.station st).threshold })
    obtain ⟨-, -, -, hcond⟩ := (hu.moves.ports p).link
    rw [hcond, hu.flagged.ports, State.modPort_ports, upd_same]

theorem linkEnded_homing (p : Port) (st : Station) (s : State) : (linkEnded p st s).homing = s.homing :=
  (linkEnded_flagged p st s).homing

theorem linkEnded_mode (p : Port) (st : Station) (s : State) : (linkEnded p st s).faults.modes = s.faults.modes := by
  unfold linkEnded
  split
  · rfl
  · rw [broadcast]

theorem linkEnded_eq (p : Port) (st : Station) (s : State) : linkEnded p st s =
    if s.faults.modes.link = .off then s else broadcast (reportOf 0xE1 [1, byteOf p.val, byteOf st.val]) s := rfl

theorem linkEnded_station (p : Port) (st x : Station) (s : State) : (linkEnded p st s).station x = s.station x :=
  congrArg (fun b : Bank => b.stations[x]) (linkEnded_flagged p st s).live

theorem clearMark_eq (st : Station) (p : Port) (s : State) : clearMark st p s = { s with
    homing := s.homing.set st { s.homing[st] with
      primFailed := s.homing[st].primFailed && (s.station st).primary ≠ p,
      spareFailed := s.homing[st].spareFailed && (s.station st).spare ≠ some p } } := rfl

theorem clearMark_active (st : Station) (p : Port) (s : State) : (clearMark st p s).homing[st].active = s.homing[st].active := by
  rw [clearMark, State.modHoming_homing, upd_same]

/-- What the homing controller makes of a condition's end (R143, R144, R150). -/
theorem homingCondEnded_spec {st : Station} {p : Port} {s told : State} (hh : told.homing = s.homing)
    (hm : told.faults.modes = s.faults.modes) (hs : told.station st = s.station st) :
    homingCondEnded st p told =
      let h := s.homing[st]
      let v : State := if s.faults.modes.link = .auto then
          { told with homing := s.homing.set st { h with
              primFailed := h.primFailed && (s.station st).primary ≠ p,
              spareFailed := h.spareFailed && (s.station st).spare ≠ some p } }
        else told
      if h.active = some p then v else portsJudged st v := by
  have hactive : (if told.faults.modes.link = .auto then clearMark st p told else told).homing[st].active = told.homing[st].active := by
    split
    · exact clearMark_active st p told
    · rfl
  unfold homingCondEnded
  dsimp only
  rw [hactive, clearMark_eq, hh, hm, hs]

/-! A condition's beginning (R158). -/

theorem linkActs_iff {s : State} : s.linkActs = true ↔ s.faults.modes.link = .latched ∨ s.faults.modes.link = .auto := by
  simp [State.linkActs]

theorem linkRaised_mode (p : Port) (st : Station) (s : State) : (linkRaised p st s).faults.modes = s.faults.modes := by
  unfold linkRaised
  dsimp only
  cases s.faults.modes.link <;> rfl

theorem bit_decide {q : Prop} [Decidable q] : byteOf (bit 0 (decide q)) = if q then 1 else 0 := by
  split
  · next h => rw [decide_eq_true h]; rfl
  · next h => rw [decide_eq_false h]; rfl

/-- FAULT_RAISED for class LINK, in the mode of code `m`. -/
def raisedWith (p : Port) (st : Station) (m : Byte) (active : Prop) [Decidable active] (s : State) : State :=
  broadcast (reportOf 0xE0 [1, byteOf p.val, byteOf st.val, m, if active then 1 else 0]) s

theorem raisedWith_eq (p : Port) (st : Station) (m : Mode) (active : Prop) [Decidable active] (s : State) :
    broadcast (linkRaisedReport p st m (decide active)) s = raisedWith p st (byteOf m.code) active s := by
  rw [linkRaisedReport, bit_decide, raisedWith]
  rfl

/-- The report of a LINK condition begun, and the warn flag under WARN. -/
theorem linkRaised_eq (p : Port) (st : Station) (s : State) :
    linkRaised p st s = match s.faults.modes.link with
      | .latched => raisedWith p st 1 (s.homing[st].active = some p) s
      | .auto => raisedWith p st 2 (s.homing[st].active = some p) s
      | .warn => raisedWith p st 4 (s.homing[st].active = some p)
          { s with faults := { s.faults with ports := upd s.faults.ports p fun f => { f with linkWarn := true } } }
      | .rekey => s
      | .off => s := by
  unfold linkRaised
  dsimp only
  cases hm : s.faults.modes.link <;> simp only [raisedWith_eq] <;> rfl

theorem linkBegun_eq (p : Port) (st : Station) (s : State) :
    linkBegun p st s = match s.faults.modes.link with
      | .latched => if s.homing[st].active = some p
          then linkFault st (raisedWith p st 1 (s.homing[st].active = some p) s) else raisedWith p st 1 (s.homing[st].active = some p) s
      | .auto => if s.homing[st].active = some p
          then linkFault st (raisedWith p st 2 (s.homing[st].active = some p) s) else raisedWith p st 2 (s.homing[st].active = some p) s
      | .warn => raisedWith p st 4 (s.homing[st].active = some p)
          { s with faults := { s.faults with ports := upd s.faults.ports p fun f => { f with linkWarn := true } } }
      | .rekey => s
      | .off => s := by
  rw [linkBegun, linkRaised_eq, State.linkActs]
  cases s.faults.modes.link <;> simp

/-! A port of a station may have become clean (R144, R150). -/

theorem activeCond_eq (s : State) (st : Station) : s.activeCond st = s.homing[st].active.any s.linkCond := by
  rw [State.activeCond]
  cases s.homing[st].active <;> rfl

theorem portsJudged_of_isolated {st : Station} {s : State} (h : s.homing[st].state = .isolated) : portsJudged st s = tryReturn st s :=
  if_pos (decide_eq_true h)

theorem portsJudged_of_not_isolated {st : Station} {s : State} (h : s.homing[st].state ≠ .isolated) :
    portsJudged st s = otherPortJudged st s := if_neg (Bool.eq_false_iff.mp (decide_eq_false h))

theorem otherPortJudged_eq {st : Station} {s : State} {q : Option Port} (h : s.otherPort st = q) :
    otherPortJudged st s = if ((s.homing[st].active.any s.linkCond) = true
        ∧ (s.faults.modes.link = .latched ∨ s.faults.modes.link = .auto)) ∧ (q.any (s.clean st)) = true
      then linkFault st s else s := by
  rw [otherPortJudged, h, activeCond_eq]
  cases q with
  | none => simp
  | some q => simp only [Bool.and_eq_true, linkActs_iff, Option.any_some]

theorem portsJudged_spec (s : State) (st : Station) :
    (s.homing[st].state = .isolated → portsJudged st s = tryReturn st s)
      ∧ (s.homing[st].state = .switching → portsJudged st s = s)
      ∧ (s.homing[st].state = .onSpare → portsJudged st s =
        if ((s.homing[st].active.any s.linkCond) = true ∧ (s.faults.modes.link = .latched ∨ s.faults.modes.link = .auto))
            ∧ s.clean st (s.station st).primary = true then linkFault st s else s)
      ∧ (s.homing[st].state = .onPrimary → portsJudged st s =
        if ((s.homing[st].active.any s.linkCond) = true ∧ (s.faults.modes.link = .latched ∨ s.faults.modes.link = .auto))
            ∧ ((s.station st).spare.any (s.clean st)) = true then linkFault st s else s) := by
  refine ⟨portsJudged_of_isolated, fun h => ?_, fun h => ?_, fun h => ?_⟩ <;>
    rw [portsJudged_of_not_isolated (by rw [h]; decide)]
  · have ho : s.otherPort st = none := by rw [State.otherPort, h]
    rw [otherPortJudged, ho]
  · have ho : s.otherPort st = some (s.station st).primary := by rw [State.otherPort, h]
    exact otherPortJudged_eq ho
  · have ho : s.otherPort st = (s.station st).spare := by rw [State.otherPort, h]
    exact otherPortJudged_eq ho

/-! The part of a port in a Take (R134). -/

theorem takeResets_iff {o n : StationRecord} :
    takeResets o n = true ↔ o.enabled ≠ n.enabled ∨ o.primary ≠ n.primary ∨ o.spare ≠ n.spare := by
  simp [takeResets, portsDiffer]

theorem portTake_serving {b s : State} {due : Bool} {p : Port} {st : Station} (h : s.live.serves p = some st) :
    portTake b due p s = if due && takeResets b.live.stations[st] s.live.stations[st] then judgeWith superviseCond p s
      else judgePort p s := by
  rw [portTake, h]
  cases b.live.serves p <;> rfl

/-- The supervisor's part alone, in the words of the rule. -/
theorem judgeSupervised {s : State} {p : Port} {st : Station} (h : s.live.serves p = some st) :
    (judgedCond s.ports[p] (s.station st).threshold = s.ports[p].cond → judgeWith superviseCond p s = s)
      ∧ (judgedCond s.ports[p] (s.station st).threshold ≠ s.ports[p].cond →
        (judgedCond s.ports[p] (s.station st).threshold = true →
          judgeWith superviseCond p s = linkRaised p st (condTaken p (judgedCond s.ports[p] (s.station st).threshold) s))
        ∧ (judgedCond s.ports[p] (s.station st).threshold = false →
          judgeWith superviseCond p s = linkEnded p st (condTaken p (judgedCond s.ports[p] (s.station st).threshold) s))) := by
  refine ⟨judgeWith_none h, fun hc => ?_⟩
  rw [judgeWith_change h hc]
  refine ⟨fun ht => ?_, fun hf => ?_⟩
  · rw [ht]; rfl
  · rw [hf]; rfl

/-- Settles O29: a judgement hands its change, and what it hands goes by the LINK mode and the homing state. -/
theorem linkConditionHasHysteresis : Obligations.LinkConditionHasHysteresis := by
  refine ⟨fun u k => ⟨fun h => judgedCond_absent h k, fun h => judgedCond_present h k⟩,
    fun s p => ⟨judgePort_none, fun st hst => ⟨judgePort_cond hst, judgePort_same hst, fun hc => ⟨fun h => ?begun, fun h => ?ended⟩⟩⟩,
    fun s p st => ?beginning, fun s st => portsJudged_spec s st, fun b s due p => ⟨fun st hst => ⟨fun h => ?whole, fun hd hr => ?part⟩,
      fun hb hs => ?neither, fun st hb hs => ?ceases⟩⟩
  case begun =>
    have hwas : s.ports[p].cond = false := by
      rw [h] at hc
      exact Bool.eq_false_iff.mpr (Ne.symm hc)
    rw [judgePort_begun hst h hwas, h]
    rfl
  case ended =>
    have hwas : s.ports[p].cond = true := by
      rw [h] at hc
      exact Bool.eq_true_of_not_eq_false (Ne.symm hc)
    have key := homingCondEnded_spec (p := p) (linkEnded_homing p st (condTaken p false s))
      (linkEnded_mode p st (condTaken p false s)) (linkEnded_station p st st (condTaken p false s))
    rw [linkEnded_eq] at key
    rw [judgePort_ended hst h hwas, linkEnded_eq, h]
    exact key
  case beginning => exact linkBegun_eq p st s
  case whole =>
    rw [portTake_serving hst]
    refine if_neg fun e => ?_
    obtain ⟨hd, hr⟩ := Bool.and_eq_true_iff.mp e
    rcases h with h | h
    · rw [h] at hd
      cases hd
    · exact h (takeResets_iff.mp hr)
  case part =>
    have htake : portTake b due p s = judgeWith superviseCond p s := by
      rw [portTake_serving hst, hd, takeResets_iff.mpr hr]
      rfl
    obtain ⟨hsame, hchange⟩ := judgeSupervised hst
    rw [htake]
    refine ⟨hsame, fun hc ht => ((hchange hc).1 ht).trans (linkRaised_eq p st _), fun hc hf => ((hchange hc).2 hf).trans rfl⟩
  case neither => rw [portTake, hb, hs]
  case ceases =>
    have hcond : b.linkCond p = b.ports[p].cond := by
      rw [State.linkCond, hb]
      rfl
    rw [portTake, hb, hs]
    dsimp only
    rw [hcond, linkEnded]
    cases b.ports[p].cond <;> simp [linkEndedReport] <;> rfl

end Sys2Proof.Machine
end

section
/-! The contents of a taken frame, and a port that goes DOWN (R131, R135, R138, R139). -/

namespace Sys2Proof.Machine

/-! The lists of keys and lamps, written out. -/

theorem allKeys_eq : allKeys = [0, 1, 2, 3] := by decide

theorem allLamps_eq : allLamps = [0, 1, 2, 3] := by decide

/-! The edges in their order (R138). -/

theorem callEdges_eq (st : Station) (old new : Levels) (s : State) :
    callEdges st old new s = handCallStart st old new (handCallEnd st old new s) := by
  unfold callEdges handCallStart handCallEnd
  by_cases h : new.call = old.call
  · rw [if_pos h]
    cases hn : new.call <;> cases ho : old.call <;> simp_all
  · rw [if_neg h]
    cases hn : new.call <;> cases ho : old.call <;> simp_all [State.modArb]

theorem announceEdges_eq (st : Station) (old new : Levels) (s : State) :
    announceEdges st old new s = handAnnounce st old new s := rfl

theorem edges_eq (st : Station) (old new : Levels) (s : State) : edges st old new s = handEdges st old new s := by
  unfold edges ackEdges talkEdges handEdges
  rw [callEdges_eq, announceEdges_eq, allKeys_eq, allLamps_eq]
  rfl

/-! The releases of a reconciling frame (R12). -/

theorem freeTalk_eq (b : Bank) (st : Station) (new : Levels) (k : Key) (a : Arbiter) :
    (if a.talk[st][k] ≠ .off && !new.talk[k] then a.talkRelease b st k else a) = freeTalk b st new k a := by
  unfold freeTalk
  simp only [Bool.and_eq_true, decide_eq_true_eq, Bool.not_eq_true']

theorem freeCalls_eq (b : Bank) (st : Station) (new : Levels) (a : Arbiter) :
    a.endCalls b st (fun k => new.call ≠ some k) = freeCalls b st new a := by
  unfold Arbiter.endCalls freeCalls
  refine congrArg (fun v => { a with calls := v }) (vector_ext_fin fun n => ?_)
  rw [ofFn_get, ofFn_get]
  cases hc : a.calls[n] with
  | idle => rfl
  | holding c r => rfl
  | calling u k =>
    dsimp only [holdOrIdle]
    simp only [Bool.and_eq_true, decide_eq_true_eq]

theorem freeAnnounce_eq (st : Station) (new : Levels) (a : Arbiter) :
    (if a.ann[st] ≠ .none && !new.announce then a.announceRelease st else a) = freeAnnounce st new a := by
  unfold freeAnnounce
  simp only [Bool.and_eq_true, decide_eq_true_eq, Bool.not_eq_true']

theorem reconcileArb_eq (b : Bank) (st : Station) (new : Levels) (a : Arbiter) :
    reconcileArb b st new a = freeReleased b st new a := by
  have htalk : allKeys.foldl (fun a k => if a.talk[st][k] ≠ .off && !new.talk[k] then a.talkRelease b st k else a) a
      = freeTalk b st new 3 (freeTalk b st new 2 (freeTalk b st new 1 (freeTalk b st new 0 a))) := by
    simp only [freeTalk_eq, allKeys_eq, List.foldl_cons, List.foldl_nil]
  unfold reconcileArb freeReleased
  rw [htalk]
  dsimp only
  rw [freeCalls_eq, freeAnnounce_eq]

/-! The levels of a taken frame (R135). -/

/-- The contents taken into the port unit. -/
def contentsTaken (p : Port) (f : UplinkFrame) (s : State) : State := { s with ports := upd s.ports p fun u =>
  { u with latest := f.audio.getD silence, fresh := true, held := f.levels, awaiting := false } }

theorem takeContents_eq (p : Port) (f : UplinkFrame) (bringsUp : Bool) (s : State) :
    takeContents p f bringsUp s = arriveArea p f.area
      (if s.ports[p].awaiting then reconcile p f.levels (contentsTaken p f s)
        else if bringsUp then contentsTaken p f s
        else match s.activeOf p with
          | some st => edges st s.ports[p].held f.levels (contentsTaken p f s)
          | none => contentsTaken p f s) := by
  have hunit : (s.modPort p fun u => { u with latest := f.audio.getD silence, fresh := true }).ports[p]
      = { s.ports[p] with latest := f.audio.getD silence, fresh := true } := by rw [State.modPort_ports, upd_same]
  have htaken : (s.modPort p fun u => { u with latest := f.audio.getD silence, fresh := true }).modPort p
      (fun u => { u with held := f.levels, awaiting := false }) = contentsTaken p f s := by
    unfold State.modPort
    dsimp only
    rw [upd_upd]
    rfl
  unfold takeContents takeLevels
  dsimp only
  rw [hunit, htaken]
  rfl

theorem reconcile_some {p : Port} {st : Station} (new : Levels) {s : State} (h : s.activeOf p = some st) :
    reconcile p new s = if s.homing[st].state = .switching then failOver st p (s.modArb (freeReleased s.live st new))
      else s.modArb (freeReleased s.live st new) := by
  rw [reconcile, h]
  unfold State.modArb
  dsimp only
  rw [reconcileArb_eq]

theorem failOver_eq (st : Station) (p : Port) (s : State) : failOver st p s = reportHoming 0xD9 st [byteOf p.val]
    { s with homing := s.homing.set st { s.homing[st] with state := .onSpare, switchRem := none } } := rfl

/-- Settles O27: the levels go by the awaiting mark and the port's station; the edges and the releases are spelled. -/
theorem takenFramesHandTheirEdges : Obligations.TakenFramesHandTheirEdges := by
  intro s p f bringsUp
  have hactive : (contentsTaken p f s).activeOf p = s.activeOf p := rfl
  refine ⟨fun hnone => ?nobody, fun st hst => ⟨fun ha => ?bringsUp, fun ha => ?edges, fun ha => ?reconciles⟩⟩
  case nobody =>
    have hrec : reconcile p f.levels (contentsTaken p f s) = contentsTaken p f s := by rw [reconcile, hactive, hnone]
    rw [takeContents_eq, hrec, hnone]
    simp only [ite_self]
    rfl
  case bringsUp =>
    rw [takeContents_eq, ha]
    rfl
  case edges =>
    rw [takeContents_eq, ha, hst]
    dsimp only
    rw [edges_eq]
    rfl
  case reconciles =>
    have hfreed : (contentsTaken p f s).modArb (freeReleased (contentsTaken p f s).live st f.levels)
        = { contentsTaken p f s with arb := freeReleased s.live st f.levels s.arb } := rfl
    rw [takeContents_eq, if_pos ha, reconcile_some f.levels (hactive.trans hst), hfreed, failOver_eq]
    rfl

/-! A port goes DOWN (R131). -/

theorem linkDown_isDue {s : State} {p : Port} (hup : s.ports[p].up = true) (hl : s.ports[p].loss = 20) :
    (Due.linkDown p).isDue s = true := by
  rw [Due.isDue, hup, hl]
  rfl

theorem FaultTaken.auth_init {st : Station} {s t : State} (h : FaultTaken st s t) (ha : s.auth = Authority.init) :
    t.auth = Authority.init := by
  have hnot : s.holds st = false := by
    rw [State.holds, ha]
    rfl
  cases h with
  | none hst ht => rw [ht, ha]
  | switched sp hst hsp hc ht =>
    rw [ht, startSwitchover_eq, (reportHoming_only _ _ _ _).auth, authMoved_auth]
    refine (if_neg fun e => ?_).trans ha
    have hholds := (Bool.and_eq_true_iff.mp e).1
    exact absurd (hnot.symm.trans hholds) (by decide)
  | isolated k hk r cause ht =>
    rw [ht, enterIsolated_auth_of_not r cause (s := { s with homing := s.homing.set st k }) hnot]
    exact ha

theorem portsJudged_auth_init {st : Station} {s : State} (ha : s.auth = Authority.init) :
    (portsJudged st s).auth = Authority.init := by
  unfold portsJudged otherPortJudged
  split
  · rw [tryReturn_auth, ha]
  · split
    · split
      · exact (linkFault_taken st s).auth_init ha
      · exact ha
    · exact ha

theorem Flagged.auth {s t : State} (h : Flagged s t) : t.auth = s.auth := by rw [h.rest]

theorem judgePort_auth_init {p : Port} {s : State} (ha : s.auth = Authority.init) : (judgePort p s).auth = Authority.init := by
  obtain ⟨h, -⟩ | ⟨st, hst, hc, h⟩ := judgePort_cases p s
  · rw [h, ha]
  · rw [h]
    generalize hv : s.modPort p _ = v
    have hva : v.auth = Authority.init := by rw [← hv]; exact ha
    unfold handCond
    have hf := (modPortFaults_flagged p (fun f => { f with linkCond := judgedCond s.ports[p] (s.station st).threshold }) v)
    generalize v.modPortFaults p _ = w at hf
    have hwa : w.auth = Authority.init := hf.auth.trans hva
    dsimp only
    split
    · have hra : (linkRaised p st w).auth = Authority.init := (linkRaised_flagged p st w).auth.trans hwa
      unfold linkBegun
      split
      · exact (linkFault_taken st _).auth_init hra
      · exact hra
    · have hea : (linkEnded p st w).auth = Authority.init := (linkEnded_flagged p st w).auth.trans hwa
      generalize linkEnded p st w = x at hea
      have hma : (if x.faults.modes.link = .auto then clearMark st p x else x).auth = Authority.init := by
        split
        · exact hea
        · exact hea
      unfold homingCondEnded
      generalize (if x.faults.modes.link = .auto then clearMark st p x else x) = y at hma
      dsimp only
      split
      · exact hma
      · exact portsJudged_auth_init hma

theorem judgedCond_of_down {u : PortUnit} (h : u.up = false) (k : Nat) : judgedCond u k = true := by
  simp [judgedCond, h]

/-- What stands in the port units after a judgement: all but what the homing controller restarts. -/
theorem judgePort_units (p : Port) (s : State) (q : Port) : ∃ c, Eased { s.ports[q] with cond := c } (judgePort p s).ports[q] :=
  (judgeWith_part (handCond_part p) s).ports q

theorem releaseHeld_eq (b : Bank) (st : Station) (held : Levels) (a : Arbiter) : releaseHeld b st held a =
    (let free (k : Key) (a : Arbiter) : Arbiter := if held.talk[k] then a.talkRelease b st k else a
    let a1 := free 3 (free 2 (free 1 (free 0 a)))
    let a2 := if held.announce then a1.announceRelease st else a1
    match held.call with
      | some k => a2.callRelease b st k
      | none => a2) := by
  unfold releaseHeld
  rw [allKeys_eq]
  rfl

/-- The state of port `p` DOWN with arbiter `a`. -/
def downWith (p : Port) (a : Arbiter) (s : State) : State := { s with
  arb := a,
  ports := upd s.ports p fun u =>
    { u with up := false, held := Levels.released, bucket := 255, loss := 0, acquire := 0, lastSeq := none,
             latest := silence, fresh := false, conceal := .silent, slot := silence } }

/-- The authority unit's part of a port gone DOWN. -/
theorem authPortDown_eq (p : Port) (s : State) : authPortDown p s = if s.auth.holder = some p then
    broadcast (reportOf 0xD2 [byteOf p.val, 2]) { s with auth := ⟨none, none, none, false⟩ } else s := by
  unfold authPortDown
  split
  · next h =>
    rw [loseAuthority_of_holder h, ← broadcast_setAuth]
    rfl
  · rfl

theorem authPortDown_of_holder {p : Port} {s : State} (h : s.auth.holder = some p) : (authPortDown p s).auth = Authority.init := by
  rw [authPortDown_eq, if_pos h, broadcast_auth]
  rfl

theorem authPortDown_ports (p : Port) (s : State) : (authPortDown p s).ports = s.ports := by
  rw [authPortDown_eq]
  split
  · rw [broadcast]
  · rfl

theorem authPortDown_live (p : Port) (s : State) : (authPortDown p s).live = s.live := by
  rw [authPortDown_eq]
  split
  · rw [broadcast]
  · rfl

theorem takeDown_eq (p : Port) (s : State) : takeDown p s = judgePort p (authPortDown p (downWith p
    (match s.activeOf p with
      | some st => if s.ports[p].awaiting then s.arb else releaseHeld s.live st s.ports[p].held s.arb
      | none => s.arb) s)) := by
  unfold takeDown
  cases s.activeOf p with
  | none => rfl
  | some st => cases s.ports[p].awaiting <;> rfl

/-- Settles O28: the port unit as it goes DOWN is left so by the judgement of its condition, whatever the homing
controller makes of it. -/
theorem linkDownEmptiesThePort : Obligations.LinkDownEmptiesThePort := by
  intro s p hcalm hup hloss
  have hexec : exec (.linkDown p) s = .next (takeDown p s) :=
    exec_event_due (d := .linkDown p) rfl hcalm (linkDown_isDue hup hloss)
  have hspelled := takeDown_eq p s
  generalize harb : (match s.activeOf p with
      | some st => if s.ports[p].awaiting then s.arb else releaseHeld s.live st s.ports[p].held s.arb
      | none => s.arb) = a at hspelled
  have hports := authPortDown_ports p (downWith p a s)
  have hself : (downWith p a s).ports[p] = s.ports[p].down := by
    rw [downWith, upd_same]
    rfl
  have hother : ∀ q : Port, q ≠ p → (downWith p a s).ports[q] = s.ports[q] := fun q hq => by
    rw [downWith]
    dsimp only
    rw [upd_get, if_neg (Ne.symm hq)]
  have hunits := judgePort_units p (authPortDown p (downWith p a s))
  rw [hports, ← hspelled] at hunits
  obtain ⟨c, hc⟩ := hunits p
  rw [hself] at hc
  refine ⟨_, hexec, ?_⟩
  have hfields : (takeDown p s).ports[p].up = false ∧ (takeDown p s).ports[p].bucket = 255 ∧ (takeDown p s).ports[p].loss = 0
      ∧ (takeDown p s).ports[p].acquire = 0 ∧ (takeDown p s).ports[p].lastSeq = none
      ∧ (takeDown p s).ports[p].held = Levels.released ∧ (takeDown p s).ports[p].latest = silence
      ∧ (takeDown p s).ports[p].fresh = false ∧ (takeDown p s).ports[p].conceal = .silent
      ∧ (takeDown p s).ports[p].slot = silence := by
    rcases hc with hc | hc <;> rw [hc] <;> exact ⟨rfl, rfl, rfl, rfl, rfl, rfl, rfl, rfl, rfl, rfl⟩
  obtain ⟨h1, h2, h3, h4, h5, h6, h7, h8, h9, h10⟩ := hfields
  refine ⟨h1, h2, h3, h4, h5, h6, h7, h8, h9, h10, fun hserves => ?cond, fun hholder => ?lost, fun q hq => ?others, ?spelled⟩
  case cond =>
    obtain ⟨st, hst⟩ := Option.isSome_iff_exists.mp hserves
    have hlive : (authPortDown p (downWith p a s)).live.serves p = some st := by rw [authPortDown_live]; exact hst
    rw [hspelled, judgePort_cond hlive, hports, hself]
    exact judgedCond_of_down rfl _
  case lost =>
    rw [hspelled]
    exact judgePort_auth_init (authPortDown_of_holder hholder)
  case others =>
    obtain ⟨d, hd⟩ := hunits q
    rw [hother q hq] at hd
    rcases hd with hd | hd <;> rw [hd] <;> exact ⟨rfl, rfl, rfl⟩
  case spelled =>
    rw [hspelled, ← harb]
    simp only [releaseHeld_eq]
    rw [authPortDown_eq]
    rfl

end Sys2Proof.Machine
end

section
/-! Valid uplink frames: how one is parsed, and what it does to its port (R127 to R130, R182). -/

namespace Sys2Proof.Machine

/-! The samples of a frame. -/

theorem sampleOf_toNat (lo hi : Byte) : (sampleOf lo hi).toNat = lo.toNat + 256 * hi.toNat := by
  have hlo : lo.toNat < 2 ^ 8 := lo.isLt
  have hhi := hi.isLt
  have hshift : hi.toNat <<< 8 = hi.toNat * 2 ^ 8 := Nat.shiftLeft_eq _ _
  have hor : lo.toNat ||| hi.toNat <<< 8 = lo.toNat + 256 * hi.toNat := by
    rw [Nat.or_comm, ← Nat.shiftLeft_add_eq_or_of_lt hlo, hshift]
    omega
  unfold sampleOf
  rw [BitVec.toNat_or, BitVec.toNat_shiftLeft, BitVec.toNat_setWidth, BitVec.toNat_setWidth,
    Nat.mod_eq_of_lt (by omega : lo.toNat < 2 ^ 16), Nat.mod_eq_of_lt (by omega : hi.toNat < 2 ^ 16),
    Nat.mod_eq_of_lt (by rw [hshift]; omega : hi.toNat <<< 8 < 2 ^ 16), hor]

theorem samplesOf_getD {l : List Byte} {k : Nat} {lo hi : Byte} (hlo : l[2 * k]? = some lo) (hhi : l[2 * k + 1]? = some hi) :
    (samplesOf l).getD k 0 = sampleOf lo hi := by
  induction k generalizing l with
  | zero =>
    match l with
    | x :: y :: rest =>
      obtain rfl := Option.some.inj hlo
      obtain rfl := Option.some.inj hhi
      rfl
    | [x] => cases hhi
    | [] => cases hlo
  | succ k ih =>
    match l with
    | x :: y :: rest =>
      rw [samplesOf, List.getD_cons_succ]
      exact ih hlo hhi
    | [x] => cases hhi
    | [] => cases hlo

/-- R182: the call key in the levels' second byte. -/
theorem callKey_eq (b : Byte) : finOf? 4 ((b.toNat / 16) % 4) = some (Fin.ofNat 4 (b.toNat / 16)) :=
  dif_pos (Nat.mod_lt _ (by decide))

/-- The frame that sound bytes carry. -/
def frameOf (seq b1 b2 cnt mlen : Byte) (rest : List Byte) : UplinkFrame where
  seq := seq
  levels := levelsOf b1 b2
  audio := if cnt.toNat = 24 then some (blockOf (samplesOf (rest.take 48))) else none
  area := (rest.drop (2 * cnt.toNat)).take mlen.toNat

theorem parseUplink_sound {seq b1 b2 cnt mlen : Byte} {rest : List Byte} (hcnt : cnt.toNat = 0 ∨ cnt.toNat = 24)
    (hm : mlen.toNat ≤ 64) (hlen : (seq :: b1 :: b2 :: cnt :: mlen :: rest).length = 7 + 2 * cnt.toNat + mlen.toNat)
    (hcrc : crcBytes (crc 0xFFFF ((seq :: b1 :: b2 :: cnt :: mlen :: rest).take
        ((seq :: b1 :: b2 :: cnt :: mlen :: rest).length - 2)))
      = (seq :: b1 :: b2 :: cnt :: mlen :: rest).drop ((seq :: b1 :: b2 :: cnt :: mlen :: rest).length - 2)) :
    parseUplink (seq :: b1 :: b2 :: cnt :: mlen :: rest) = some (frameOf seq b1 b2 cnt mlen rest) :=
  if_pos ⟨hcnt, hm, hlen, hcrc⟩

theorem frameOf_audio {seq b1 b2 cnt mlen : Byte} {rest : List Byte} (h : cnt.toNat = 24) :
    ∃ x, (frameOf seq b1 b2 cnt mlen rest).audio = some x ∧ ∀ (k : Fin 24) (lo hi : Byte),
      rest[2 * k.val]? = some lo → rest[2 * k.val + 1]? = some hi → x[k].toNat = lo.toNat + 256 * hi.toNat := by
  refine ⟨_, if_pos h, fun k lo hi hlo hhi => ?_⟩
  have hk := k.isLt
  have hget : (blockOf (samplesOf (rest.take 48)))[k] = sampleOf lo hi := by
    rw [blockOf, ofFn_get]
    refine samplesOf_getD ?_ ?_
    · rw [List.getElem?_take_of_lt (by omega), hlo]
    · rw [List.getElem?_take_of_lt (by omega), hhi]
  rw [hget, sampleOf_toNat]

theorem frameOf_levels (seq b1 b2 cnt mlen : Byte) (rest : List Byte) :
    (∀ k : Key, (frameOf seq b1 b2 cnt mlen rest).levels.talk[k] = b1.getLsbD k.val)
      ∧ (frameOf seq b1 b2 cnt mlen rest).levels.announce = b1.getLsbD 4
      ∧ (∀ j : Lamp, (frameOf seq b1 b2 cnt mlen rest).levels.acks[j] = b2.getLsbD j.val)
      ∧ (frameOf seq b1 b2 cnt mlen rest).levels.call = if b2.getLsbD 6 then some (Fin.ofNat 4 (b2.toNat / 16)) else none := by
  refine ⟨fun k => ?_, rfl, fun j => ?_, ?_⟩
  · exact ofFn_get _ k
  · exact ofFn_get _ j
  · rw [← callKey_eq]
    rfl

/-! A valid frame at its port. -/

theorem receive_repeated {p : Port} {bytes : List Byte} {f : UplinkFrame} {s : State} (hf : parseUplink bytes = some f)
    (h : s.ports[p].lastSeq = some f.seq) : receive p bytes s = s := by
  rw [receive, hf]
  exact if_pos h

theorem receive_valid {p : Port} {bytes : List Byte} {f : UplinkFrame} {s : State} (hf : parseUplink bytes = some f)
    (h : s.ports[p].lastSeq ≠ some f.seq) : receive p bytes s = validFrame p f s := by
  rw [receive, hf]
  exact if_neg h

theorem acquires_iff {u : PortUnit} : u.acquires = true ↔ u.up = false ∧ 7 ≤ u.acquire := by
  simp [PortUnit.acquires, Config.acquireLimit]

theorem bringsUp_iff {p : Port} {bytes : List Byte} {f : UplinkFrame} {s : State} (hf : parseUplink bytes = some f) :
    s.bringsUp p bytes = true ↔ s.ports[p].lastSeq ≠ some f.seq ∧ (s.ports[p].up = false ∧ 7 ≤ s.ports[p].acquire) := by
  rw [State.bringsUp, hf]
  dsimp only
  rw [Bool.and_eq_true, acquires_iff, decide_eq_true_eq]

/-- The port unit at a valid frame with sequence `seq`. -/
def PortUnit.heard (u : PortUnit) (seq : Byte) : PortUnit :=
  { u with lastSeq := some seq, bucket := u.bucket - 1, loss := 0, validSeen := true,
           up := u.up || 7 ≤ u.acquire,
           acquire := if u.up then u.acquire else if 7 ≤ u.acquire then 0 else u.acquire + 1 }

theorem heard_eq (u : PortUnit) (seq : Byte) : (u.valid seq).acquireStep = u.heard seq := by
  unfold PortUnit.acquireStep PortUnit.heard PortUnit.acquires PortUnit.valid
  by_cases hup : u.up = true
  · simp [hup]
  · by_cases ha : 7 ≤ u.acquire <;> simp [hup, ha, Config.acquireLimit]

theorem modPort_heard (p : Port) (seq : Byte) (s : State) :
    (s.modPort p fun u => (u.valid seq).acquireStep) = { s with ports := s.ports.set p (s.ports[p].heard seq) } := by
  rw [← heard_eq]
  rfl

/-- The judgement after a valid frame. -/
def heardJudged (p : Port) (seq : Byte) (s : State) : State := judgePort p { s with ports := s.ports.set p (s.ports[p].heard seq) }

theorem validFrame_eq (p : Port) (f : UplinkFrame) (s : State) :
    validFrame p f s = if (heardJudged p f.seq s).ports[p].up && !(heardJudged p f.seq s).marked p
      then takeContents p f s.ports[p].acquires (heardJudged p f.seq s) else heardJudged p f.seq s := by
  rw [validFrame, modPort_heard]
  rfl

theorem takeContents_links (p : Port) (f : UplinkFrame) (b : Bool) (s : State) (q : Port) :
    (takeContents p f b s).ports[q].link = s.ports[q].link := by
  unfold takeContents
  rw [(arriveArea_same p f.area _).ports, (takeLevels_stays p f.levels b _).links q]
  exact (modPort_stays p (fun u => { u with latest := f.audio.getD silence, fresh := true }) s fun _ => by rfl).links q

theorem validFrame_links (p : Port) (f : UplinkFrame) (s : State) (q : Port) :
    (validFrame p f s).ports[q].link = (s.ports.set p (s.ports[p].heard f.seq))[q].link := by
  have hjudged : (heardJudged p f.seq s).ports[q].link = (s.ports.set p (s.ports[p].heard f.seq))[q].link :=
    (judgePort_stays p _).links q
  rw [validFrame_eq]
  split
  · rw [takeContents_links, hjudged]
  · exact hjudged

/-- The fields of a port unit's link part. -/
theorem link_fields {u v : PortUnit} (h : u.link = v.link) :
    u.up = v.up ∧ u.acquire = v.acquire ∧ u.loss = v.loss ∧ u.bucket = v.bucket ∧ u.lastSeq = v.lastSeq := by
  simp only [PortUnit.link, Prod.mk.injEq] at h
  obtain ⟨h1, h2, h3, h4, h5, -⟩ := h
  exact ⟨h1, h2, h3, h4, h5⟩

theorem exec_linkUp_calm {s : State} {p : Port} {bytes : List Byte} (h : Calm s) :
    exec (.linkUp p bytes) s = .next (linkUpEvent p bytes (settleDown p s)) :=
  settled_calm (f := fun t => linkUpEvent p bytes (settleDown p t)) h

theorem linkUpEvent_up {p : Port} {bytes : List Byte} {s : State} (h : s.bringsUp p bytes = true) :
    linkUpEvent p bytes s = receive p bytes s := if_pos h

theorem linkUpEvent_no {p : Port} {bytes : List Byte} {s : State} (h : ¬ s.bringsUp p bytes = true) :
    linkUpEvent p bytes s = s := if_neg h

/-- Settles O26: sound bytes parse to the frame that they spell; a frame that is no repeat is counted, judged and, on a port
that is UP and not marked, its contents taken. -/
theorem validFramesCount : Obligations.ValidFramesCount := by
  refine ⟨fun seq b1 b2 cnt mlen rest => ?parse, fun s p bytes f hcalm hloss hf => ?frame⟩
  case parse =>
    intro bytes hcnt hm hlen hcrc
    obtain ⟨h1, h2, h3, h4⟩ := frameOf_levels seq b1 b2 cnt mlen rest
    exact ⟨_, parseUplink_sound hcnt hm hlen hcrc, rfl, h1, h2, h3, h4, fun h => if_neg (by omega), frameOf_audio, rfl⟩
  case frame =>
    have hframe : exec (.uplinkFrame p bytes) s = .next (receive p bytes s) := by
      rw [exec_uplinkFrame_calm hcalm, settleDown_of_not_lost hloss]
    have hlink : exec (.linkUp p bytes) s = .next (linkUpEvent p bytes s) := by
      rw [exec_linkUp_calm hcalm, settleDown_of_not_lost hloss]
    refine ⟨fun hrep => ⟨?_, ?_⟩, fun hnew => ?_⟩
    · rw [hframe, receive_repeated hf hrep]
    · rw [hlink, linkUpEvent_no fun e => ((bringsUp_iff hf).mp e).1 hrep]
    have hlinks := validFrame_links p f s
    have hspelled : validFrame p f s = (if (s.ports[p].heard f.seq).up && !(heardJudged p f.seq s).marked p
        then takeContents p f (decide (s.ports[p].up = false ∧ 7 ≤ s.ports[p].acquire)) (heardJudged p f.seq s)
        else heardJudged p f.seq s) := by
      have hup : (heardJudged p f.seq s).ports[p].up = (s.ports[p].heard f.seq).up := by
        have h := (judgePort_stays p { s with ports := s.ports.set p (s.ports[p].heard f.seq) }).links p
        dsimp only at h
        rw [set_self] at h
        exact (link_fields h).1
      have hacq : s.ports[p].acquires = decide (s.ports[p].up = false ∧ 7 ≤ s.ports[p].acquire) := by
        rw [Bool.eq_iff_iff, acquires_iff, decide_eq_true_eq]
      rw [validFrame_eq, hup, hacq]
    have hself := hlinks p
    rw [set_self] at hself
    obtain ⟨hup, hacq, hls, hb, hseq⟩ := link_fields hself
    rw [receive_valid hf hnew] at hframe
    have hev : s.ports[p].up = false ∧ 7 ≤ s.ports[p].acquire → linkUpEvent p bytes s = validFrame p f s := fun h => by
      rw [linkUpEvent_up ((bringsUp_iff hf).mpr ⟨hnew, h⟩), receive_valid hf hnew]
    rw [hspelled] at hframe hup hacq hls hb hseq hev hlinks
    refine ⟨hframe, fun h => ?_, fun h => ?_, hup, hacq, hb, hls, hseq, fun q hq => ?_⟩
    · rw [hlink, hev h]
      rfl
    · rw [hlink, linkUpEvent_no fun e => h ((bringsUp_iff hf).mp e).2]
    · have hother := hlinks q
      rw [set_other _ _ hq] at hother
      obtain ⟨hup', -, hls', hb', -⟩ := link_fields hother
      exact ⟨hup', hb', hls'⟩

end Sys2Proof.Machine
end

section
/-! Talk, call and announce presses and their releases (R5, R13 to R17, R161). -/

namespace Sys2Proof.Machine

/-! The checks of a press (R5, R13, R16). -/

theorem talks_iff {k : Kind} : k.talks = true ↔ k = .desk ∨ k = .panel ∨ k = .beltpack := by
  cases k <;> simp [Kind.talks]

theorem not_isolated_iff {s : State} {st : Station} : s.isolated st = false ↔ s.homing[st].state ≠ .isolated := by
  rw [State.isolated, decide_eq_false_iff_not]

theorem netOfKey_first {b : Bank} {st : Station} {k : Key} {n : Net} (h : (b.cell st n).key = some k)
    (hu : ∀ m < n, (b.cell st m).key ≠ some k) : b.netOfKey st k = some n :=
  find_finRange (decide_eq_true h) fun m hm => decide_eq_false (hu m hm)

theorem pressNet_some {s : State} {st : Station} {k : Key} {n : Net} (hen : (s.station st).enabled = true)
    (hk : (s.station st).kind = .desk ∨ (s.station st).kind = .panel ∨ (s.station st).kind = .beltpack)
    (hiso : s.homing[st].state ≠ .isolated) (hkey : (s.live.cell st n).key = some k)
    (hfirst : ∀ m < n, (s.live.cell st m).key ≠ some k) (hnet : (s.net n).enabled = true) : s.pressNet st k = some n := by
  rw [State.pressNet, hen, talks_iff.mpr hk, not_isolated_iff.mpr hiso, netOfKey_first hkey hfirst]
  exact if_pos hnet

/-- A press that passes is one of a talking station, with a cell that carries its key on an enabled net. -/
theorem pressNet_spec {s : State} {st : Station} {k : Key} {n : Net} (h : s.pressNet st k = some n) :
    (s.station st).enabled = true ∧ (s.station st).kind.talks = true ∧ s.homing[st].state ≠ .isolated
      ∧ (s.live.cell st n).key = some k ∧ (s.net n).enabled = true := by
  unfold State.pressNet at h
  split at h
  · next hcond =>
    rw [Bool.and_eq_true, Bool.and_eq_true, Bool.not_eq_true'] at hcond
    obtain ⟨⟨hen, htalks⟩, hiso⟩ := hcond
    split at h
    · next m hm =>
      split at h
      · next hnet =>
        obtain rfl := Option.some.inj h
        exact ⟨hen, htalks, not_isolated_iff.mp hiso, netOfKey_key hm, hnet⟩
      · cases h
    · cases h
  · cases h

theorem pressNet_ignored {s : State} {st : Station} {k : Key}
    (h : (s.station st).enabled = false ∨ (s.station st).kind = .cueStation ∨ (s.station st).kind = .source
      ∨ s.homing[st].state = .isolated ∨ (∀ n : Net, (s.live.cell st n).key ≠ some k)
      ∨ (∀ n : Net, (s.live.cell st n).key = some k → (s.net n).enabled = false)) : s.pressNet st k = none := by
  refine Option.eq_none_iff_forall_ne_some.mpr fun n hn => ?_
  obtain ⟨hen, htalks, hiso, hkey, hnet⟩ := pressNet_spec hn
  rcases h with h | h | h | h | h | h
  · rw [h] at hen; cases hen
  · rw [h] at htalks; cases htalks
  · rw [h] at htalks; cases htalks
  · exact hiso h
  · exact h n hkey
  · rw [h n hkey] at hnet; cases hnet

/-! A REKEY mute's end (R161). -/

theorem allOff_iff {a : Arbiter} {st : Station} : a.allOff st = true ↔ ∀ k : Key, a.talk[st][k] = .off := by
  simp [-Fin.getElem_fin, Arbiter.allOff, allKeys]

theorem rekeys_iff {s : State} {st : Station} :
    s.rekeys st = true ↔ s.mute st = .rekey ∧ (∀ j : Key, s.arb.talk[st][j] = .off) ∧ s.arb.ann[st] = .none := by
  rw [State.rekeys, Bool.and_eq_true, Bool.and_eq_true, decide_eq_true_eq, decide_eq_true_eq, allOff_iff, and_assoc]

/-- The mute ended, and the report of it. -/
theorem endMute_modArb (st : Station) (f : Arbiter → Arbiter) (s : State) : (endMute st .rekeyPress s).modArb f =
    { broadcast (reportOf 0xE2 [byteOf st.val, 1])
        { s with faults := { s.faults with stations := upd s.faults.stations st fun f => { f with mute := .none } } } with
      arb := f s.arb } := by
  rw [State.modArb, endMute, (broadcast_only _ _).arb]
  rfl

/-! Talk presses. -/

theorem stands_iff {a : Arbiter} {st : Station} {k : Key} :
    a.stands st k = true ↔ a.talk[st][k] = .live ∨ a.talk[st][k] = .wait := by simp [Arbiter.stands]

theorem talkPress_ignored {s : State} {st : Station} {k : Key} (h : s.pressNet st k = none) : talkPress st k s = s := by
  rw [talkPress, h]

theorem talkPress_standing {s : State} {st : Station} {k : Key} (h : s.arb.stands st k = true) : talkPress st k s = s := by
  unfold talkPress
  cases s.pressNet st k with
  | none => rfl
  | some n => exact if_pos h

section

variable {s : State} {st : Station} {k : Key} {n : Net} (h : s.pressNet st k = some n) (hs : s.arb.stands st k = false)
include h hs

theorem talkPress_rekeys (hr : s.rekeys st = true) :
    talkPress st k s = (endMute st .rekeyPress s).modArb (Arbiter.placePress s.live n ⟨st, k⟩) := by
  rw [talkPress, h]
  exact (if_neg (Bool.eq_false_iff.mp hs)).trans (if_pos hr)

theorem talkPress_muted (hr : s.rekeys st = false) (hm : s.mute st ≠ .none) :
    talkPress st k s = { s with arb := s.arb.setTalk st k .muted } := by
  rw [talkPress, h]
  exact (if_neg (Bool.eq_false_iff.mp hs)).trans ((if_neg (Bool.eq_false_iff.mp hr)).trans (if_neg hm))

theorem talkPress_placed (hm : s.mute st = .none) :
    talkPress st k s = { s with arb := s.arb.placePress s.live n ⟨st, k⟩ } := by
  have hr : ¬ s.rekeys st = true := fun e => by
    have := (rekeys_iff.mp e).1
    rw [hm] at this
    cases this
  rw [talkPress, h]
  exact (if_neg (Bool.eq_false_iff.mp hs)).trans ((if_neg hr).trans (if_pos hm))

end

/-- Settles O30: a press by its checks, then by what its key stands with, then by the station's mute. -/
theorem talkPressesAreChecked : Obligations.TalkPressesAreChecked := by
  refine fun s st k => ⟨fun h => talkPress_ignored (pressNet_ignored h), rekeys_iff, fun h => talkPress_standing (stands_iff.mpr h),
    fun n => pressNet_some, fun n hn => ⟨fun hl hw => ?placed, fun hr => ?rekeyed⟩⟩
  case placed =>
    have hs : s.arb.stands st k = false := Bool.eq_false_iff.mpr fun e => (stands_iff.mp e).elim hl hw
    exact ⟨fun hm hr => talkPress_muted hn hs hr hm, fun hm => talkPress_placed hn hs hm⟩
  case rekeyed =>
    have hs : s.arb.stands st k = false := Bool.eq_false_iff.mpr fun e => by
      have hoff := (rekeys_iff.mp hr).2.1 k
      rcases stands_iff.mp e with e | e <;> rw [hoff] at e <;> cases e
    rw [talkPress_rekeys hn hs hr, endMute_modArb]

/-! Calls (R13 to R15). -/

theorem callRelease_get (b : Bank) (st : Station) (k : Key) (a : Arbiter) (n : Net) :
    (a.callRelease b st k).calls[n] = match a.calls[n] with
      | .calling t j => if t = st && j == k then holdOrIdle b n (some st) else a.calls[n]
      | c => c := ofFn_get _ n

theorem callRelease_own {b : Bank} {st : Station} {k : Key} {a : Arbiter} {n : Net} (h : a.calls[n] = .calling st k) :
    (a.callRelease b st k).calls[n] = holdOrIdle b n (some st) := by
  rw [callRelease_get, h]
  simp

theorem callRelease_other {b : Bank} {st : Station} {k : Key} {a : Arbiter} {n : Net} (h : a.calls[n] ≠ .calling st k) :
    (a.callRelease b st k).calls[n] = a.calls[n] := by
  rw [callRelease_get]
  cases hc : a.calls[n] with
  | calling t j =>
    rw [hc] at h
    refine if_neg fun e => h ?_
    obtain ⟨ht, hj⟩ := Bool.and_eq_true_iff.mp e
    rw [of_decide_eq_true ht, eq_of_beq hj]
  | idle => rfl
  | holding c r => rfl

theorem cueCall_disabled {b : Bank} {n : Net} {a : Arbiter} (h : b.nets[n].enabled = false) : a.cueCall b n = a :=
  if_neg (Bool.eq_false_iff.mp h)

theorem cueCall_calling {b : Bank} {n : Net} {a : Arbiter} {u : Station} {j : Key} (h : a.calls[n] = .calling u j) :
    a.cueCall b n = a := by
  unfold Arbiter.cueCall
  rw [h]
  exact ite_self a

theorem cueCall_holds {b : Bank} {n : Net} {a : Arbiter} (hen : b.nets[n].enabled = true)
    (h : ∀ u j, a.calls[n] ≠ .calling u j) : a.cueCall b n = a.setCall n (holdOrIdle b n none) := by
  unfold Arbiter.cueCall
  rw [if_pos hen]
  cases hc : a.calls[n] with
  | calling u j => exact absurd hc (h u j)
  | idle => rfl
  | holding c r => rfl

theorem callPress_placed {s : State} {st : Station} {k : Key} {n : Net} (h : s.pressNet st k = some n) (hm : s.mute st = .none) :
    callPress st k s = { s with arb := { s.arb with calls := s.arb.calls.set n (.calling st k) } } := by
  rw [callPress, h]
  exact if_pos hm

theorem callPress_ignored {s : State} {st : Station} {k : Key} (h : s.pressNet st k = none ∨ s.mute st ≠ .none) :
    callPress st k s = s := by
  unfold callPress
  rcases h with h | h
  · rw [h]
  · cases s.pressNet st k with
    | none => rfl
    | some n => exact if_neg h

/-! The announce channel (R16, R17). -/

/-- R16: what a press that passed its checks makes of the channel. -/
theorem announceTake_eq (b : Bank) (st : Station) (a : Arbiter) : a.announceTake b st = match a.announce with
    | none => { a with announce := some st, ann := a.ann.set st .inChannel }
    | some v =>
      if b.stations[v].cls < b.stations[st].cls then
        { a with announce := some st, ann := (a.ann.set v .refused).set st .inChannel }
      else { a with ann := a.ann.set st .refused } := by
  unfold Arbiter.announceTake Arbiter.setAnn
  cases a.announce <;> rfl

theorem announceChecked_iff {s : State} {st : Station} : s.announceChecked st = true ↔ (s.station st).enabled = true
    ∧ ((s.station st).kind = .desk ∨ (s.station st).kind = .panel ∨ (s.station st).kind = .beltpack)
    ∧ s.homing[st].state ≠ .isolated ∧ (s.station st).annAllowed = true := by
  rw [State.announceChecked, Bool.and_eq_true, Bool.and_eq_true, Bool.and_eq_true, Bool.not_eq_true', talks_iff,
    not_isolated_iff, and_assoc, and_assoc]

theorem announcePress_ignored {s : State} {st : Station} (h : s.announceChecked st = false) : announcePress st s = s :=
  if_neg (Bool.eq_false_iff.mp h)

theorem announcePress_rekeys {s : State} {st : Station} (h : s.announceChecked st = true) (hr : s.rekeys st = true) :
    announcePress st s = (endMute st .rekeyPress s).modArb (Arbiter.announceTake s.live st) :=
  (if_pos h).trans (if_pos hr)

theorem announcePress_taken {s : State} {st : Station} (h : s.announceChecked st = true) (hm : s.mute st = .none) :
    announcePress st s = { s with arb := s.arb.announceTake s.live st } := by
  have hr : ¬ s.rekeys st = true := fun e => by
    have := (rekeys_iff.mp e).1
    rw [hm] at this
    cases this
  exact (if_pos h).trans ((if_neg hr).trans (if_pos hm))

theorem announcePress_muted {s : State} {st : Station} (h : s.announceChecked st = true) (hm : s.mute st ≠ .none)
    (hr : s.rekeys st = false) : announcePress st s = { s with arb := { s.arb with ann := s.arb.ann.set st .refused } } :=
  (if_pos h).trans ((if_neg (Bool.eq_false_iff.mp hr)).trans (if_neg hm))

theorem announceRelease_eq (st : Station) (a : Arbiter) : a.announceRelease st =
    { a with announce := if a.announce = some st then none else a.announce, ann := a.ann.set st .none } := by
  unfold Arbiter.announceRelease Arbiter.freeAnnounce
  split <;> rfl

/-- Settles O36: each press and release by its checks; what the channel takes is said once. -/
theorem callsAndAnnounce : Obligations.CallsAndAnnounce := by
  refine fun s st k n => ⟨pressNet_some, callPress_placed, callPress_ignored, callRelease_own, callRelease_other, cueCall_disabled,
    fun u j => cueCall_calling, cueCall_holds, announceChecked_iff, announcePress_ignored, fun h hr => ?rekeyed, fun h hm => ?taken,
    announcePress_muted, announceRelease_eq st s.arb⟩
  case rekeyed =>
    rw [announcePress_rekeys h hr, endMute_modArb, announceTake_eq] <;> rfl
  case taken =>
    rw [announcePress_taken h hm, announceTake_eq] <;> rfl

end Sys2Proof.Machine
end

section
/-! The refill of a net in one step, and the release of a talk key (R9, R10). -/

namespace Sys2Proof.Machine

namespace Arbiter

variable {b : Bank} {a : Arbiter}

/-- The free slots of a net. -/
def freeSlots (b : Bank) (a : Arbiter) (n : Net) : Nat := b.nets[n].slots - a.holders[n].length

theorem relist_same (a : Arbiter) (n : Net) : a.relist n a.holders[n] a.waits[n] = a := by
  rw [relist, setHolders_same, setWaits_same]

theorem relist_relist (a : Arbiter) (n : Net) (H W H' W' : List Hold) : (a.relist n H W).relist n H' W' = a.relist n H' W' := by
  unfold relist setHolders setWaits
  dsimp only
  rw [Vector.set_set, Vector.set_set]

theorem setTalkAll_cons (a : Arbiter) (x : Hold) (l : List Hold) (v : Standing) :
    a.setTalkAll (x :: l) v = (a.setTalk x.st x.key v).setTalkAll l v := rfl

/-- A refill with fuel for the whole queue: the waiters from the head fill the free slots. -/
theorem refillFuel_eq {n : Net} {k : Nat} (hk : a.waits[n].length ≤ k) :
    refillFuel b n k a = (a.relist n (a.holders[n] ++ a.waits[n].take (freeSlots b a n)) (a.waits[n].drop (freeSlots b a n))).setTalkAll
      (a.waits[n].take (freeSlots b a n)) .live := by
  induction k generalizing a with
  | zero =>
    have hnil : a.waits[n] = [] := List.length_eq_zero_iff.mp (Nat.le_zero.mp hk)
    have hsame := a.relist_same n
    rw [hnil] at hsame
    rw [hnil, List.take_nil, List.drop_nil, List.append_nil, hsame]
    rfl
  | succ k ih =>
    cases hw : a.waits[n] with
    | nil =>
      have hsame := a.relist_same n
      rw [hw] at hsame
      rw [refillFuel_nil hw, List.take_nil, List.drop_nil, List.append_nil, hsame]
      rfl
    | cons w rest =>
      by_cases hfree : a.holders[n].length < b.nets[n].slots
      · obtain ⟨e1, e2⟩ := a.relist_self n (a.holders[n] ++ [w]) rest
        have hslots : freeSlots b a n = freeSlots b ((a.relist n (a.holders[n] ++ [w]) rest).setTalk w.st w.key .live) n + 1 := by
          unfold freeSlots
          rw [setTalk_holders, e1, List.length_append, List.length_singleton]
          omega
        rw [hw, List.length_cons] at hk
        rw [refillFuel_free hw hfree, ih (by rw [setTalk_waits, e2]; omega), hslots]
        generalize freeSlots b ((a.relist n (a.holders[n] ++ [w]) rest).setTalk w.st w.key .live) n = f
        rw [setTalk_holders, setTalk_waits, e1, e2, setTalk_relist, relist_relist, List.take_succ_cons, List.drop_succ_cons,
          List.append_assoc, setTalkAll_cons]
        rfl
      · have hslots : freeSlots b a n = 0 := by
          unfold freeSlots
          omega
        have hsame := a.relist_same n
        rw [hw] at hsame
        rw [refillFuel_full hfree, hslots, List.take_zero, List.drop_zero, List.append_nil, hsame]
        rfl

theorem refill_eq (n : Net) (a : Arbiter) : a.refill b n
    = (a.relist n (a.holders[n] ++ a.waits[n].take (freeSlots b a n)) (a.waits[n].drop (freeSlots b a n))).setTalkAll
      (a.waits[n].take (freeSlots b a n)) .live := refillFuel_eq (Nat.le_refl _)

/-! A release by the key's standing (R10). -/

theorem talkRelease_off (b : Bank) (st : Station) (k : Key) (a : Arbiter) : (a.talkRelease b st k).talk[st][k] = .off := by
  unfold talkRelease
  dsimp only
  rw [setTalk_get, if_pos ⟨rfl, rfl⟩]

theorem talkRelease_of_out {st : Station} {k : Key} (hl : a.talk[st][k] ≠ .live) (hw : a.talk[st][k] ≠ .wait) :
    a.talkRelease b st k = a.setTalk st k .off := by
  unfold talkRelease
  cases h : a.talk[st][k] with
  | live => exact absurd h hl
  | wait => exact absurd h hw
  | off => rfl
  | refused => rfl
  | muted => rfl
  | dropped => rfl

theorem talkRelease_of_wait {st : Station} {k : Key} (h : a.talk[st][k] = .wait) :
    a.talkRelease b st k = { a.setTalk st k .off with waits := a.waits.map fun l => l.erase ⟨st, k⟩ } := by
  unfold talkRelease
  rw [h]
  rfl

theorem talkRelease_of_live {st : Station} {k : Key} (h : a.talk[st][k] = .live) :
    a.talkRelease b st k = ((a.eraseHolder ⟨st, k⟩).refillAll b (a.netsHeld (· == ⟨st, k⟩))).setTalk st k .off := by
  unfold talkRelease
  rw [h]

/-- The one net that satisfies a test. -/
theorem filter_nets {p : Net → Bool} {n : Net} (hn : p n = true) (ho : ∀ m, m ≠ n → p m = false) : allNets.filter p = [n] := by
  have hp : p = fun m => m == n := by
    funext m
    by_cases hm : m = n
    · rw [hm, hn, beq_self_eq_true]
    · rw [ho m hm, beq_eq_false_iff_ne.mpr hm]
  have hcount : allNets.count n = 1 := List.count_eq_one_of_mem (List.nodup_finRange 16) (List.mem_finRange n)
  rw [hp, List.filter_beq, hcount]
  rfl

section

variable {x : Hold} {n : Net} (hx : x ∈ a.holders[n]) (ho : ∀ m : Net, m ≠ n → x ∉ a.holders[m])
include hx ho

theorem netsHeld_one : a.netsHeld (· == x) = [n] := by
  refine filter_nets (List.any_eq_true.mpr ⟨x, hx, beq_self_eq_true x⟩) fun m hm => List.any_eq_false.mpr fun y hy e => ?_
  exact ho m hm (eq_of_beq e ▸ hy)

omit hx in
theorem eraseHolder_one : a.eraseHolder x = a.setHolders n (a.holders[n].erase x) := by
  unfold eraseHolder setHolders
  refine congrArg (fun v => { a with holders := v }) (vector_ext_fin fun m => ?_)
  have hmap : (a.holders.map fun l => l.erase x)[m] = a.holders[m].erase x := by simp
  rw [hmap]
  by_cases hm : m = n
  · rw [hm, set_self]
  · rw [set_other _ _ hm, List.erase_of_not_mem (ho m hm)]

/-- A LIVE key's release: its net is refilled into the slot. -/
theorem released_refill : (a.eraseHolder x).refillAll b (a.netsHeld (· == x))
    = (a.relist n (a.holders[n].erase x ++ a.waits[n].take (b.nets[n].slots - (a.holders[n].erase x).length))
        (a.waits[n].drop (b.nets[n].slots - (a.holders[n].erase x).length))).setTalkAll
      (a.waits[n].take (b.nets[n].slots - (a.holders[n].erase x).length)) .live := by
  obtain ⟨e1, e2⟩ := a.relist_self n (a.holders[n].erase x) a.waits[n]
  rw [netsHeld_one hx ho, eraseHolder_one ho, setHolders_relist]
  show refill b n _ = _
  rw [refill_eq, freeSlots, e1, e2, relist_relist]

end

end Arbiter

/-- Settles O34: a release by the standing of its key; the slot of a LIVE one goes to the head of its net's queue. -/
theorem releaseByStanding : Obligations.ReleaseByStanding := by
  refine fun b st k a => ⟨Arbiter.talkRelease_off b st k a, Arbiter.talkRelease_of_out, Arbiter.talkRelease_of_wait,
    fun n hlive hm ho hlen => ?live⟩
  case live =>
    have herase : (a.holders[n].erase ⟨st, k⟩).length = a.holders[n].length - 1 := List.length_erase_of_mem hm
    have hpos : 0 < a.holders[n].length := List.length_pos_of_mem hm
    refine ⟨fun hw => ?_, fun w q hw hfull => ?_⟩
    · have hlists := a.setHolders_relist n (a.holders[n].erase ⟨st, k⟩)
      rw [hw] at hlists
      rw [Arbiter.talkRelease_of_live hlive, Arbiter.released_refill hm ho, hw, List.take_nil, List.drop_nil, List.append_nil,
        ← hlists]
      rfl
    · have hone : b.nets[n].slots - (a.holders[n].erase ⟨st, k⟩).length = 1 := by omega
      have hspelled : a.talkRelease b st k = ((a.relist n (a.holders[n].erase ⟨st, k⟩ ++ [w]) q).setTalk w.st w.key .live).setTalk st k .off := by
        rw [Arbiter.talkRelease_of_live hlive, Arbiter.released_refill hm ho, hone, hw]
        rfl
      refine ⟨hspelled, fun hne => ?_⟩
      rw [hspelled, Arbiter.setTalk_get, if_neg fun e => hne (hold_eq e.1.symm e.2.symm), Arbiter.setTalk_get, if_pos ⟨rfl, rfl⟩]

end Sys2Proof.Machine
end

section
/-! A station withdrawn from talk, and the talk arbiter's part of a Take in the words of the rules (R11, R18 to R21). -/

namespace Sys2Proof.Machine

namespace Arbiter

variable {b old new : Bank} {a : Arbiter}

/-! Standings set along a list. -/

theorem setTalkAll_rest (a : Arbiter) (l : List Hold) (v : Standing) : a.setTalkAll l v = { a with talk := (a.setTalkAll l v).talk } := by
  unfold setTalkAll
  induction l generalizing a with
  | nil => rfl
  | cons x l ih => exact ih (a.setTalk x.st x.key v)

theorem setTalkAll_congr {a a' : Arbiter} (h : a'.talk = a.talk) (l : List Hold) (v : Standing) :
    (a'.setTalkAll l v).talk = (a.setTalkAll l v).talk := by
  unfold setTalkAll
  induction l generalizing a a' with
  | nil => exact h
  | cons x l ih => exact ih (congrArg (fun rows : Vector (Vector Standing 4) 24 => upd rows x.st fun row => row.set x.key v) h)

theorem setTalkAll_get (a : Arbiter) (l : List Hold) (v : Standing) (x : Hold) :
    (a.setTalkAll l v).talk[x.st][x.key] = if x ∈ l then v else a.talk[x.st][x.key] := by
  induction l generalizing a with
  | nil => rfl
  | cons y l ih =>
    rw [setTalkAll_cons, ih, setTalk_get]
    by_cases hl : x ∈ l
    · rw [if_pos hl, if_pos (List.mem_cons_of_mem y hl)]
    · rw [if_neg hl]
      by_cases hy : x = y
      · rw [if_pos ⟨congrArg Hold.st hy.symm, congrArg Hold.key hy.symm⟩, if_pos (by rw [hy]; exact List.mem_cons_self)]
      · rw [if_neg fun e => hy (hold_eq e.1.symm e.2.symm), if_neg fun e => (List.mem_cons.mp e).elim hy hl]

/-! The refill of a list of nets (R9). -/

/-- The waiters that a refill of the nets of a list makes LIVE on net `n`. -/
def granted (b : Bank) (ns : List Net) (a : Arbiter) (n : Net) : List Hold :=
  if n ∈ ns then a.waits[n].take (freeSlots b a n) else []

/-- What a refill of several nets does. -/
structure Refilled (b : Bank) (ns : List Net) (a t : Arbiter) : Prop where
  holders : ∀ n : Net, t.holders[n] = a.holders[n] ++ granted b ns a n
  waits : ∀ n : Net, t.waits[n] = a.waits[n].drop (granted b ns a n).length
  talk : ∀ x : Hold, t.talk[x.st][x.key] = if ∃ n : Net, x ∈ granted b ns a n then .live else a.talk[x.st][x.key]
  rest : t = { a with holders := t.holders, waits := t.waits, talk := t.talk }

theorem drop_take_length {α : Type} (l : List α) (k : Nat) : l.drop (l.take k).length = l.drop k := by
  rw [List.length_take]
  by_cases h : k ≤ l.length
  · rw [Nat.min_eq_left h]
  · rw [Nat.min_eq_right (by omega), List.drop_length, List.drop_of_length_le (by omega)]

theorem refill_lists (n : Net) (a : Arbiter) :
    (∀ m : Net, (a.refill b n).holders[m] = if m = n then a.holders[n] ++ a.waits[n].take (freeSlots b a n) else a.holders[m])
      ∧ (∀ m : Net, (a.refill b n).waits[m] = if m = n then a.waits[n].drop (freeSlots b a n) else a.waits[m]) := by
  rw [refill_eq]
  obtain ⟨e1, e2⟩ := (a.relist n (a.holders[n] ++ a.waits[n].take (freeSlots b a n)) (a.waits[n].drop (freeSlots b a n))).setTalkAll_lists
    (a.waits[n].take (freeSlots b a n)) .live
  rw [e1, e2]
  refine ⟨fun m => ?_, fun m => ?_⟩ <;> by_cases hm : m = n
  · rw [if_pos hm, hm, (a.relist_self n _ _).1]
  · rw [if_neg hm, (a.relist_other hm _ _).1]
  · rw [if_pos hm, hm, (a.relist_self n _ _).2]
  · rw [if_neg hm, (a.relist_other hm _ _).2]

theorem refill_talk (n : Net) (a : Arbiter) (x : Hold) :
    (a.refill b n).talk[x.st][x.key] = if x ∈ a.waits[n].take (freeSlots b a n) then .live else a.talk[x.st][x.key] := by
  rw [refill_eq, setTalkAll_get, relist_talk]

theorem refill_rest (n : Net) (a : Arbiter) : a.refill b n =
    { a with holders := (a.refill b n).holders, waits := (a.refill b n).waits, talk := (a.refill b n).talk } := by
  rw [refill_eq, setTalkAll_rest]
  rfl

theorem refillAll_refilled {ns : List Net} (hn : ns.Nodup) (a : Arbiter) : Refilled b ns a (a.refillAll b ns) := by
  induction ns generalizing a with
  | nil =>
    have hnone : ∀ n : Net, granted b [] a n = [] := fun n => if_neg List.not_mem_nil
    refine ⟨fun n => ?_, fun n => ?_, fun x => ?_, rfl⟩
    · rw [hnone, List.append_nil]
      rfl
    · rw [hnone]
      rfl
    · rw [if_neg fun ⟨n, h⟩ => List.not_mem_nil (hnone n ▸ h)]
      rfl
  | cons m ns ih =>
    obtain ⟨hm, hns⟩ := List.nodup_cons.mp hn
    obtain ⟨hh, hw⟩ := refill_lists (b := b) m a
    have ht := refill_talk (b := b) m a
    have hr := refill_rest (b := b) m a
    have h := ih hns (a.refill b m)
    have hgranted : ∀ n : Net, granted b (m :: ns) a n
        = if n = m then a.waits[m].take (freeSlots b a m) else granted b ns (a.refill b m) n := by
      intro n
      unfold granted
      by_cases hnm : n = m
      · rw [if_pos hnm, hnm, if_pos List.mem_cons_self]
      · rw [if_neg hnm]
        unfold freeSlots
        rw [hh, hw, if_neg hnm, if_neg hnm]
        by_cases hin : n ∈ ns
        · rw [if_pos hin, if_pos (List.mem_cons_of_mem m hin)]
        · rw [if_neg hin, if_neg fun e => (List.mem_cons.mp e).elim hnm hin]
    have hnone : granted b ns (a.refill b m) m = [] := if_neg hm
    change Refilled b (m :: ns) a ((a.refill b m).refillAll b ns)
    generalize (a.refill b m).refillAll b ns = t at h
    refine ⟨fun n => ?_, fun n => ?_, fun x => ?_, ?_⟩
    · rw [h.holders, hgranted, hh]
      by_cases hnm : n = m
      · rw [if_pos hnm, if_pos hnm, hnm, hnone, List.append_nil]
      · rw [if_neg hnm, if_neg hnm]
    · rw [h.waits, hgranted, hw]
      by_cases hnm : n = m
      · rw [if_pos hnm, if_pos hnm, hnm, hnone, List.length_nil, List.drop_zero, drop_take_length]
      · rw [if_neg hnm, if_neg hnm]
    · rw [h.talk, ht]
      by_cases hx : ∃ n : Net, x ∈ granted b ns (a.refill b m) n
      · obtain ⟨n, hxn⟩ := hx
        have hnm : n ≠ m := fun e => by
          rw [e, hnone] at hxn
          exact List.not_mem_nil hxn
        rw [if_pos ⟨n, hxn⟩, if_pos ⟨n, by rw [hgranted, if_neg hnm]; exact hxn⟩]
      · rw [if_neg hx]
        by_cases hxm : x ∈ a.waits[m].take (freeSlots b a m)
        · rw [if_pos hxm, if_pos ⟨m, by rw [hgranted, if_pos rfl]; exact hxm⟩]
        · refine (if_neg hxm).trans (if_neg fun ⟨n, hxn⟩ => ?_).symm
          rw [hgranted] at hxn
          split at hxn
          · exact hxm hxn
          · exact hx ⟨n, hxn⟩
    · exact h.rest.trans (congrArg (fun v : Arbiter => { v with holders := t.holders, waits := t.waits, talk := t.talk }) hr)

/-! A withdrawal (R11). -/

theorem purge_get (st : Station) (a : Arbiter) (n : Net) :
    (a.purge st).holders[n] = a.holders[n].filter (fun h => h.st ≠ st) ∧ (a.purge st).waits[n] = a.waits[n].filter fun h => h.st ≠ st := by
  simp only [purge, Fin.getElem_fin, Vector.getElem_map]
  exact ⟨trivial, trivial⟩

/-- The lists of a withdrawal: the station's entries out, the nets that lost a holder refilled. -/
def withdrawnLists (b : Bank) (st : Station) (a : Arbiter) : Arbiter := (a.purge st).refillAll b (a.netsHeld fun h => h.st == st)

/-- What a withdrawal does besides the lists: to the channel, the standings and the calls. -/
def stoodDown (b : Bank) (st : Station) (cause : WithdrawCause) (r : Arbiter) : Arbiter := { r with
  announce := if r.announce = some st then none else r.announce,
  talk := (r.withdrawStandings st cause).talk,
  ann := (r.withdrawStandings st cause).ann,
  calls := if cause = .mute then r.calls else (r.endCalls b st fun _ => true).calls }

theorem freeAnnounce_eq (st : Station) (r : Arbiter) :
    r.freeAnnounce st = { r with announce := if r.announce = some st then none else r.announce } := by
  unfold freeAnnounce
  split <;> rfl

theorem withdraw_eq (st : Station) (cause : WithdrawCause) (a : Arbiter) :
    a.withdraw b st cause = stoodDown b st cause (withdrawnLists b st a) := by
  unfold withdraw
  dsimp only
  rw [freeAnnounce_eq]
  cases cause <;> rfl

theorem endCalls_get (st : Station) (a : Arbiter) (n : Net) :
    (a.endCalls b st fun _ => true).calls[n] = match a.calls[n] with
      | .calling u k => if u = st then holdOrIdle b n (some st) else .calling u k
      | c => c := by
  refine (ofFn_get _ n).trans ?_
  cases h : a.calls[n] with
  | calling u k =>
    dsimp only
    rw [Bool.and_true]
    exact if_congr decide_eq_true_iff rfl rfl
  | idle => rfl
  | holding c r => rfl

/-- The free slots of a net that a withdrawal of `st` refills. -/
def freeAfter (b : Bank) (st : Station) (a : Arbiter) (n : Net) : Nat :=
  if ∃ h ∈ a.holders[n], h.st = st then b.nets[n].slots - (a.holders[n].filter fun h => h.st ≠ st).length else 0

theorem granted_withdrawn (st : Station) (a : Arbiter) (n : Net) :
    granted b (a.netsHeld fun h => h.st == st) (a.purge st) n
      = (a.waits[n].filter fun h => h.st ≠ st).take (freeAfter b st a n) := by
  have hmem : n ∈ a.netsHeld (fun h => h.st == st) ↔ ∃ h ∈ a.holders[n], h.st = st := by
    rw [mem_netsHeld, List.any_eq_true]
    exact exists_congr fun h => and_congr_right fun _ => beq_iff_eq
  unfold granted freeAfter freeSlots
  rw [(purge_get st a n).1, (purge_get st a n).2]
  by_cases h : ∃ h ∈ a.holders[n], h.st = st
  · rw [if_pos (hmem.mpr h), if_pos h]
  · rw [if_neg (mt hmem.mp h), if_neg h, List.take_zero]

/-- What a withdrawal makes of the lists. -/
theorem withdrawnLists_spec (st : Station) (a : Arbiter) :
    (∀ n : Net, (withdrawnLists b st a).holders[n]
        = a.holders[n].filter (fun h => h.st ≠ st) ++ (a.waits[n].filter fun h => h.st ≠ st).take (freeAfter b st a n)
      ∧ (withdrawnLists b st a).waits[n] = (a.waits[n].filter fun h => h.st ≠ st).drop (freeAfter b st a n))
    ∧ (∀ x : Hold, (withdrawnLists b st a).talk[x.st][x.key]
        = if ∃ n : Net, x ∈ (a.waits[n].filter fun h => h.st ≠ st).take (freeAfter b st a n) then .live else a.talk[x.st][x.key])
    ∧ (withdrawnLists b st a).announce = a.announce ∧ (withdrawnLists b st a).ann = a.ann
    ∧ (withdrawnLists b st a).calls = a.calls := by
  have hnodup : (a.netsHeld fun h => h.st == st).Nodup := (List.nodup_finRange 16).filter _
  have h := refillAll_refilled (b := b) hnodup (a.purge st)
  change Refilled b _ (a.purge st) (withdrawnLists b st a) at h
  have hrest := h.rest
  refine ⟨fun n => ⟨?_, ?_⟩, fun x => ?_, by rw [hrest]; rfl, by rw [hrest]; rfl, by rw [hrest]; rfl⟩
  · rw [h.holders, granted_withdrawn, (purge_get st a n).1]
  · rw [h.waits, granted_withdrawn, (purge_get st a n).2, drop_take_length]
  · rw [h.talk]
    simp only [granted_withdrawn]
    rfl

end Arbiter

/-- R11: the first part of O35. -/
theorem withdraw_spec (b : Bank) (st : Station) (cause : WithdrawCause) (a : Arbiter) : let t := a.withdraw b st cause
    let kept (n : Net) : List Hold := a.holders[n].filter fun h => h.st ≠ st
    let queue (n : Net) : List Hold := a.waits[n].filter fun h => h.st ≠ st
    let free (n : Net) : Nat := if ∃ h ∈ a.holders[n], h.st = st then b.nets[n].slots - (kept n).length else 0
    (∀ n : Net, (∀ h ∈ t.holders[n], h.st ≠ st) ∧ ∀ h ∈ t.waits[n], h.st ≠ st)
    ∧ (∀ n : Net, t.holders[n] = kept n ++ (queue n).take (free n) ∧ t.waits[n] = (queue n).drop (free n))
    ∧ (∀ (u : Station) (k : Key), u ≠ st →
      ((∃ n : Net, ⟨u, k⟩ ∈ (queue n).take (free n)) → t.talk[u][k] = .live)
      ∧ ((∀ n : Net, ⟨u, k⟩ ∉ (queue n).take (free n)) → t.talk[u][k] = a.talk[u][k]))
    ∧ t.announce = (if a.announce = some st then none else a.announce)
    ∧ (∀ k : Key, t.talk[st][k] =
        if a.talk[st][k] = .off then .off else if cause = .mute then .muted else .dropped)
    ∧ t.ann[st] = (if a.ann[st] = .none then .none else if cause = .mute then .refused else .dropped)
    ∧ (∀ u : Station, u ≠ st → t.ann[u] = a.ann[u])
    ∧ ∀ n : Net, t.calls[n] = match a.calls[n] with
      | .calling u k =>
        if u = st ∧ cause ≠ .mute then
          if b.nets[n].callHold = 0 then .idle else .holding (some st) b.nets[n].callHold
        else .calling u k
      | c => c := by
  obtain ⟨hlists, htalk, hannounce, hann, hcalls⟩ := Arbiter.withdrawnLists_spec (b := b) st a
  intro t kept queue free
  have ht : t = Arbiter.stoodDown b st cause (Arbiter.withdrawnLists b st a) := Arbiter.withdraw_eq st cause a
  clear_value t
  subst ht
  have hlists' : ∀ n : Net, (Arbiter.stoodDown b st cause (Arbiter.withdrawnLists b st a)).holders[n] = kept n ++ (queue n).take (free n)
      ∧ (Arbiter.stoodDown b st cause (Arbiter.withdrawnLists b st a)).waits[n] = (queue n).drop (free n) := hlists
  have htalk' : (Arbiter.stoodDown b st cause (Arbiter.withdrawnLists b st a)).talk
      = ((Arbiter.withdrawnLists b st a).withdrawStandings st cause).talk := rfl
  have hann' : (Arbiter.stoodDown b st cause (Arbiter.withdrawnLists b st a)).ann
      = ((Arbiter.withdrawnLists b st a).withdrawStandings st cause).ann := rfl
  have hstanding : cause.standing = if cause = .mute then .muted else .dropped := by cases cause <;> rfl
  have hcauseAnn : cause.ann = if cause = .mute then .refused else .dropped := by cases cause <;> rfl
  refine ⟨fun n => ?out, hlists', fun u k hu => ?others, ?announce, fun k => ?own, ?ann, fun u hu => ?annOthers, fun n => ?calls⟩
  case out =>
    have hkept : ∀ l : List Hold, ∀ h ∈ l.filter (fun h => h.st ≠ st), h.st ≠ st := fun l h hm => of_decide_eq_true (List.mem_filter.mp hm).2
    rw [(hlists' n).1, (hlists' n).2]
    exact ⟨fun h hm => (List.mem_append.mp hm).elim (hkept _ h) fun hm => hkept _ h (List.mem_of_mem_take hm),
      fun h hm => hkept _ h (List.mem_of_mem_drop hm)⟩
  case others =>
    rw [htalk', Arbiter.withdrawStandings_get, if_neg (Ne.symm hu), htalk ⟨u, k⟩]
    exact ⟨fun h => if_pos h, fun h => if_neg fun ⟨n, hn⟩ => h n hn⟩
  case announce =>
    rw [← hannounce]
    rfl
  case own =>
    have hold : (Arbiter.withdrawnLists b st a).talk[st][k] = a.talk[st][k] := (htalk ⟨st, k⟩).trans (if_neg fun ⟨n, hn⟩ =>
      absurd rfl (of_decide_eq_true (List.mem_filter.mp (List.mem_of_mem_take hn)).2 : st ≠ st))
    rw [htalk', Arbiter.withdrawStandings_get, if_pos rfl, hold, hstanding]
  case ann =>
    rw [hann', Arbiter.withdrawStandings]
    dsimp only
    rw [upd_same, hann, hcauseAnn]
  case annOthers =>
    rw [hann', Arbiter.withdrawStandings]
    dsimp only
    rw [upd_get, if_neg (Ne.symm hu), hann]
  case calls =>
    have hcalls' : (Arbiter.stoodDown b st cause (Arbiter.withdrawnLists b st a)).calls
        = if cause = .mute then (Arbiter.withdrawnLists b st a).calls
          else ((Arbiter.withdrawnLists b st a).endCalls b st fun _ => true).calls := rfl
    rw [hcalls']
    by_cases hc : cause = .mute
    · rw [if_pos hc, hcalls]
      cases a.calls[n] with
      | calling u k => exact (if_neg fun e => e.2 hc).symm
      | idle => rfl
      | holding c r => rfl
    · rw [if_neg hc, Arbiter.endCalls_get, hcalls]
      cases a.calls[n] with
      | calling u k => exact if_congr ⟨fun h => ⟨h, hc⟩, And.left⟩ rfl rfl
      | idle => rfl
      | holding c r => rfl

end Sys2Proof.Machine
end

section
/-! The stages of a Take in the talk arbiter, and the statement on withdrawals (R18 to R21). -/

namespace Sys2Proof.Machine

namespace Arbiter

variable {b old new : Bank} {a : Arbiter}

/-! The stages, each as one update. -/

theorem takeWithdraws_iff {o r : StationRecord} : takeWithdraws o r = true ↔
    (o.enabled = true ∧ r.enabled = false) ∨ (o.kind.talks = true ∧ r.kind.talks = false) ∨ o.primary ≠ r.primary ∨ o.spare ≠ r.spare := by
  simp only [takeWithdraws, Bool.or_eq_true, Bool.and_eq_true, Bool.not_eq_true', decide_eq_true_eq, or_assoc]

/-- R19: one station. -/
theorem takeStation_eq (old new : Bank) (x : Arbiter) (st : Station) : x.takeStation old new st =
    if (old.stations[st].enabled = true ∧ new.stations[st].enabled = false)
        ∨ (old.stations[st].kind.talks = true ∧ new.stations[st].kind.talks = false)
        ∨ old.stations[st].primary ≠ new.stations[st].primary ∨ old.stations[st].spare ≠ new.stations[st].spare then x.withdraw new st .take
    else if old.stations[st].annAllowed = true ∧ new.stations[st].annAllowed = false then
      { x with announce := if x.announce = some st then none else x.announce,
               ann := if x.announce = some st ∨ x.ann[st] = .refused then x.ann.set st .dropped else x.ann }
    else x := by
  unfold takeStation
  refine if_congr takeWithdraws_iff rfl (if_congr (by rw [Bool.and_eq_true, Bool.not_eq_true']) ?_ rfl)
  dsimp only
  rw [freeAnnounce_eq]
  by_cases h : x.announce = some st ∨ x.ann[st] = .refused
  · rw [if_pos h, if_pos (by simpa [-Fin.getElem_fin] using h)]
    rfl
  · rw [if_neg h, if_neg (by simpa [-Fin.getElem_fin] using h)]

theorem setTalkAll_twice (x : Arbiter) (l m : List Hold) (v w : Standing) :
    (x.setTalkAll l v).setTalkAll m w = { x with talk := ((x.setTalkAll l v).setTalkAll m w).talk } :=
  (setTalkAll_rest _ m w).trans (congrArg (fun y : Arbiter => { y with talk := ((x.setTalkAll l v).setTalkAll m w).talk })
    (setTalkAll_rest x l v))

/-- R20: one net. -/
theorem takeNet_eq (new : Bank) (x : Arbiter) (n : Net) : x.takeNet new n =
    if new.nets[n].enabled then x
    else { (x.setTalkAll x.holders[n] .dropped).setTalkAll x.waits[n] .dropped with
      holders := x.holders.set n [], waits := x.waits.set n [], calls := x.calls.set n .idle } := by
  unfold takeNet
  refine if_congr Iff.rfl rfl ?_
  rw [setTalkAll_twice]
  rfl

/-- R20: the mappings of one net. -/
theorem takeMapping_eq (new : Bank) (x : Arbiter) (n : Net) : x.takeMapping new n =
    { x.setTalkAll ((x.holders[n] ++ x.waits[n]).filter fun h => !new.mapped n h) .dropped with
      holders := x.holders.set n (x.holders[n].filter (new.mapped n)),
      waits := x.waits.set n (x.waits[n].filter (new.mapped n)),
      calls := match x.calls[n] with
        | .calling st k => if (new.cell st n).key = some k then x.calls else x.calls.set n (holdOrIdle new n (some st))
        | _ => x.calls } := by
  unfold takeMapping
  dsimp only
  rw [setTalkAll_rest]
  cases x.calls[n] with
  | calling st k =>
    dsimp only
    by_cases h : (new.cell st n).key = some k
    · have hm : new.mapped n ⟨st, k⟩ = true := decide_eq_true h
      rw [if_pos h, if_pos hm]
      rfl
    · have hm : ¬ new.mapped n ⟨st, k⟩ = true := mt of_decide_eq_true h
      rw [if_neg h, if_neg hm]
      rfl
  | idle => rfl
  | holding c r => rfl

/-- R21: the queue of one net. -/
theorem takeClasses_eq (old new : Bank) (x : Arbiter) (n : Net) : x.takeClasses old new n =
    if ∃ h ∈ x.waits[n], old.clsOf h ≠ new.clsOf h then { x with waits := x.waits.set n (sortByClass new x.waits[n]) } else x := by
  unfold takeClasses
  refine if_congr ?_ rfl rfl
  rw [List.any_eq_true]
  exact exists_congr fun h => and_congr_right fun _ => decide_eq_true_iff

/-- R21: the slots of one net. -/
theorem takeSlots_eq (new : Bank) (x : Arbiter) (n : Net) : x.takeSlots new n =
    if x.holders[n].drop new.nets[n].slots = [] then x
    else { (x.setTalkAll (x.holders[n].drop new.nets[n].slots) .wait).setTalkAll
        (((x.holders[n].drop new.nets[n].slots).foldr (insertFront new) x.waits[n]).drop 8) .refused with
      holders := x.holders.set n (x.holders[n].take new.nets[n].slots),
      waits := x.waits.set n (((x.holders[n].drop new.nets[n].slots).foldr (insertFront new) x.waits[n]).take 8) } := by
  unfold takeSlots
  dsimp only
  refine if_congr List.isEmpty_iff rfl ?_
  generalize x.holders[n].drop new.nets[n].slots = out
  generalize out.foldr (insertFront new) x.waits[n] = queue
  change (((x.relist n (x.holders[n].take new.nets[n].slots) queue).setTalkAll out .wait).trimWaits n) = _
  have hwaits : ((x.relist n (x.holders[n].take new.nets[n].slots) queue).setTalkAll out .wait).waits[n] = queue := by
    rw [(setTalkAll_lists _ _ _).2, (x.relist_self n _ _).2]
  rw [trimWaits, hwaits, ← setTalkAll_relist, ← setTalkAll_relist, setTalkAll_twice]
  unfold relist setWaits setHolders
  dsimp only
  rw [Vector.set_set]

theorem applyTake_eq (old new : Bank) (a : Arbiter) : a.applyTake old new =
    (allNets.foldl (takeSlots new) (allNets.foldl (takeClasses old new) (allNets.foldl (takeMapping new)
      (allNets.foldl (takeNet new) (allStations.foldl (takeStation old new) a))))).refillAll new allNets := rfl

/-! A Take that changes nothing the stages look at. -/

theorem foldl_same {α β : Type} {f : α → β → α} {a : α} (h : ∀ x, f a x = a) (l : List β) : l.foldl f a = a := by
  induction l with
  | nil => rfl
  | cons x l ih => rw [List.foldl_cons, h, ih]

theorem takeStation_same (x : Station) : a.takeStation b b x = a := by
  rw [takeStation_eq, if_neg, if_neg]
  · rintro ⟨h1, h2⟩
    rw [h1] at h2
    cases h2
  · rintro (⟨h1, h2⟩ | ⟨h1, h2⟩ | h | h)
    · rw [h1] at h2
      cases h2
    · rw [h1] at h2
      cases h2
    · exact h rfl
    · exact h rfl

theorem set_same {α : Type} {n : Nat} {v : Vector α n} {i : Fin n} {x : α} (h : v[i] = x) : v.set i x = v := by
  rw [← h]
  exact Vector.set_getElem_self i.isLt

theorem takeNet_same {n : Net} (h : b.nets[n].enabled = false → a.holders[n] = [] ∧ a.waits[n] = [] ∧ a.calls[n] = .idle) :
    a.takeNet b n = a := by
  rw [takeNet_eq]
  by_cases hen : b.nets[n].enabled = true
  · rw [if_pos hen]
  · obtain ⟨h1, h2, h3⟩ := h (Bool.eq_false_iff.mpr hen)
    rw [if_neg hen, h1, h2, set_same h1, set_same h2, set_same h3]
    rfl

theorem takeMapping_same {n : Net} (h : ∀ x ∈ a.entries n, (b.cell x.st n).key = some x.key)
    (hc : ∀ st k, a.calls[n] = .calling st k → (b.cell st n).key = some k) : a.takeMapping b n = a := by
  have hmapped : ∀ x ∈ a.entries n, b.mapped n x = true := fun x hx => decide_eq_true (h x hx)
  have hgone : (a.holders[n] ++ a.waits[n]).filter (fun h => !b.mapped n h) = [] := by
    refine List.filter_eq_nil_iff.mpr fun x hx => ?_
    rw [hmapped x hx]
    decide
  have hh : a.holders[n].filter (b.mapped n) = a.holders[n] :=
    List.filter_eq_self.mpr fun x hx => hmapped x (mem_entries.mpr (.inl hx))
  have hw : a.waits[n].filter (b.mapped n) = a.waits[n] :=
    List.filter_eq_self.mpr fun x hx => hmapped x (mem_entries.mpr (.inr hx))
  rw [takeMapping_eq, hgone, hh, hw, set_same rfl, set_same rfl]
  cases hcall : a.calls[n] with
  | calling st k =>
    dsimp only
    rw [if_pos (hc st k hcall)]
    rfl
  | idle => rfl
  | holding c r => rfl

theorem takeClasses_same (n : Net) : a.takeClasses b b n = a := by
  rw [takeClasses_eq]
  exact if_neg fun ⟨h, _, hne⟩ => hne rfl

theorem refill_same {n : Net} (h : a.waits[n] ≠ [] → a.holders[n].length = b.nets[n].slots) : a.refill b n = a := by
  have hsame := a.relist_same n
  by_cases hw : a.waits[n] = []
  · rw [hw] at hsame
    rw [refill_eq, hw, List.take_nil, List.drop_nil, List.append_nil, hsame]
    rfl
  · have hfree : freeSlots b a n = 0 := by
      rw [freeSlots, h hw]
      exact Nat.sub_self _
    rw [refill_eq, hfree, List.take_zero, List.drop_zero, List.append_nil, hsame]
    rfl

end Arbiter

/-! A queue sorted by class (R21). -/

theorem insertFront_filter (b : Bank) (h : Hold) (q : List Hold) (c : Nat) :
    (insertFront b h q).filter (fun x => b.clsOf x = c) = (h :: q).filter fun x => b.clsOf x = c := by
  have hsplit := List.takeWhile_append_dropWhile (p := fun x => decide (b.clsOf h < b.clsOf x)) (l := q)
  have hq : q.filter (fun x => decide (b.clsOf x = c)) =
      (q.takeWhile fun x => b.clsOf h < b.clsOf x).filter (fun x => decide (b.clsOf x = c))
        ++ (q.dropWhile fun x => b.clsOf h < b.clsOf x).filter fun x => decide (b.clsOf x = c) := by
    rw [← List.filter_append, hsplit]
  rw [insertFront, List.filter_append]
  by_cases hc : b.clsOf h = c
  · have hnone : (q.takeWhile fun x => b.clsOf h < b.clsOf x).filter (fun x => decide (b.clsOf x = c)) = [] := by
      refine List.filter_eq_nil_iff.mpr fun x hx => ?_
      have hlt : b.clsOf h < b.clsOf x := of_decide_eq_true (List.mem_takeWhile_imp (p := fun x => decide (b.clsOf h < b.clsOf x)) hx)
      rw [decide_eq_true_eq]
      omega
    rw [List.filter_cons_of_pos (p := fun x => decide (b.clsOf x = c)) (decide_eq_true hc), List.filter_cons_of_pos (p := fun x => decide (b.clsOf x = c)) (decide_eq_true hc), hq, hnone, List.nil_append,
      List.nil_append]
  · rw [List.filter_cons_of_neg (p := fun x => decide (b.clsOf x = c)) (by rw [decide_eq_true_eq]; exact hc), List.filter_cons_of_neg (p := fun x => decide (b.clsOf x = c)) (by rw [decide_eq_true_eq]; exact hc), hq]

theorem sortByClass_filter (b : Bank) (l : List Hold) (c : Nat) :
    (sortByClass b l).filter (fun h => b.clsOf h = c) = l.filter fun h => b.clsOf h = c := by
  induction l with
  | nil => rfl
  | cons h l ih =>
    rw [sortByClass, insertFront_filter, List.filter_cons, List.filter_cons, ih]

theorem insertFront_sorted {b : Bank} {h : Hold} {q : List Hold} (hq : q.Pairwise fun x y => b.clsOf y ≤ b.clsOf x) :
    (insertFront b h q).Pairwise fun x y => b.clsOf y ≤ b.clsOf x := by
  induction q with
  | nil => exact List.pairwise_singleton _ h
  | cons x q ih =>
    obtain ⟨hx, hq'⟩ := List.pairwise_cons.mp hq
    by_cases hlt : b.clsOf h < b.clsOf x
    · have heq : insertFront b h (x :: q) = x :: insertFront b h q := by
        rw [insertFront, List.takeWhile_cons_of_pos (p := fun x => decide (b.clsOf h < b.clsOf x)) (decide_eq_true hlt), List.dropWhile_cons_of_pos (p := fun x => decide (b.clsOf h < b.clsOf x)) (decide_eq_true hlt)]
        rfl
      rw [heq]
      refine List.pairwise_cons.mpr ⟨fun y hy => ?_, ih hq'⟩
      rcases List.mem_cons.mp ((insertFront_perm b h q).mem_iff.mp hy) with rfl | hy
      · exact Nat.le_of_lt hlt
      · exact hx y hy
    · have heq : insertFront b h (x :: q) = h :: x :: q := by
        rw [insertFront, List.takeWhile_cons_of_neg (p := fun x => decide (b.clsOf h < b.clsOf x)) (by rw [decide_eq_true_eq]; exact hlt),
          List.dropWhile_cons_of_neg (p := fun x => decide (b.clsOf h < b.clsOf x)) (by rw [decide_eq_true_eq]; exact hlt)]
        rfl
      rw [heq]
      refine List.pairwise_cons.mpr ⟨fun y hy => ?_, hq⟩
      rcases List.mem_cons.mp hy with rfl | hy
      · exact Nat.le_of_not_lt hlt
      · exact (hx y hy).trans (Nat.le_of_not_lt hlt)

theorem sortByClass_sorted (b : Bank) (l : List Hold) : (sortByClass b l).Pairwise fun x y => b.clsOf y ≤ b.clsOf x := by
  induction l with
  | nil => exact List.Pairwise.nil
  | cons h l ih => exact insertFront_sorted ih

/-- Settles O35: a withdrawal by its closed form; the stages of a Take one by one, and each of them without effect where
nothing that it looks at changes. -/
theorem withdrawalTakesTheStationOut : Obligations.WithdrawalTakesTheStationOut := by
  refine ⟨withdraw_spec, fun old new a => ?stages, fun b l => ⟨sortByClass_sorted b l, sortByClass_filter b l⟩, fun b h q => rfl,
    fun b a h => ?same⟩
  case stages =>
    have hstation : Arbiter.takeStation old new = _ := funext fun x => funext fun st => Arbiter.takeStation_eq old new x st
    have hnet : Arbiter.takeNet new = _ := funext fun x => funext fun n => Arbiter.takeNet_eq new x n
    have hmapping : Arbiter.takeMapping new = _ := funext fun x => funext fun n => Arbiter.takeMapping_eq new x n
    have hclasses : Arbiter.takeClasses old new = _ := funext fun x => funext fun n => Arbiter.takeClasses_eq old new x n
    have hslots : Arbiter.takeSlots new = _ := funext fun x => funext fun n => Arbiter.takeSlots_eq new x n
    rw [Arbiter.applyTake_eq, hstation, hnet, hmapping, hclasses, hslots]
    rfl
  case same =>
    rw [Arbiter.applyTake_eq, Arbiter.foldl_same fun st => Arbiter.takeStation_same st,
      Arbiter.foldl_same fun n => Arbiter.takeNet_same (h n).2.2.1,
      Arbiter.foldl_same fun n => Arbiter.takeMapping_same (h n).2.2.2.1 (h n).2.2.2.2,
      Arbiter.foldl_same fun n => Arbiter.takeClasses_same n, Arbiter.foldl_same fun n => Arbiter.takeSlots_none (h n).1]
    exact Arbiter.foldl_same (fun n => Arbiter.refill_same (h n).2.1) _

end Sys2Proof.Machine
end

section
/-! Messages into the outbound queues, and the management ports (R76, R169 to R172). -/

namespace Sys2Proof.Machine

/-! A message arriving at a queue. -/

theorem dropOldestReport_split {before after : List Message} {r : Message} (hr : r.isReport = true)
    (hb : ∀ x ∈ before, x.isReport = false) : dropOldestReport (before ++ r :: after) = before ++ after := by
  induction before with
  | nil => exact if_pos hr
  | cons x before ih =>
    have hx : ¬ x.isReport = true := Bool.eq_false_iff.mp (hb x List.mem_cons_self)
    rw [List.cons_append, dropOldestReport, if_neg hx, ih fun y hy => hb y (List.mem_cons_of_mem x hy)]
    rfl

section

variable {o : Outbound} {m : Message}

theorem put_of_room (h : o.queue.length < 32) : o.putReport m = { o with queue := o.queue ++ [m] }
    ∧ o.putResponse m = some { o with queue := o.queue ++ [m] } ∧ o.putAnswer m = { o with queue := o.queue ++ [m] } := by
  have hresponse : o.putResponse m = some { o with queue := o.queue ++ [m] } := if_pos h
  exact ⟨if_pos h, hresponse, by rw [Outbound.putAnswer, hresponse]; rfl⟩

theorem put_over_report {before after : List Message} {r : Message} (h : 32 ≤ o.queue.length) (hq : o.queue = before ++ r :: after)
    (hr : r.isReport = true) (hb : ∀ x ∈ before, x.isReport = false) :
    o.putReport m = { queue := before ++ after ++ [m], lost := true }
      ∧ o.putResponse m = some { queue := before ++ after ++ [m], lost := true }
      ∧ o.putAnswer m = { queue := before ++ after ++ [m], lost := true } := by
  have hfull : ¬ o.queue.length < Config.outboundLimit := Nat.not_lt.mpr h
  have hany : o.queue.any Message.isReport = true :=
    List.any_eq_true.mpr ⟨r, by rw [hq]; exact List.mem_append_right _ List.mem_cons_self, hr⟩
  have hdrop : dropOldestReport o.queue = before ++ after := by rw [hq, dropOldestReport_split hr hb]
  have hresponse : o.putResponse m = some { queue := before ++ after ++ [m], lost := true } := by
    rw [Outbound.putResponse, if_neg hfull, if_pos hany, hdrop]
  refine ⟨?_, hresponse, by rw [Outbound.putAnswer, hresponse]; rfl⟩
  rw [Outbound.putReport, if_neg hfull, if_pos hany, hdrop]

theorem put_over_responses (h : 32 ≤ o.queue.length) (hn : ∀ x ∈ o.queue, x.isReport = false) :
    o.putReport m = { o with lost := true } ∧ o.putResponse m = none ∧ o.putAnswer m = { o with lost := true } := by
  have hfull : ¬ o.queue.length < Config.outboundLimit := Nat.not_lt.mpr h
  have hany : ¬ o.queue.any Message.isReport = true := fun e => by
    obtain ⟨x, hx, hr⟩ := List.any_eq_true.mp e
    rw [hn x hx] at hr
    cases hr
  have hresponse : o.putResponse m = none := by rw [Outbound.putResponse, if_neg hfull, if_neg hany]
  refine ⟨?_, hresponse, by rw [Outbound.putAnswer, hresponse]; rfl⟩
  rw [Outbound.putReport, if_neg hfull, if_neg hany]

end

/-! The response to the request in service (R171). -/

theorem respond_placed {q : QueuedRequest} {r : Result} {body : List Byte} {s : State} {o : Outbound}
    (h : s.out[q.port].putResponse (responseTo q.req.kind q.tag r body) = some o) :
    respond q r body s = { s with
      out := s.out.set q.port o,
      mgmt := { s.mgmt with
        queue := s.mgmt.queue.tail, service := .idle,
        hold := judgeHold s.mgmt.settings.high s.mgmt.settings.low (s.mgmt.queue.length - 1) s.mgmt.hold } } := by
  rw [respond, placeResponse, h, ← List.length_tail]
  rfl

theorem respond_waits {q : QueuedRequest} {r : Result} {body : List Byte} {s : State}
    (h : s.out[q.port].putResponse (responseTo q.req.kind q.tag r body) = none) :
    respond q r body s = { s with mgmt := { s.mgmt with service := .waiting q.port (responseTo q.req.kind q.tag r body) false } } := by
  rw [respond, placeResponse, h]
  rfl

/-! The ports that take a report (R120, R169). -/

theorem broadcast_eq (m : Message) (s : State) : broadcast m s = { s with
    out := Vector.ofFn fun p : Port =>
      if s.isMgmt p && s.ports[p].up && s.ports[p].loss < 20 then s.out[p].putReport m else s.out[p] } := by
  unfold broadcast
  refine congrArg (fun v => { s with out := v }) (vector_ext_fin fun p => ?_)
  rw [ofFn_get, ofFn_get, Bool.and_assoc]
  rfl

theorem isMgmt_manages {s : State} {p : Port} : s.isMgmt p = true ↔
    (∃ st, ((s.station st).enabled = true ∧ (s.station st).mgmt = true) ∧ s.homing[st].active = some p)
      ∨ (p = 0 ∧ ∀ st, ¬ ((s.station st).enabled = true ∧ (s.station st).mgmt = true)) := by
  have hnone : s.live.anyMgmt = false ↔ ∀ st, ¬ ((s.station st).enabled = true ∧ (s.station st).mgmt = true) := by
    rw [Bool.eq_false_iff, ne_eq, anyMgmt_iff, not_exists]
    rfl
  rw [isMgmt_iff, hnone]
  exact or_congr (exists_congr fun st => and_assoc.symm) Iff.rfl

/-- Settles O38: a queue by its room and its oldest report; the response, the reports and the management ports by them. -/
theorem messagesAreQueued : Obligations.MessagesAreQueued := by
  refine ⟨fun o m => ⟨put_of_room, fun before after r h hq => put_over_report h hq, put_over_responses⟩,
    fun q r body s => ⟨fun o => respond_placed, respond_waits⟩, broadcast_eq, fun s p => isMgmt_manages, fun m s => ?cue⟩
  case cue =>
    unfold cueReport placeReport
    cases s.auth.holder <;> rfl

end Sys2Proof.Machine
end

section
/-! The arrival of requests: the messages of an area, what each spells, and what becomes of it (R169, R183). -/

namespace Sys2Proof.Machine

/-! One message judged. -/

/-- The answer that a port unit gives to a message. -/
def answerTo (kind tag : Byte) (r : Result) : Message :=
  { kind := if 1 ≤ kind.toNat ∧ kind.toNat ≤ 0x18 then byteOf (kind.toNat + 0x80) else 0x80,
    tag := tag, code := byteOf r.code, body := [] }

theorem answer_eq (p : Port) (kind tag : Byte) (r : Result) (s : State) :
    answer p kind tag r s = { s with out := upd s.out p fun o => o.putAnswer (answerTo kind tag r) } := by
  have hmsg : (if namesRequest kind then responseTo kind.toNat tag r []
      else { kind := 0x80, tag := tag, code := byteOf r.code, body := [] }) = answerTo kind tag r := by
    unfold namesRequest answerTo
    by_cases h : 1 ≤ kind.toNat ∧ kind.toNat ≤ 0x18
    · rw [if_pos h, if_pos (decide_eq_true h)]
      rfl
    · rw [if_neg h, if_neg (mt of_decide_eq_true h)]
  rw [answer, hmsg]
  rfl

theorem arrive_badForm {p : Port} {kind tag : Byte} {body : List Byte} {s : State} (h : decodeRequest kind body = none) :
    arrive p s (kind, tag, body) = answer p kind tag .badForm s := by
  unfold arrive
  dsimp only
  rw [h]

section

variable {p : Port} {kind tag : Byte} {body : List Byte} {s : State} {r : Request} (h : decodeRequest kind body = some r)
include h

theorem arrive_noPermission (hm : s.isMgmt p = false) : arrive p s (kind, tag, body) = answer p kind tag .noPermission s := by
  unfold arrive
  dsimp only
  rw [h]
  exact if_pos (by rw [hm]; rfl)

theorem arrive_full (hm : s.isMgmt p = true) (hq : 16 ≤ s.mgmt.queue.length) :
    arrive p s (kind, tag, body) = answer p kind tag .full s := by
  unfold arrive
  dsimp only
  rw [h]
  exact (if_neg (by rw [hm]; decide)).trans (if_pos hq)

theorem arrive_queued (hm : s.isMgmt p = true) (hq : s.mgmt.queue.length < 16) :
    arrive p s (kind, tag, body) = { s with mgmt := { s.mgmt with
      queue := s.mgmt.queue ++ [⟨p, tag, r⟩],
      hold := judgeHold s.mgmt.settings.high s.mgmt.settings.low (s.mgmt.queue.length + 1) s.mgmt.hold } } := by
  have hlen : (s.mgmt.queue ++ [(⟨p, tag, r⟩ : QueuedRequest)]).length = s.mgmt.queue.length + 1 := List.length_append
  unfold arrive
  dsimp only
  rw [h, ← hlen]
  exact (if_neg (by rw [hm]; decide)).trans (if_neg (Nat.not_le.mpr hq))

end

/-! The messages of an area. -/

theorem parseArea_short {l : List Byte} (h : l.length < 4) (k : Nat) : parseArea k l = [] := by
  match k, l with
  | 0, _ => simp only [parseArea]
  | k + 1, [] => simp only [parseArea]
  | k + 1, [_] => simp only [parseArea]
  | k + 1, [_, _] => simp only [parseArea]
  | k + 1, [_, _, _] => simp only [parseArea]
  | k + 1, _ :: _ :: _ :: _ :: _ =>
    simp only [List.length_cons] at h
    omega

/-- Whether the message at the head of an area of some length is whole. -/
def HeadFits (n : Byte) (len : Nat) : Prop := 4 ≤ n.toNat ∧ n.toNat ≤ 60 ∧ n.toNat ≤ len

theorem parseArea_stops {k : Nat} {kind tag n code : Byte} {rest : List Byte}
    (h : ¬ HeadFits n (kind :: tag :: n :: code :: rest).length) : parseArea k (kind :: tag :: n :: code :: rest) = [] := by
  cases k with
  | zero => simp only [parseArea]
  | succ k => exact (if_neg h)

theorem parseArea_goes {k : Nat} {kind tag n code : Byte} {rest : List Byte}
    (h : HeadFits n (kind :: tag :: n :: code :: rest).length) : parseArea (k + 1) (kind :: tag :: n :: code :: rest)
      = (kind, tag, rest.take (n.toNat - 4)) :: parseArea k (rest.drop (n.toNat - 4)) := if_pos h

/-- Fuel for the whole area is enough. -/
theorem parseArea_fuel {k : Nat} {l : List Byte} (hk : l.length ≤ k) : parseArea k l = parseArea l.length l := by
  induction k using Nat.strong_induction_on generalizing l with
  | _ k ih =>
    match l with
    | [] => rw [parseArea_short (by simp), parseArea_short (by simp)]
    | [_] => rw [parseArea_short (by simp), parseArea_short (by simp)]
    | [_, _] => rw [parseArea_short (by simp), parseArea_short (by simp)]
    | [_, _, _] => rw [parseArea_short (by simp), parseArea_short (by simp)]
    | kind :: tag :: n :: code :: rest =>
      by_cases h : HeadFits n (kind :: tag :: n :: code :: rest).length
      · obtain ⟨j, rfl⟩ := Nat.exists_eq_add_of_lt (Nat.lt_of_lt_of_le (Nat.succ_pos _) hk)
        have hdrop : (rest.drop (n.toNat - 4)).length ≤ rest.length := by
          rw [List.length_drop]
          omega
        simp only [List.length_cons] at hk
        rw [show 0 + j + 1 = j + 1 from by omega, parseArea_goes h, List.length_cons, parseArea_goes h,
          ih j (by omega) (by omega), ih (tag :: n :: code :: rest).length (by simp only [List.length_cons]; omega)
            (by simp only [List.length_cons]; omega)]
      · rw [parseArea_stops h, parseArea_stops h]

theorem arriveArea_short {p : Port} {area : List Byte} {s : State} (h : area.length < 4) : arriveArea p area s = s := by
  rw [arriveArea, parseArea_short h]
  rfl

section

variable {p : Port} {kind tag n code : Byte} {rest : List Byte} {s : State}

theorem arriveArea_stops (h : ¬ HeadFits n (kind :: tag :: n :: code :: rest).length) :
    arriveArea p (kind :: tag :: n :: code :: rest) s = s := by
  rw [arriveArea, parseArea_stops h]
  rfl

theorem arriveArea_goes (h : HeadFits n (kind :: tag :: n :: code :: rest).length) :
    arriveArea p (kind :: tag :: n :: code :: rest) s
      = arriveArea p (rest.drop (n.toNat - 4)) (arrive p s (kind, tag, rest.take (n.toNat - 4))) := by
  have hfuel : (rest.drop (n.toNat - 4)).length ≤ (tag :: n :: code :: rest).length := by
    simp only [List.length_cons, List.length_drop]
    omega
  rw [arriveArea, List.length_cons, parseArea_goes h, parseArea_fuel hfuel]
  rfl

end

/-! The request that a kind and a body spell (R183). -/

/-- The body length that a kind with one calls for. -/
def bodyLength (k : Nat) : Option Nat :=
  match k with
  | 0x03 | 0x05 | 0x06 | 0x09 | 0x0B | 0x0C | 0x10 | 0x16 | 0x18 => some 0
  | 0x0A | 0x0F | 0x13 | 0x14 => some 1
  | 0x08 | 0x0D | 0x0E | 0x12 | 0x17 => some 2
  | 0x04 | 0x11 | 0x15 => some 3
  | 0x01 => some 6
  | 0x07 => some 10
  | _ => none

theorem decodeRequest_unknown {kind : Byte} {body : List Byte} (h : kind.toNat = 0 ∨ 0x18 < kind.toNat) :
    decodeRequest kind body = none := by
  delta decodeRequest
  generalize kind.toNat = k at h ⊢
  rcases h with rfl | h
  · rfl
  · obtain ⟨j, rfl⟩ := Nat.exists_eq_add_of_lt h
    rw [show 24 + j + 1 = j + 25 from by omega]
    rfl

/-! The kinds by the length of their bodies, and what another length makes of them. -/

def emptyKinds : List Byte := [0x03, 0x05, 0x06, 0x09, 0x0B, 0x0C, 0x10, 0x16, 0x18]

def oneByteKinds : List Byte := [0x0A, 0x0F, 0x13, 0x14]

def twoByteKinds : List Byte := [0x08, 0x0D, 0x0E, 0x12, 0x17]

def threeByteKinds : List Byte := [0x04, 0x11, 0x15]

theorem decodeRequest_not_empty {k : Byte} (hk : k ∈ emptyKinds) {body : List Byte} (h : body.length ≠ 0) :
    decodeRequest k body = none := by
  match body with
  | [] => exact absurd rfl h
  | _ :: _ => fin_cases hk <;> rfl

theorem decodeRequest_not_one {k : Byte} (hk : k ∈ oneByteKinds) {body : List Byte} (h : body.length ≠ 1) :
    decodeRequest k body = none := by
  match body with
  | [_] => exact absurd rfl h
  | [] => fin_cases hk <;> rfl
  | _ :: _ :: _ => fin_cases hk <;> rfl

theorem decodeRequest_not_two {k : Byte} (hk : k ∈ twoByteKinds) {body : List Byte} (h : body.length ≠ 2) :
    decodeRequest k body = none := by
  match body with
  | [_, _] => exact absurd rfl h
  | [] => fin_cases hk <;> rfl
  | [_] => fin_cases hk <;> rfl
  | _ :: _ :: _ :: _ => fin_cases hk <;> rfl

theorem decodeRequest_not_three {k : Byte} (hk : k ∈ threeByteKinds) {body : List Byte} (h : body.length ≠ 3) :
    decodeRequest k body = none := by
  match body with
  | [_, _, _] => exact absurd rfl h
  | [] => fin_cases hk <;> rfl
  | [_] => fin_cases hk <;> rfl
  | [_, _] => fin_cases hk <;> rfl
  | _ :: _ :: _ :: _ :: _ => fin_cases hk <;> rfl

theorem decodeRequest_not_six {body : List Byte} (h : body.length ≠ 6) : decodeRequest 0x01 body = none := by
  match body with
  | [_, _, _, _, _, _] => exact absurd rfl h
  | [] | [_] | [_, _] | [_, _, _] | [_, _, _, _] | [_, _, _, _, _] => rfl
  | _ :: _ :: _ :: _ :: _ :: _ :: _ :: _ => rfl

theorem decodeRequest_not_ten {body : List Byte} (h : body.length ≠ 10) : decodeRequest 0x07 body = none := by
  match body with
  | [_, _, _, _, _, _, _, _, _, _] => exact absurd rfl h
  | [] | [_] | [_, _] | [_, _, _] | [_, _, _, _] | [_, _, _, _, _] | [_, _, _, _, _, _] | [_, _, _, _, _, _, _]
  | [_, _, _, _, _, _, _, _] | [_, _, _, _, _, _, _, _, _] => rfl
  | _ :: _ :: _ :: _ :: _ :: _ :: _ :: _ :: _ :: _ :: _ :: _ => rfl

theorem decodeRequest_no_count {body : List Byte} (h : body.length < 2) : decodeRequest 0x02 body = none := by
  match body with
  | [] | [_] => rfl
  | _ :: _ :: _ =>
    simp only [List.length_cons] at h
    omega

theorem kinds_of_bodyLength {k : Byte} {n : Nat} (h : bodyLength k.toNat = some n) :
    (n = 0 ∧ k ∈ emptyKinds) ∨ (n = 1 ∧ k ∈ oneByteKinds) ∨ (n = 2 ∧ k ∈ twoByteKinds) ∨ (n = 3 ∧ k ∈ threeByteKinds)
      ∨ (n = 6 ∧ k = 0x01) ∨ (n = 10 ∧ k = 0x07) := by
  have hk (c : Byte) (hc : k.toNat = c.toNat) : k = c := BitVec.eq_of_toNat_eq hc
  have hmem (c : Byte) (l : List Byte) (hc : k.toNat = c.toNat) (hl : c ∈ l) : k ∈ l := hk c hc ▸ hl
  unfold bodyLength at h
  split at h
  case h_1 e => exact .inl ⟨(Option.some.inj h).symm, hmem 0x03 _ e (by decide)⟩
  case h_2 e => exact .inl ⟨(Option.some.inj h).symm, hmem 0x05 _ e (by decide)⟩
  case h_3 e => exact .inl ⟨(Option.some.inj h).symm, hmem 0x06 _ e (by decide)⟩
  case h_4 e => exact .inl ⟨(Option.some.inj h).symm, hmem 0x09 _ e (by decide)⟩
  case h_5 e => exact .inl ⟨(Option.some.inj h).symm, hmem 0x0B _ e (by decide)⟩
  case h_6 e => exact .inl ⟨(Option.some.inj h).symm, hmem 0x0C _ e (by decide)⟩
  case h_7 e => exact .inl ⟨(Option.some.inj h).symm, hmem 0x10 _ e (by decide)⟩
  case h_8 e => exact .inl ⟨(Option.some.inj h).symm, hmem 0x16 _ e (by decide)⟩
  case h_9 e => exact .inl ⟨(Option.some.inj h).symm, hmem 0x18 _ e (by decide)⟩
  case h_10 e => exact .inr (.inl ⟨(Option.some.inj h).symm, hmem 0x0A _ e (by decide)⟩)
  case h_11 e => exact .inr (.inl ⟨(Option.some.inj h).symm, hmem 0x0F _ e (by decide)⟩)
  case h_12 e => exact .inr (.inl ⟨(Option.some.inj h).symm, hmem 0x13 _ e (by decide)⟩)
  case h_13 e => exact .inr (.inl ⟨(Option.some.inj h).symm, hmem 0x14 _ e (by decide)⟩)
  case h_14 e => exact .inr (.inr (.inl ⟨(Option.some.inj h).symm, hmem 0x08 _ e (by decide)⟩))
  case h_15 e => exact .inr (.inr (.inl ⟨(Option.some.inj h).symm, hmem 0x0D _ e (by decide)⟩))
  case h_16 e => exact .inr (.inr (.inl ⟨(Option.some.inj h).symm, hmem 0x0E _ e (by decide)⟩))
  case h_17 e => exact .inr (.inr (.inl ⟨(Option.some.inj h).symm, hmem 0x12 _ e (by decide)⟩))
  case h_18 e => exact .inr (.inr (.inl ⟨(Option.some.inj h).symm, hmem 0x17 _ e (by decide)⟩))
  case h_19 e => exact .inr (.inr (.inr (.inl ⟨(Option.some.inj h).symm, hmem 0x04 _ e (by decide)⟩)))
  case h_20 e => exact .inr (.inr (.inr (.inl ⟨(Option.some.inj h).symm, hmem 0x11 _ e (by decide)⟩)))
  case h_21 e => exact .inr (.inr (.inr (.inl ⟨(Option.some.inj h).symm, hmem 0x15 _ e (by decide)⟩)))
  case h_22 e => exact .inr (.inr (.inr (.inr (.inl ⟨(Option.some.inj h).symm, hk 0x01 e⟩))))
  case h_23 e => exact .inr (.inr (.inr (.inr (.inr ⟨(Option.some.inj h).symm, hk 0x07 e⟩))))
  case h_24 => cases h

theorem decodeRequest_wrong_length {kind : Byte} {body : List Byte} {n : Nat} (hn : bodyLength kind.toNat = some n)
    (hl : body.length ≠ n) : decodeRequest kind body = none := by
  rcases kinds_of_bodyLength hn with ⟨rfl, hk⟩ | ⟨rfl, hk⟩ | ⟨rfl, hk⟩ | ⟨rfl, hk⟩ | ⟨rfl, rfl⟩ | ⟨rfl, rfl⟩
  · exact decodeRequest_not_empty hk hl
  · exact decodeRequest_not_one hk hl
  · exact decodeRequest_not_two hk hl
  · exact decodeRequest_not_three hk hl
  · exact decodeRequest_not_six hl
  · exact decodeRequest_not_ten hl

theorem decodeRequest_write (et cnt : Byte) (es : List Byte) : decodeRequest 0x02 (et :: cnt :: es)
    = if writeSuits et.toNat cnt.toNat es.length then some (.writeEntries et cnt.toNat es) else none := rfl

theorem entryLength_of_known {et : Byte} {len : Nat}
    (h : (et = 1 ∧ len = 15) ∨ (et = 2 ∧ len = 4) ∨ (et = 3 ∧ len = 3) ∨ (et = 4 ∧ len = 32)) : entryLength et.toNat = some len := by
  rcases h with ⟨rfl, rfl⟩ | ⟨rfl, rfl⟩ | ⟨rfl, rfl⟩ | ⟨rfl, rfl⟩ <;> rfl

theorem writeSuits_eq {k cnt n len : Nat} (h : entryLength k = some len) : writeSuits k cnt n = decide (n = cnt * len) := by
  rw [writeSuits, h]

theorem entryLength_unknown {et : Byte} (h : et = 0 ∨ 4 < et.toNat) : entryLength et.toNat = none := by
  rcases h with rfl | h
  · rfl
  · unfold entryLength
    split
    · omega
    · omega
    · omega
    · omega
    · rfl

/-- Settles O39: a message by what it spells and its port; an area by its first message; the requests by their kinds. -/
theorem arrivingRequestsAreJudged : Obligations.ArrivingRequestsAreJudged := by
  refine ⟨fun s p kind tag body => ⟨fun h => ?badForm, fun r h => ⟨fun hm => ?noPermission, fun hm hq => ?full, arrive_queued h⟩⟩,
    fun s p area => ⟨arriveArea_short, fun kind tag len code rest harea => ⟨fun h => ?stops, fun h4 h60 hl => ?goes⟩⟩,
    fun a b c d e f g h i j => ?kinds, fun et cnt es len => ⟨fun hk hl => ?write, fun hk hl => ?writeNot, fun h => ?writeUnknown⟩,
    fun kind body => ⟨fun n hn hl => ?length, fun h => ?unknown, fun hk hl => ?short⟩⟩
  case badForm => rw [arrive_badForm h, answer_eq] <;> rfl
  case noPermission => rw [arrive_noPermission h hm, answer_eq] <;> rfl
  case full => rw [arrive_full h hm hq, answer_eq] <;> rfl
  case stops =>
    subst harea
    exact arriveArea_stops fun hfits => by
      obtain ⟨h1, h2, h3⟩ := hfits
      omega
  case goes =>
    subst harea
    exact arriveArea_goes ⟨h4, h60, hl⟩
  case kinds =>
    exact ⟨rfl, rfl, rfl, rfl, rfl, rfl, rfl, rfl, rfl, rfl, rfl, rfl, rfl, rfl, rfl, rfl, rfl, rfl, rfl, rfl, rfl, rfl, rfl⟩
  case write =>
    rw [decodeRequest_write, writeSuits_eq (entryLength_of_known hk)]
    exact if_pos (decide_eq_true hl)
  case writeNot =>
    rw [decodeRequest_write, writeSuits_eq (entryLength_of_known hk)]
    exact if_neg (mt of_decide_eq_true hl)
  case writeUnknown =>
    rw [decodeRequest_write, writeSuits, entryLength_unknown h]
    rfl
  case length => exact decodeRequest_wrong_length hn hl
  case unknown => exact decodeRequest_unknown h
  case short =>
    subst hk
    exact decodeRequest_no_count hl

end Sys2Proof.Machine
end

section
/-! Requests of the windows, the settings and the authority unit as they are served (R115, R116, R174, R176, R178). -/

namespace Sys2Proof.Machine

/-! Each command serves the head. -/

section

variable {s : State} {q : QueuedRequest} (h : Serves s q)
include h

theorem exec_windowOpen_serves {t fl f0 f1 l0 l1 : Byte} (hq : q.req = .windowOpen t fl f0 f1 l0 l1) :
    exec .windowOpen s = .next (serveWindowOpen q t fl f0 f1 l0 l1 s) := serving_eq h (by simp only [hq])

theorem exec_windowClose_serves {e : Option Word} (hq : q.req = .windowClose e) :
    exec .windowClose s = .next (serveWindowClose q e s) := serving_eq h (by simp only [hq])

theorem exec_settingsWrite_serves {pr hi lo en : Byte} {step mn mx : Nat} (hq : q.req = .settingsWrite pr hi lo step en mn mx) :
    exec .settingsWrite s = .next (serveSettingsWrite q pr hi lo step en mn mx s) := serving_eq h (by simp only [hq])

theorem exec_claim_serves {f : Bool} (hq : q.req = .claim f) : exec .claim s = .next (serveClaim q f s) :=
  serving_eq h (by simp only [hq])

end

/-! Window Open (R174). -/

/-- Whether two bytes name an entry of a table. -/
def Table.inside (T : Table) (a b : Nat) : Prop :=
  match T with
  | .stations => a < 24
  | .nets => a < 16
  | .matrix => a < 24 ∧ b < 16
  | .cues => a < 256

theorem indexOk_iff (T : Table) (a b : Nat) : indexOk T a b = true ↔ T.inside a b := by
  cases T <;> simp [indexOk, Table.inside]

theorem indexPlace_eq (T : Table) (byNet : Bool) (a b : Nat) :
    indexPlace T byNet a b = if T = .matrix then if byNet then 24 * b + a else 16 * a + b else a := by
  cases T <;> rfl

theorem windowOf_none {p : Port} {t fl f0 f1 l0 l1 : Byte} (h : tableOf? t.toNat = none) : windowOf p t fl f0 f1 l0 l1 = none := by
  rw [windowOf, h]

/-- The window that a Window Open in range opens. -/
def openedWindow (p : Port) (T : Table) (fl f0 f1 l0 l1 : Byte) : Window :=
  { owner := p, table := T, byNet := T = .matrix && fl.getLsbD 1,
    first := indexPlace T (T = .matrix && fl.getLsbD 1) f0.toNat f1.toNat,
    last := indexPlace T (T = .matrix && fl.getLsbD 1) l0.toNat l1.toNat,
    checkRequired := fl.getLsbD 0, advanced := 0, check := 0xFFFF }

/-- R174: whether both indices name entries, the first not behind the last. -/
def WindowFits (T : Table) (fl f0 f1 l0 l1 : Byte) : Prop :=
  T.inside f0.toNat f1.toNat ∧ T.inside l0.toNat l1.toNat
    ∧ indexPlace T (T = .matrix && fl.getLsbD 1) f0.toNat f1.toNat ≤ indexPlace T (T = .matrix && fl.getLsbD 1) l0.toNat l1.toNat

section

variable {p : Port} {T : Table} {t fl f0 f1 l0 l1 : Byte} (hT : tableOf? t.toNat = some T)
include hT

theorem windowOf_eq : (WindowFits T fl f0 f1 l0 l1 → windowOf p t fl f0 f1 l0 l1 = some (openedWindow p T fl f0 f1 l0 l1))
    ∧ (¬ WindowFits T fl f0 f1 l0 l1 → windowOf p t fl f0 f1 l0 l1 = none) := by
  have hcond : (indexOk T f0.toNat f1.toNat && indexOk T l0.toNat l1.toNat
      && decide (indexPlace T (T = .matrix && fl.getLsbD 1) f0.toNat f1.toNat
        ≤ indexPlace T (T = .matrix && fl.getLsbD 1) l0.toNat l1.toNat)) = true ↔ WindowFits T fl f0 f1 l0 l1 := by
    rw [Bool.and_eq_true, Bool.and_eq_true, indexOk_iff, indexOk_iff, decide_eq_true_eq, and_assoc]
    rfl
  rw [windowOf, hT]
  exact ⟨fun h => if_pos (hcond.mpr h), fun h => if_neg (mt hcond.mp h)⟩

end

theorem serveWindowOpen_opens {q : QueuedRequest} {t fl f0 f1 l0 l1 : Byte} {w : Window} {s : State}
    (h : windowOf q.port t fl f0 f1 l0 l1 = some w) : serveWindowOpen q t fl f0 f1 l0 l1 s
      = respond q .ok [] { windowEnded s with mgmt := { s.mgmt with window := some w } } := by
  rw [serveWindowOpen, h, endWindow_eq]
  rfl

theorem serveWindowOpen_refuses {q : QueuedRequest} {t fl f0 f1 l0 l1 : Byte} {s : State}
    (h : windowOf q.port t fl f0 f1 l0 l1 = none) : serveWindowOpen q t fl f0 f1 l0 l1 s = respond q .badValue [] (windowEnded s) := by
  rw [serveWindowOpen, h, endWindow_eq]

/-! Window Close (R176). -/

theorem serveWindowClose_none {q : QueuedRequest} {e : Option Word} {s : State} (h : s.mgmt.window = none) :
    serveWindowClose q e s = respond q .noWindow [] s := by
  rw [serveWindowClose, h]

theorem serveWindowClose_other {q : QueuedRequest} {e : Option Word} {w : Window} {s : State} (h : s.mgmt.window = some w)
    (ho : w.owner ≠ q.port) : serveWindowClose q e s = respond q .noWindow [] (windowEnded s) := by
  rw [serveWindowClose, h, endWindow_eq]
  exact if_pos ho

theorem serveWindowClose_own {q : QueuedRequest} {e : Option Word} {w : Window} {s : State} (h : s.mgmt.window = some w)
    (ho : w.owner = q.port) :
    serveWindowClose q e s = respond q (w.closes e) (le16 w.check.toNat) (closeMark w e (closeWindow s)) := by
  rw [serveWindowClose, h]
  exact if_neg (not_not_intro ho)

/-- A table's mark set or cleared. -/
def markTable (T : Table) (b : Bool) (s : State) : State :=
  if T = .cues then { s with table := { s.table with unverified := b } } else { s with unverified := b }

theorem setUnverified_eq (T : Table) (s : State) : setUnverified T s = markTable T true s := by cases T <;> rfl

theorem clearUnverified_eq (T : Table) (s : State) : clearUnverified T s = markTable T false s := by cases T <;> rfl

theorem closeMark_fails {w : Window} {e : Option Word} {s : State} (h : w.closes e = .checkFail) :
    closeMark w e s = markTable w.table true s := by
  rw [closeMark, if_pos h, setUnverified_eq]

theorem closeMark_passes {w : Window} {e : Option Word} {s : State} (h : w.closes e = .ok) :
    closeMark w e s = if e.isSome && w.full then markTable w.table false s else s := by
  rw [closeMark, if_neg (by rw [h]; decide), clearUnverified_eq]

theorem full_iff {w : Window} : w.full = true ↔ w.first = 0 ∧ w.last + 1 = w.table.size ∧ w.last < w.first + w.advanced := by
  rw [Window.full, Bool.and_eq_true, Bool.and_eq_true, decide_eq_true_eq, decide_eq_true_eq, decide_eq_true_eq, and_assoc]

/-- Settles O40: an open window ends first; a Window Open by its table and indices, a Window Close by the window's owner and
its check. -/
theorem windowOpenAndCloseServed : Obligations.WindowOpenAndCloseServed := by
  refine fun s q hs => ⟨fun t fl f0 f1 l0 l1 hq => ⟨fun hT => ?noTable, fun T hT => ?opens⟩,
    fun e hq => ⟨fun hw => ?noWindow, fun w hw => ⟨fun ho => ?other, fun ho => ?own⟩⟩⟩
  case noTable => rw [exec_windowOpen_serves hs hq, serveWindowOpen_refuses (windowOf_none hT)]
  case opens =>
    obtain ⟨hfits, hnot⟩ := windowOf_eq (p := q.port) (fl := fl) (f0 := f0) (f1 := f1) (l0 := l0) (l1 := l1) hT
    rw [exec_windowOpen_serves hs hq]
    unfold WindowFits at hfits hnot
    simp only [indexPlace_eq] at hfits hnot
    refine ⟨fun h => ?_, fun h => ?_⟩
    · rw [serveWindowOpen_opens (hfits h), openedWindow, indexPlace_eq, indexPlace_eq]
    · rw [serveWindowOpen_refuses (hnot h)]
  case noWindow => rw [exec_windowClose_serves hs hq, serveWindowClose_none hw]
  case other => rw [exec_windowClose_serves hs hq, serveWindowClose_other hw ho]
  case own =>
    rw [exec_windowClose_serves hs hq, serveWindowClose_own hw ho]
    cases e with
    | none =>
      dsimp only
      by_cases hc : w.checkRequired = true
      · have hcloses : w.closes none = .checkFail := if_pos hc
        rw [if_pos hc, closeMark_fails hcloses, hcloses]
        rfl
      · have hcloses : w.closes none = .ok := if_neg hc
        rw [if_neg hc, closeMark_passes hcloses, hcloses]
        rfl
    | some x =>
      dsimp only
      by_cases hx : x = w.check
      · have hcloses : w.closes (some x) = .ok := if_pos hx
        rw [if_neg (not_not_intro hx), closeMark_passes hcloses, hcloses]
        refine congrArg (fun t => Host.Outcome.next (respond q .ok (le16 w.check.toNat) t)) ?_
        exact if_congr (by rw [Option.isSome_some, Bool.true_and, full_iff]) rfl rfl
      · have hcloses : w.closes (some x) = .checkFail := if_neg hx
        rw [if_pos hx, closeMark_fails hcloses, hcloses]
        rfl

/-! Settings Write (R178). -/

/-- R178: whether every field of a Settings Write is in range. -/
def SettingsFit (pr hi lo en : Byte) (step mn mx : Nat) : Prop :=
  (pr.toNat < 24 ∨ pr.toNat = 255) ∧ 2 ≤ hi.toNat ∧ hi.toNat ≤ 16 ∧ lo.toNat < hi.toNat
    ∧ 1 ≤ step ∧ step ≤ 256 ∧ en.toNat ≤ 1 ∧ 50 ≤ mn ∧ mn ≤ 1000 ∧ 200 ≤ mx ∧ mx ≤ 5000 ∧ mn < mx

section

variable {pr hi lo en : Byte} {step mn mx : Nat}

theorem settingsOf_eq : (SettingsFit pr hi lo en step mn mx → settingsOf pr hi lo step en mn mx = some
      { progSource := finOf? 24 pr.toNat, high := hi.toNat, low := lo.toNat, duckStep := step,
        supEnable := en.toNat = 1, supMin := mn, supMax := mx })
    ∧ (¬ SettingsFit pr hi lo en step mn mx → settingsOf pr hi lo step en mn mx = none) := by
  have hcond : ((decide (pr.toNat < 24) || decide (pr.toNat = 255)) && decide (2 ≤ hi.toNat) && decide (hi.toNat ≤ 16)
      && decide (lo.toNat < hi.toNat) && decide (1 ≤ step) && decide (step ≤ 256) && decide (en.toNat ≤ 1) && decide (50 ≤ mn)
      && decide (mn ≤ 1000) && decide (200 ≤ mx) && decide (mx ≤ 5000) && decide (mn < mx)) = true
      ↔ SettingsFit pr hi lo en step mn mx := by
    simp only [Bool.and_eq_true, Bool.or_eq_true, decide_eq_true_eq, SettingsFit, and_assoc]
  exact ⟨fun h => if_pos (hcond.mpr h), fun h => if_neg (mt hcond.mp h)⟩

end

theorem supervises_iff {s : State} : s.supervises = true ↔
    s.mgmt.settings.supEnable = true ∧ (s.faults.modes.desk = .latched ∨ s.faults.modes.desk = .warn) := by
  rw [State.supervises, Bool.and_eq_true, Bool.or_eq_true, decide_eq_true_eq, decide_eq_true_eq]

/-- R121: supervision judged, as one update. -/
theorem judgeSupervision_eq (s : State) : judgeSupervision s = { s with auth :=
    if s.auth.holder.isSome ∧ s.mgmt.settings.supEnable = true ∧ (s.faults.modes.desk = .latched ∨ s.faults.modes.desk = .warn) then
      { s.auth with window := some (s.auth.window.getD ⟨0, false⟩) }
    else { s.auth with window := none, deskCond := false } } := by
  unfold judgeSupervision
  by_cases h : s.auth.holder.isSome ∧ s.mgmt.settings.supEnable = true ∧ (s.faults.modes.desk = .latched ∨ s.faults.modes.desk = .warn)
  · rw [if_pos h, if_pos (Bool.and_eq_true_iff.mpr ⟨h.1, supervises_iff.mpr h.2⟩)]
    rfl
  · rw [if_neg h, if_neg fun e => h ⟨(Bool.and_eq_true_iff.mp e).1, supervises_iff.mp (Bool.and_eq_true_iff.mp e).2⟩]
    rfl

/-- The settings in place, HOLD judged against the new watermarks. -/
def settingsPut (v : Settings) (s : State) : State :=
  { s with mgmt := { s.mgmt with settings := v, hold := judgeHold v.high v.low s.mgmt.queue.length s.mgmt.hold } }

theorem putSettings_eq (v : Settings) (s : State) : putSettings v s = judgeSupervision (settingsPut v s) := rfl

/-- Settles O43: the settings by their ranges, then the supervision as they call for it. -/
theorem settingsWriteServed : Obligations.SettingsWriteServed := by
  intro s q pr hi lo en step mn mx hs hq e fits
  obtain ⟨hfit, hnot⟩ := settingsOf_eq (pr := pr) (hi := hi) (lo := lo) (en := en) (step := step) (mn := mn) (mx := mx)
  have hexec := exec_settingsWrite_serves hs hq
  refine ⟨fun h => hexec.trans (congrArg Host.Outcome.next ?_), fun h => hexec.trans (congrArg Host.Outcome.next ?_)⟩
  · unfold serveSettingsWrite
    rw [hnot h, endWindow_eq]
  · unfold serveSettingsWrite
    rw [hfit h, endWindow_eq]
    dsimp only
    rw [putSettings_eq, judgeSupervision_eq]
    exact congrArg (fun a => respond q .ok [] { settingsPut _ (windowEnded s) with auth := a })
      (if_congr (and_congr_right fun _ => and_congr_left fun _ => decide_eq_true_iff) rfl rfl)

/-! Claim (R115, R116). -/

/-- R115: the holding of a grant to a port. -/
theorem holdingFor_eq (s : State) (p : Port) : s.holdingFor p = match s.activeOf p with
    | some st => if (s.station st).mgmt then .station st else .commissioning
    | none => .commissioning := rfl

/-- A claim's grant, as one update of the authority and a report. -/
def grantedTo (p : Port) (e : State) (forced : Bool) (a : State) : State :=
  broadcast (reportOf 0xD0 [byteOf p.val, (e.holdingFor p).byte, byteOf (bit 0 forced)])
    { a with auth := { holder := some p, holding := some (e.holdingFor p), deskCond := false,
                       window := if e.supervises then some ⟨0, false⟩ else none } }

theorem grantedTo_holder (p : Port) (e : State) (forced : Bool) (a : State) : (grantedTo p e forced a).auth.holder = some p := by
  rw [grantedTo, broadcast_auth]

theorem grant_eq (p : Port) (s : State) : grant p false s = grantedTo p s false s := rfl

theorem forceAuthority_eq {p h : Port} {s : State} (hh : s.auth.holder = some h) : forceAuthority p s = grantedTo p s true
    (broadcast (reportOf 0xD2 [byteOf h.val, 1]) { s with auth := ⟨none, none, none, false⟩ }) := by
  have hlost : loseAuthority .forced s
      = broadcast (reportOf 0xD2 [byteOf h.val, 1]) { s with auth := ⟨none, none, none, false⟩ } := by
    rw [loseAuthority_of_holder hh, ← broadcast_setAuth]
    rfl
  have hrest := broadcast_rest (reportOf 0xD2 [byteOf h.val, 1]) { s with auth := ⟨none, none, none, false⟩ }
  rw [forceAuthority, hlost, hrest]
  rfl

section

variable {p : Port} {force : Bool} {s : State}

theorem claim_noPermission (hm : s.isMgmt p = false) : claim p force s = (.noPermission, s) := if_pos (by rw [hm]; rfl)

theorem claim_notAvailable (hm : s.isMgmt p = true) (hl : s.linkUp p = false) : claim p force s = (.notAvailable, s) :=
  (if_neg (by rw [hm]; decide)).trans (if_pos (by rw [hl]; rfl))

theorem claim_barred (hm : s.isMgmt p = true) (hl : s.linkUp p = true) (hd : s.faults.ports[p].deskLatched = true) :
    claim p force s = (.barred, s) :=
  (if_neg (by rw [hm]; decide)).trans ((if_neg (by rw [hl]; decide)).trans (if_pos hd))

/-- A claim that passes its checks, by the holder. -/
theorem claim_judged (hm : s.isMgmt p = true) (hl : s.linkUp p = true) (hd : ¬ s.faults.ports[p].deskLatched = true) :
    claim p force s = match s.auth.holder with
      | none => (.ok, grant p false s)
      | some h =>
        if h = p then (.ok, s)
        else if force && (s.auth.deskCond || !s.linkUp h) then (.ok, forceAuthority p s)
        else (.held, s) :=
  (if_neg (by rw [hm]; decide)).trans ((if_neg (by rw [hl]; decide)).trans (if_neg hd))

end

/-- The service of a claim of a known outcome. -/
theorem serveClaim_eq {q : QueuedRequest} {force : Bool} {s t : State} {r : Result}
    (h : claim q.port force (windowEnded s) = (r, t)) : serveClaim q force s = respond q r [portByte t.auth.holder] t := by
  rw [serveClaim, endWindow_eq, h]

/-- Settles O45: a Claim by its checks in their order. -/
theorem claimServed : Obligations.ClaimServed := by
  intro s q force hs hq
  rw [exec_claim_serves hs hq]
  refine congrArg Host.Outcome.next ?_
  by_cases hm : (windowEnded s).isMgmt q.port = false
  · rw [if_pos hm, serveClaim_eq (claim_noPermission hm)]
  have hm' := Bool.eq_true_of_not_eq_false hm
  by_cases hl : (windowEnded s).linkUp q.port = false
  · rw [if_neg hm, if_pos hl, serveClaim_eq (claim_notAvailable hm' hl)]
  have hl' := Bool.eq_true_of_not_eq_false hl
  by_cases hd : (windowEnded s).faults.ports[q.port].deskLatched = true
  · rw [if_neg hm, if_neg hl, if_pos hd, serveClaim_eq (claim_barred hm' hl' hd)]
  have hjudged := claim_judged (force := force) hm' hl' hd
  rw [if_neg hm, if_neg hl, if_neg hd]
  cases hh : (windowEnded s).auth.holder with
  | none =>
    rw [hh] at hjudged
    rw [serveClaim_eq hjudged, grant_eq, grantedTo_holder]
    rfl
  | some h =>
    rw [hh] at hjudged
    dsimp only at hjudged ⊢
    by_cases hp : h = q.port
    · rw [if_pos hp] at hjudged ⊢
      rw [serveClaim_eq hjudged, hh, hp]
      rfl
    rw [if_neg hp] at hjudged ⊢
    by_cases hf : (force && ((windowEnded s).auth.deskCond || !(windowEnded s).linkUp h)) = true
    · rw [if_pos hf] at hjudged ⊢
      rw [serveClaim_eq hjudged, forceAuthority_eq hh, grantedTo_holder]
      rfl
    · rw [if_neg hf] at hjudged ⊢
      rw [serveClaim_eq hjudged, hh]
      rfl

end Sys2Proof.Machine
end

section
/-! Cancel, Cancel All, Set Region, Set Pointer and the meter's requests as they are served (R64, R69, R89, R90, R180). -/

namespace Sys2Proof.Machine

/-! Each command serves the head. -/

section

variable {s : State} {q : QueuedRequest} (h : Serves s q)
include h

theorem exec_cancel_serves {c : CueIx} (hq : q.req = .cancel c) : exec .cancel s = .next (serveCancel q c s) :=
  serving_eq h (by simp only [hq])

theorem exec_cancelAll_serves (hq : q.req = .cancelAll) : exec .cancelAll s = .next (serveCancelAll q s) :=
  serving_eq h (by simp only [hq])

theorem exec_setRegion_serves {f l : Nat} (hq : q.req = .setRegion f l) : exec .setRegion s = .next (serveSetRegion q f l s) :=
  serving_eq h (by simp only [hq])

theorem exec_setPointer_serves {r : PointerRef} (hq : q.req = .setPointer r) :
    exec .setPointer s = .next (serveSetPointer q r s) := serving_eq h (by simp only [hq])

theorem exec_meterStart_serves {pt ix md : Byte} (hq : q.req = .meterStart pt ix md) :
    exec .meterStart s = .next (serveMeterStart q pt ix md s) := serving_eq h (by simp only [hq])

theorem exec_meterStop_serves (hq : q.req = .meterStop) : exec .meterStop s = .next (serveMeterStop q s) :=
  serving_eq h (by simp only [hq])

end

theorem not_fromHolder {s : State} {q : QueuedRequest} (h : s.auth.holder ≠ some q.port) : (!s.fromHolder q) = true := by
  rw [Bool.not_eq_true', Bool.eq_false_iff]
  exact mt State.fromHolder_iff.mp h

theorem is_fromHolder {s : State} {q : QueuedRequest} (h : s.auth.holder = some q.port) : ¬ (!s.fromHolder q) = true := by
  rw [State.fromHolder_iff.mpr h]
  decide

/-! Cancel and Cancel All (R89, R90). -/

/-- The entry of a cue taken out of the list, with its claims and a CANCELLED report. -/
def cancelled (c : CueIx) (x : CueEntry) (a : State) : State :=
  reportCue 0xCB c x.state.code 0 0
    { a with cues := a.cues.filter (fun y => y.cue ≠ c),
             lamps := { a.lamps with claims := a.lamps.claims.filter fun y => y.cue ≠ c } }

theorem cancelEntry_eq {c : CueIx} {x : CueEntry} {a : State} (h : a.entry c = some x) : cancelEntry c a = cancelled c x a := by
  rw [cancelEntry, h]
  rfl

theorem cancelled_entry {c d : CueIx} (x : CueEntry) (a : State) (h : d ≠ c) : (cancelled c x a).entry d = a.entry d := by
  unfold State.entry cancelled
  rw [reportCue_cues]
  dsimp only
  rw [List.find?_filter]
  congr 1
  funext y
  by_cases hy : y.cue = d
  · simp [hy, h]
  · simp [hy]

/-- A list of entries cancelled one after another. -/
theorem cancel_foldl {l : List CueEntry} (hl : (l.map (·.cue)).Nodup) {a : State} (ha : ∀ x ∈ l, a.entry x.cue = some x) :
    (l.map (·.cue)).foldl (fun t c => cancelEntry c t) a = l.foldl (fun t x => cancelled x.cue x t) a := by
  induction l generalizing a with
  | nil => rfl
  | cons x l ih =>
    obtain ⟨hx, hl'⟩ := List.nodup_cons.mp hl
    rw [List.map_cons, List.foldl_cons, List.foldl_cons, cancelEntry_eq (ha x List.mem_cons_self)]
    refine ih hl' fun y hy => ?_
    have hne : y.cue ≠ x.cue := fun e => hx (List.mem_map.mpr ⟨y, hy, e⟩)
    rw [cancelled_entry x a hne, ha y (List.mem_cons_of_mem x hy)]

theorem cueListOk_windowEnded {s : State} (h : CueListOk s) : CueListOk (windowEnded s) := h

/-- Settles O49: the checks in their order; the entries cancelled one by one, each still in its place. -/
theorem cancelAndCancelAllServed : Obligations.CancelAndCancelAllServed := by
  refine fun s q hs => ⟨fun c hq => ⟨fun hn => ?other, fun hh hx => ?inactive, fun x hh hx => ⟨fun hg => ?gone, fun hg => ?cancels⟩⟩,
    fun hq => ⟨fun hn => ?allOther, fun hh hok => ?all⟩⟩
  case other =>
    rw [exec_cancel_serves hs hq, serveCancel, endWindow_eq, if_pos (not_fromHolder hn)]
    rfl
  case inactive =>
    rw [exec_cancel_serves hs hq, serveCancel, endWindow_eq, if_neg (is_fromHolder hh), cancelCue, hx]
    rfl
  case gone =>
    rw [exec_cancel_serves hs hq, serveCancel, endWindow_eq, if_neg (is_fromHolder hh), cancelCue, hx]
    dsimp only
    rw [if_pos hg]
    rfl
  case cancels =>
    rw [exec_cancel_serves hs hq, serveCancel, endWindow_eq, if_neg (is_fromHolder hh), cancelCue, hx]
    dsimp only
    rw [if_neg hg, cancelEntry_eq hx]
    rfl
  case allOther => rw [exec_cancelAll_serves hs hq, serveCancelAll, endWindow_eq, if_pos (not_fromHolder hn)]
  case all =>
    have hlist := cueListOk_windowEnded hok
    have hnodup : (((windowEnded s).cues.filter fun x => x.state ≠ .going).map (·.cue)).Nodup :=
      hlist.2.1.sublist (List.filter_sublist.map _)
    have hfold := cancel_foldl hnodup (a := windowEnded s) fun x hx => entry_of_mem hlist (List.mem_filter.mp hx).1
    rw [exec_cancelAll_serves hs hq, serveCancelAll, endWindow_eq, if_neg (is_fromHolder hh), State.cancellable, hfold,
      List.length_map]
    rfl

/-! Set Region and Set Pointer (R64, R69). -/

theorem legalSplit_iff {f l : Nat} : legalSplit f l = true ↔ 1 ≤ l ∧ f + l ≤ 256 := by
  rw [legalSplit, Bool.and_eq_true, decide_eq_true_eq, decide_eq_true_eq]

theorem nextEnabled_first {t : CueTable} {lo : Nat} {c : CueIx} (hlo : lo ≤ c.val) (hseq : t.inSequence c = true)
    (hen : t.records[c].enabled = true)
    (hfirst : ∀ d : CueIx, lo ≤ d.val → d < c → t.inSequence d = true → t.records[d].enabled = false) : t.nextEnabled lo = some c := by
  refine find_finRange ?_ fun d hd => ?_
  · rw [hseq, hen, decide_eq_true hlo]
    rfl
  · rw [Bool.eq_false_iff]
    intro e
    rw [Bool.and_eq_true, Bool.and_eq_true, decide_eq_true_eq] at e
    obtain ⟨⟨h1, h2⟩, h3⟩ := e
    rw [hfirst d h1 hd h2] at h3
    cases h3

theorem nextEnabled_none {t : CueTable} {lo : Nat}
    (h : ∀ c : CueIx, lo ≤ c.val → t.inSequence c = true → t.records[c].enabled = false) : t.nextEnabled lo = none := by
  refine List.find?_eq_none.mpr fun c _ e => ?_
  rw [Bool.and_eq_true, Bool.and_eq_true, decide_eq_true_eq] at e
  obtain ⟨⟨h1, h2⟩, h3⟩ := e
  rw [h c h1 h2] at h3
  cases h3

/-- A new split with an enabled index in its sequence region. -/
theorem setRegion_found {t : CueTable} {f l : Nat} {c : CueIx} (hlo : f ≤ c.val) (hhi : c.val < f + l)
    (hen : t.records[c].enabled = true) (hfirst : ∀ d : CueIx, f ≤ d.val → d < c → t.records[d].enabled = false) :
    t.setRegion f l = { t with fixedSize := f, seqSize := l, pointer := c, ended := false } := by
  have hnext : CueTable.nextEnabled { t with fixedSize := f, seqSize := l } f = some c :=
    nextEnabled_first hlo (inSequence_iff.mpr ⟨hlo, hhi⟩) hen fun d hd hlt _ => hfirst d hd hlt
  rw [CueTable.setRegion, hnext]

theorem setRegion_ended {t : CueTable} {f l : Nat} (h : ∀ c : CueIx, f ≤ c.val → c.val < f + l → t.records[c].enabled = false) :
    t.setRegion f l = { t with fixedSize := f, seqSize := l, pointer := Fin.ofNat 256 f, ended := true } := by
  have hnext : CueTable.nextEnabled { t with fixedSize := f, seqSize := l } f = none :=
    nextEnabled_none fun c hc hs => h c hc (inSequence_iff.mp hs).2
  rw [CueTable.setRegion, hnext]

/-- R69: the pointer placed on an index that fits. -/
theorem setPointer_place {t : CueTable} {ref : PointerRef} {c : CueIx}
    (h : ref = .index c ∨ (ref = .next ∧ t.ended = false ∧ t.pointer = c)) : t.setPointer ref
      = if t.inSequence c && t.records[c].enabled then some { t with pointer := c, ended := false } else none := by
  rcases h with rfl | ⟨rfl, he, rfl⟩
  · rfl
  · exact if_neg (by rw [he]; decide)

theorem setPointer_next_ended {t : CueTable} (h : t.ended = true) : t.setPointer .next = none := if_pos h

theorem serveSetRegion_eq {q : QueuedRequest} {f l : Nat} {s t : State} {r : Result}
    (hh : (windowEnded s).auth.holder = some q.port) (h : setRegion f l (windowEnded s) = (r, t)) :
    serveSetRegion q f l s = respond q r t.table.pointerBytes t := by
  rw [serveSetRegion, endWindow_eq, if_neg (is_fromHolder hh), h]

theorem serveSetPointer_eq {q : QueuedRequest} {ref : PointerRef} {s t : State} {r : Result}
    (hh : (windowEnded s).auth.holder = some q.port) (h : setPointer ref (windowEnded s) = (r, t)) :
    serveSetPointer q ref s = respond q r t.table.pointerBytes t := by
  rw [serveSetPointer, endWindow_eq, if_neg (is_fromHolder hh), h]

/-- An accepted split. -/
theorem setRegion_accepts {f l : Nat} {e : State} (hlegal : legalSplit f l = true) (hc : e.cues = []) :
    setRegion f l e = (.ok, { e with table := e.table.setRegion f l }) := by
  refine (if_neg (by rw [hlegal]; decide)).trans (if_neg ?_)
  rw [hc]
  decide

theorem setPointer_refused {ref : PointerRef} {e : State} (h : e.table.setPointer ref = none) :
    setPointer ref e = (.badValue, e) := by
  rw [setPointer, h]

theorem setPointer_accepted {ref : PointerRef} {e : State} {t : CueTable} (h : e.table.setPointer ref = some t) :
    setPointer ref e = (.ok, { e with table := t }) := by
  rw [setPointer, h]

/-- Settles O50: the checks in their order; the lowest enabled index of the new region by the search from its start. -/
theorem setRegionAndSetPointerServed : Obligations.SetRegionAndSetPointerServed := by
  refine fun s q hs => ⟨fun F L hq => ⟨fun hn => ?regionOther, fun hh hno => ?illegal, fun hh h1 h2 hc => ?busy,
      fun hh h1 h2 hc => ⟨fun c hlo hhi hen hfirst => ?found, fun hnone => ?ended⟩⟩,
    fun ref hq => ⟨fun hn => ?pointerOther, fun hh hr => ?toEnd, fun hh hr he => ?nextEnded, fun c hh hr => ?place⟩⟩
  case regionOther =>
    rw [exec_setRegion_serves hs hq, serveSetRegion, endWindow_eq, if_pos (not_fromHolder hn)]
    rfl
  case illegal =>
    have hlegal : legalSplit F L = false := Bool.eq_false_iff.mpr fun e => by
      obtain ⟨h1, h2⟩ := legalSplit_iff.mp e
      omega
    have hout : setRegion F L (windowEnded s) = (.badValue, windowEnded s) := if_pos (by rw [hlegal]; rfl)
    rw [exec_setRegion_serves hs hq, serveSetRegion_eq hh hout]
    rfl
  case busy =>
    have hout : setRegion F L (windowEnded s) = (.busy, windowEnded s) := by
      refine (if_neg (by rw [legalSplit_iff.mpr ⟨h1, h2⟩]; decide)).trans (if_pos ?_)
      rw [List.isEmpty_eq_false_iff.mpr hc]
      rfl
    rw [exec_setRegion_serves hs hq, serveSetRegion_eq hh hout]
    rfl
  case found =>
    rw [exec_setRegion_serves hs hq, serveSetRegion_eq hh (setRegion_accepts (legalSplit_iff.mpr ⟨h1, h2⟩) hc),
      setRegion_found hlo hhi hen hfirst]
    rfl
  case ended =>
    rw [exec_setRegion_serves hs hq, serveSetRegion_eq hh (setRegion_accepts (legalSplit_iff.mpr ⟨h1, h2⟩) hc),
      setRegion_ended hnone]
    rfl
  case pointerOther =>
    rw [exec_setPointer_serves hs hq, serveSetPointer, endWindow_eq, if_pos (not_fromHolder hn)]
    rfl
  case toEnd =>
    subst hr
    rw [exec_setPointer_serves hs hq, serveSetPointer_eq hh (setPointer_accepted rfl)]
    rfl
  case nextEnded =>
    subst hr
    rw [exec_setPointer_serves hs hq, serveSetPointer_eq hh (setPointer_refused (setPointer_next_ended he))]
    rfl
  case place =>
    have hfits : ((windowEnded s).table.inSequence c && (windowEnded s).table.records[c].enabled) = true
        ↔ (windowEnded s).table.fixedSize ≤ c.val ∧ c.val < (windowEnded s).table.fixedSize + (windowEnded s).table.seqSize
          ∧ ((windowEnded s).cueRec c).enabled = true := by
      rw [Bool.and_eq_true, inSequence_iff, and_assoc]
      rfl
    refine ⟨fun hno => ?_, fun hyes => ?_⟩
    · rw [exec_setPointer_serves hs hq,
        serveSetPointer_eq hh (setPointer_refused ((setPointer_place hr).trans (if_neg (mt hfits.mp hno))))]
      rfl
    · rw [exec_setPointer_serves hs hq,
        serveSetPointer_eq hh (setPointer_accepted ((setPointer_place hr).trans (if_pos (hfits.mpr hyes))))]
      rfl

/-! The meter's requests (R180). -/

theorem meterModeOf_none {n : Nat} (h1 : n ≠ 1) (h2 : n ≠ 2) : meterModeOf? n = none := by
  unfold meterModeOf?
  split
  · exact absurd rfl h1
  · exact absurd rfl h2
  · rfl

theorem meterModeOf_some {n : Nat} (h : n = 1 ∨ n = 2) : meterModeOf? n = some (decide (n = 2)) := by
  rcases h with rfl | rfl <;> rfl

theorem serveMeterStart_refuses {q : QueuedRequest} {pt ix md : Byte} {s : State}
    (h : meterPointOf? pt.toNat ix.toNat = none ∨ meterModeOf? md.toNat = none) :
    serveMeterStart q pt ix md s = respond q .badValue [] (windowEnded s) := by
  rw [serveMeterStart, endWindow_eq]
  rcases h with h | h
  · rw [h]
  · rw [h]
    cases meterPointOf? pt.toNat ix.toNat <;> rfl

/-- A measurement aborted, and the next begun. -/
theorem abortMeter_begins (m : Meter) (e : State) : (abortMeter e).modMgmt (fun g => { g with meter := some m }) =
    match e.mgmt.meter with
    | none => { e with mgmt := { e.mgmt with meter := some m } }
    | some o => placeReport o.port
        { kind := 0xE9, tag := o.tag, code := 0, body := [byteOf o.point.codes.1, byteOf o.point.codes.2] }
        { e with mgmt := { e.mgmt with meter := some m } } := by
  unfold abortMeter
  cases e.mgmt.meter <;> rfl

/-- Settles O52: a Meter Start by its point and mode; the measurement before it is aborted. -/
theorem meterRequestsServed : Obligations.MeterRequestsServed := by
  refine fun s q hs => ⟨fun pt ix md hq => ⟨fun h => ?refused, fun x hx hm => ?begins⟩, fun hq => ?stops⟩
  case refused =>
    rw [exec_meterStart_serves hs hq, serveMeterStart_refuses (h.imp_right fun h => meterModeOf_none h.1 h.2)]
  case begins =>
    rw [exec_meterStart_serves hs hq, serveMeterStart, endWindow_eq, hx, meterModeOf_some hm]
    dsimp only
    rw [abortMeter_begins] <;> rfl
  case stops =>
    rw [exec_meterStop_serves hs hq, serveMeterStop, endWindow_eq]
    rfl

end Sys2Proof.Machine
end

section
/-! Get Status and Soft Reset as they are served, the flags of the two views, and the layout of a status (R111, R168, R179,
R181, R184, R186). -/

namespace Sys2Proof.Machine

/-! Each command serves the head. -/

/-- GET_STATUS takes every due event first; with none due it serves the head as it stands. -/
theorem exec_getStatus_serves {s : State} {q : QueuedRequest} (h : Serves s q) (hn : NoneDue s) {it num : Byte}
    (hq : q.req = .getStatus it num) : exec .getStatus s = .next (serveGetStatus q it num s) := by
  change settled (serveHead flush _) s = _
  rw [settled_calm h.calm]
  unfold serveHead
  rw [flush_eq hn, head_eq h]
  simp [hq]

theorem exec_softReset_serves {s : State} {q : QueuedRequest} (h : Serves s q) (hq : q.req = .softReset) :
    exec .softReset s = .next (serveSoftReset q s) := serving_eq h (by simp only [hq])

/-! Get Status (R179). -/

theorem serveGetStatus_none {q : QueuedRequest} {it num : Byte} {s : State} (h : statusItemOf? it.toNat num.toNat = none) :
    serveGetStatus q it num s = respond q .badValue [] (windowEnded s) := by
  rw [serveGetStatus, endWindow_eq, h]

theorem serveGetStatus_some {q : QueuedRequest} {it num : Byte} {i : StatusItem} {s : State}
    (h : statusItemOf? it.toNat num.toNat = some i) :
    serveGetStatus q it num s = respond q .ok ((windowEnded s).statusBytes q.port i) (clearLost q.port i (windowEnded s)) := by
  rw [serveGetStatus, endWindow_eq, h]

/-- Code 0 alone names the device. -/
theorem statusItemOf_device {n m : Nat} (h : statusItemOf? n m = some .device) : n = 0 := by
  unfold statusItemOf? at h
  split at h
  · rfl
  · cases hf : finOf? 24 m <;> rw [hf] at h <;> cases h
  · cases hf : finOf? 24 m <;> rw [hf] at h <;> cases h
  · cases hf : finOf? 16 m <;> rw [hf] at h <;> cases h
  · cases hf : finOf? 256 m <;> rw [hf] at h <;> cases h
  · cases h

/-! Soft Reset (R181). -/

theorem serveSoftReset_eq (q : QueuedRequest) (s : State) : serveSoftReset q s =
    match placeResponse q.port { kind := 0x98, tag := q.tag, code := 0, body := [] } (windowEnded s) with
    | some t => { t with mgmt := { (windowEnded s).mgmt with service := .resetOk q.port } }
    | none => { windowEnded s with mgmt := { (windowEnded s).mgmt with
        service := .waiting q.port { kind := 0x98, tag := q.tag, code := 0, body := [] } true } } := by
  have hmsg : responseTo 0x18 q.tag .ok [] = { kind := 0x98, tag := q.tag, code := 0, body := [] } := rfl
  unfold serveSoftReset
  rw [endWindow_eq, hmsg]
  dsimp only
  cases h : placeResponse q.port { kind := 0x98, tag := q.tag, code := 0, body := [] } (windowEnded s) with
  | some t =>
    dsimp only
    rw [← placeResponse_mgmt h]
    rfl
  | none => rfl

/-! The OK of a Soft Reset in a completion's frame. -/

theorem mixPut_service (c : State) :
    (mixPut c).mgmt.service = if (setSlots c).resetLeaves then .resetDue else c.mgmt.service := by
  have hmeter : ∀ (r : MixResult) (s : State), (putMeter r s).mgmt.service = s.mgmt.service := fun r s => rfl
  unfold mixPut framesSent
  rw [hmeter, (putMarks_stays _).mgmt, (putMix_stays _ _).mgmt]
  dsimp only
  unfold noteReset
  split
  · rfl
  · rw [placeTakeWaiting_mgmt]
    rfl

theorem resetLeaves_of_resetOk {s : State} {p : Port} (h : s.mgmt.service = .resetOk p) :
    s.resetLeaves = (fillArea 64 s.out[p].queue).1.any fun m => m.kind = 0x98 && m.code = 0 := by
  rw [State.resetLeaves, h]
  rfl

/-! The two views (R111, R168, R186). -/

/-- The bits of a byte of eight flags. -/
theorem flagByte_bits : ∀ b0 b1 b2 b3 b4 b5 b6 b7 : Bool,
    let v := byteOf (bit 0 b0 + bit 1 b1 + bit 2 b2 + bit 3 b3 + bit 4 b4 + bit 5 b5 + bit 6 b6 + bit 7 b7)
    v.getLsbD 0 = b0 ∧ v.getLsbD 1 = b1 ∧ v.getLsbD 2 = b2 ∧ v.getLsbD 3 = b3 ∧ v.getLsbD 4 = b4 ∧ v.getLsbD 5 = b5
      ∧ v.getLsbD 6 = b6 ∧ v.getLsbD 7 = b7 := by decide

/-- The bits of a byte of four flags. -/
theorem flagNibble_bits : ∀ b0 b1 b2 b3 : Bool, let v := byteOf (bit 0 b0 + bit 1 b1 + bit 2 b2 + bit 3 b3)
    v.getLsbD 0 = b0 ∧ v.getLsbD 1 = b1 ∧ v.getLsbD 2 = b2 ∧ v.getLsbD 3 = b3 ∧ v.toNat < 2 ^ 4 := by decide

theorem any_stations {f : Station → Bool} : allStations.any f = true ↔ ∃ st, f st = true := by
  rw [List.any_eq_true]
  exact exists_congr fun st => and_iff_right (List.mem_finRange st)

theorem any_ports {f : Port → Bool} : allPorts.any f = true ↔ ∃ p, f p = true := by
  rw [List.any_eq_true]
  exact exists_congr fun p => and_iff_right (List.mem_finRange p)

section

variable {s : State}

theorem stationLink_iff {st : Station} : s.stationLink st = true ↔ (s.station st).enabled = true ∧ (s.homing[st].state = .isolated
    ∨ ∃ a, s.homing[st].active = some a ∧ (s.live.serves a).isSome = true ∧ s.faults.ports[a].linkCond = true) := by
  unfold State.stationLink State.isolated State.supCond
  rw [Bool.and_eq_true, Bool.or_eq_true, decide_eq_true_eq]
  refine and_congr_right fun _ => or_congr Iff.rfl ?_
  cases s.homing[st].active with
  | none => simp
  | some a => simp [-Fin.getElem_fin]

theorem flagLink_iff : s.flagLink = true ↔ ∃ u, (s.station u).enabled = true ∧ (s.homing[u].state = .isolated
    ∨ ∃ a, s.homing[u].active = some a ∧ (s.live.serves a).isSome = true ∧ s.faults.ports[a].linkCond = true) := by
  rw [State.flagLink, any_stations]
  exact exists_congr fun u => stationLink_iff

theorem flagFault_iff : s.flagFault = true ↔ (∃ u : Station, s.homing[u].primFailed = true ∨ s.homing[u].spareFailed = true
      ∨ ((s.station u).enabled = true ∧ (s.homing[u].state = .switching ∨ s.homing[u].state = .isolated))
      ∨ s.faults.stations[u].mute ≠ .none) ∨ ∃ a : Port, s.faults.ports[a].deskLatched = true := by
  unfold State.flagFault State.astray Homing.anyMark State.mute
  rw [Bool.or_eq_true, any_stations, any_ports]
  refine or_congr (exists_congr fun u => ?_) Iff.rfl
  simp only [Bool.or_eq_true, Bool.and_eq_true, decide_eq_true_eq, or_assoc]

theorem flagWarn_iff : s.flagWarn = true ↔ (∃ a : Port, s.faults.ports[a].linkWarn = true ∨ s.faults.ports[a].deskWarn = true)
    ∨ (∃ u : Station, s.faults.stations[u].overWarn = true ∨ s.faults.stations[u].clipWarn = true) ∨ s.faults.cueWarn = true := by
  unfold State.flagWarn
  rw [Bool.or_eq_true, Bool.or_eq_true, any_ports, any_stations, or_assoc]
  refine or_congr (exists_congr fun a => Bool.or_eq_true_iff) (or_congr (exists_congr fun u => Bool.or_eq_true_iff) Iff.rfl)

theorem cueCond_iff : s.cueCond = true ↔ ∃ e ∈ s.cues, .late ∈ e.targets ∨ .lost ∈ e.targets := by
  unfold State.cueCond
  rw [List.any_eq_true]
  refine exists_congr fun e => and_congr_right fun _ => ?_
  rw [List.any_eq_true]
  simp only [Bool.or_eq_true, decide_eq_true_eq]
  constructor
  · rintro ⟨t, ht, rfl | rfl⟩
    · exact .inl ht
    · exact .inr ht
  · rintro (h | h)
    · exact ⟨_, h, .inl rfl⟩
    · exact ⟨_, h, .inr rfl⟩

theorem onSpare_iff {st : Station} : s.onSpare st = true ↔ s.homing[st].state = .switching ∨ s.homing[st].state = .onSpare := by
  rw [State.onSpare, Bool.or_eq_true, decide_eq_true_eq, decide_eq_true_eq]

end

/-! The layout of a status (R184). -/

theorem portStatus_eq (s : State) (reader p : Port) : s.statusBytes reader (.port p) =
    [byteOf (bit 0 s.ports[p].up + bit 1 ((s.live.serves p).isSome && s.ports[p].cond) + bit 2 s.faults.ports[p].linkWarn
        + bit 3 s.faults.ports[p].deskWarn + bit 4 s.faults.ports[p].deskLatched),
      byteOf s.ports[p].acquire, byteOf s.ports[p].loss, byteOf s.ports[p].bucket,
      (match s.ports[p].conceal with
        | .fresh => 1
        | .halved => 2
        | .silent => 3),
      (match s.live.serves p with
        | some st => byteOf st.val
        | none => 0xFF)] := by
  have hconceal : byteOf s.ports[p].conceal.code = match s.ports[p].conceal with
      | .fresh => 1
      | .halved => 2
      | .silent => 3 := by cases s.ports[p].conceal <;> rfl
  have hserves : byteOf ((s.live.serves p).elim 255 (·.val)) = match s.live.serves p with
      | some st => byteOf st.val
      | none => 0xFF := by cases s.live.serves p <;> rfl
  rw [← hconceal, ← hserves]
  rfl

theorem homingByte_eq (h : HomingState) : byteOf h.code = match h with
    | .onPrimary => 1
    | .switching => 2
    | .onSpare => 3
    | .isolated => 4 := by cases h <;> rfl

theorem muteCode_eq (m : Mute) : byteOf m.code = match m with
    | .none => 0
    | .latched => 1
    | .rekey => 2 := by cases m <;> rfl

theorem talkCode_eq (v : Standing) : byteOf v.code = match v with
    | .off => 0
    | .live => 1
    | .wait => 2
    | .refused => 3
    | .muted => 4
    | .dropped => 5 := by cases v <;> rfl

theorem annCode_eq (v : AnnStanding) : byteOf v.code = match v with
    | .none => 0
    | .inChannel => 1
    | .refused => 2
    | .dropped => 3 := by cases v <;> rfl

theorem stationStatus_eq (s : State) (reader : Port) (st : Station) : s.statusBytes reader (.station st) =
    encodeStation (s.station st)
      ++ [byteOf s.homing[st].state.code, portByte s.homing[st].active,
        byteOf (bit 0 s.homing[st].primFailed + bit 1 s.homing[st].spareFailed + bit 2 s.homing[st].restorePending),
        byteOf (s.homing[st].switchRem.getD 0)]
      ++ le16 s.mix.duck[st]
      ++ [byteOf (bit 0 s.mix.clip[st] + bit 1 (s.stationLink st) + bit 2 s.faults.stations[st].overCond
          + bit 3 s.faults.stations[st].overWarn + bit 4 s.faults.stations[st].clipWarn),
        byteOf s.faults.stations[st].setRun, byteOf s.faults.stations[st].clearRun, byteOf s.faults.stations[st].mute.code,
        byteOf s.arb.talk[st][(0 : Key)].code, byteOf s.arb.talk[st][(1 : Key)].code, byteOf s.arb.talk[st][(2 : Key)].code,
        byteOf s.arb.talk[st][(3 : Key)].code, byteOf s.arb.ann[st].code] := by
  have hkeys : allKeys.map (fun k => byteOf (Standing.code s.arb.talk[st][k]))
      = [byteOf s.arb.talk[st][(0 : Key)].code, byteOf s.arb.talk[st][(1 : Key)].code, byteOf s.arb.talk[st][(2 : Key)].code,
        byteOf s.arb.talk[st][(3 : Key)].code] := by
    rw [allKeys_eq]
    rfl
  change State.stationStatus s st = _
  unfold State.stationStatus
  dsimp only
  rw [hkeys]
  simp only [List.append_assoc, List.cons_append, List.nil_append]

theorem netStatus_eq (s : State) (reader : Port) (n : Net) : s.statusBytes reader (.net n) =
    encodeNet (s.net n) ++ (byteOf s.arb.holders[n].length :: holdBytes s.arb.holders[n])
      ++ (byteOf s.arb.waits[n].length :: holdBytes s.arb.waits[n]) ++ callStatus s.arb.calls[n] := by
  change State.netStatus s n = _
  unfold State.netStatus
  simp only [List.append_assoc, List.cons_append, List.nil_append]

/-- The place of an entry in the list. -/
theorem entry_place {before after : List CueEntry} {e : CueEntry} {s : State} (hs : s.cues = before ++ e :: after)
    (hb : ∀ x ∈ before, x.cue ≠ e.cue) : s.entry e.cue = some e ∧ (s.cues.findIdx fun x => x.cue = e.cue) = before.length := by
  have hnone : ∀ x ∈ before, decide (x.cue = e.cue) = false := fun x hx => decide_eq_false (hb x hx)
  refine ⟨?_, ?_⟩
  · rw [State.entry, hs, List.find?_append, List.find?_eq_none.mpr fun x hx h => by rw [hnone x hx] at h; cases h]
    exact List.find?_cons_of_pos (p := fun x : CueEntry => decide (x.cue = e.cue)) (decide_eq_true rfl)
  · rw [hs, List.findIdx_append, if_neg, List.findIdx_cons, decide_eq_true rfl]
    · exact Nat.zero_add _
    · rw [Nat.not_lt, List.findIdx_eq_length_of_false hnone]

theorem deadlineStatus_eq (d : Deadline) : d.status = match d with
    | .none => ([0, 0, 0] : List Byte)
    | .running r => (1 : Byte) :: le16 r
    | .expired => ([2, 0, 0] : List Byte)
    | .stopped => ([3, 0, 0] : List Byte) := by cases d <;> rfl

theorem callStatus_eq (c : CallState) : callStatus c = match c with
    | .idle => ([0, 0, 0, 0, 0] : List Byte)
    | .calling st k => [1, byteOf st.val, byteOf k.val, 0, 0]
    | .holding (some st) r => [2, byteOf st.val, 0] ++ le16 r
    | .holding none r => [2, 0xFF, 0] ++ le16 r := by
  cases c with
  | idle => rfl
  | calling st k => rfl
  | holding u r => cases u <;> rfl

theorem cueStatus_none {s : State} {c : CueIx} (h : s.entry c = none) (reader : Port) :
    s.statusBytes reader (.cue c) = encodeCue (s.cueRec c) ++ List.replicate 18 0 := by
  change State.cueStatus s c = _
  rw [State.cueStatus, h]

theorem cueStatus_some {s : State} {before after : List CueEntry} {e : CueEntry} (hs : s.cues = before ++ e :: after)
    (hb : ∀ x ∈ before, x.cue ≠ e.cue) (reader : Port) :
    s.statusBytes reader (.cue e.cue) = encodeCue (s.cueRec e.cue) ++ e.status before.length := by
  obtain ⟨hfound, hplace⟩ := entry_place hs hb
  change State.cueStatus s e.cue = _
  rw [State.cueStatus, hfound]
  dsimp only
  rw [hplace]

/-- The bytes of an entry, with the time its FOLLOW has left. -/
theorem entryStatus_eq (e : CueEntry) (n : Nat) : e.status n = [byteOf e.state.code, byteOf n]
    ++ ((e.targets.map fun t => byteOf t.code) ++ List.replicate (8 - e.targets.length) (0 : Byte))
    ++ (match e.deadline with
      | .none => ([0, 0, 0] : List Byte)
      | .running r => (1 : Byte) :: le16 r
      | .expired => ([2, 0, 0] : List Byte)
      | .stopped => ([3, 0, 0] : List Byte))
    ++ [byteOf (bit 0 e.follow.isSome + bit 1 e.byFollow + bit 2 e.unready + bit 3 e.forced)]
    ++ le16 (match e.follow with
      | some f => f.remaining
      | none => 0)
    ++ le16 (if e.state = .going then e.goHold else 0) := by
  have hfollow : e.follow.elim 0 (·.remaining) = (match e.follow with
      | some f => f.remaining
      | none => 0) := by cases e.follow <;> rfl
  rw [← hfollow, ← deadlineStatus_eq] <;> rfl

theorem indexBytes_eq (w : Window) (i : Nat) : w.indexBytes i = match w.table with
    | .matrix => [byteOf (cellAt w.byNet i).1.val, byteOf (cellAt w.byNet i).2.val]
    | _ => [byteOf i, 0] := by
  unfold Window.indexBytes
  cases w.table <;> rfl

end Sys2Proof.Machine
end

section
/-! The device's status, and Get Status and Soft Reset as they are served (R99, R111, R168, R172, R179, R181, R184, R186). -/

namespace Sys2Proof.Machine

/-! The parts of the device's status (R184). -/

theorem holdingByte_eq (h : Option Holding) : h.elim 0 Holding.byte = match h with
    | some (.station st) => byteOf st.val
    | some .commissioning => 0xFF
    | none => 0 := by
  cases h with
  | none => rfl
  | some x => cases x <;> rfl

theorem elapsed_eq (o : Option SupWindow) : o.elim 0 (·.elapsed) = match o with
    | some w => w.elapsed
    | none => 0 := by cases o <;> rfl

theorem windowBytes_eq (o : Option Window) : windowBytes o = match o with
    | some w => [byteOf (1 + bit 1 w.checkRequired + bit 2 w.byNet), byteOf w.table.code, byteOf w.owner.val]
        ++ w.indexBytes w.first ++ w.indexBytes w.last ++ le16 w.advanced ++ le16 w.check.toNat
    | none => List.replicate 11 (0 : Byte) := by cases o <;> rfl

theorem meterBytes_eq (o : Option Meter) : meterBytes o = match o with
    | some x => [byteOf (1 + bit 1 x.repeats + bit 2 x.measuring + bit 3 x.noSignal), byteOf x.port.val, x.tag,
        byteOf x.point.codes.1, byteOf x.point.codes.2, byteOf x.count] ++ le16 x.peak ++ [byteOf x.blocks]
    | none => List.replicate 9 (0 : Byte) := by cases o <;> rfl

/-- The bytes of a programme source. -/
def programByte : Option Station → Byte
  | some st => byteOf st.val
  | none => 0xFF

theorem settingsBytes_eq (v : Settings) : settingsBytes v = [programByte v.progSource, byteOf v.high, byteOf v.low]
    ++ le16 v.duckStep ++ [byteOf (bit 0 v.supEnable)] ++ le16 v.supMin ++ le16 v.supMax := by
  have hsource : byteOf (v.progSource.elim 255 (·.val)) = programByte v.progSource := by cases v.progSource <;> rfl
  rw [settingsBytes, hsource]

/-! The two views bit by bit. -/

theorem managementView_bits (s : State) (p : Port) :
    let v := s.managementView p
    v.getLsbD 0 = s.flagFault ∧ v.getLsbD 1 = s.flagWarn ∧ v.getLsbD 2 = s.flagLink ∧ v.getLsbD 3 = s.cueCond
      ∧ v.getLsbD 4 = s.mgmt.hold ∧ v.getLsbD 5 = decide (s.auth.holder = some p) ∧ v.getLsbD 6 = s.faults.resetFlag
      ∧ v.getLsbD 7 = s.out[p].lost := flagByte_bits _ _ _ _ _ _ _ _

theorem stationView_bits (s : State) (st : Station) :
    let v := s.stationView st
    v.getLsbD 0 = s.flagFault ∧ v.getLsbD 1 = decide (s.mute st ≠ .none) ∧ v.getLsbD 2 = s.stationLink st
      ∧ v.getLsbD 3 = s.onSpare st ∧ v.toNat < 2 ^ 4 := flagNibble_bits _ _ _ _

/-- A byte below 16 has no bit from 4 up. -/
theorem noHighBits {v : Byte} (h : v.toNat < 2 ^ 4) {i : Nat} (hi : 4 ≤ i) : v.getLsbD i = false :=
  Nat.testBit_lt_two_pow (Nat.lt_of_lt_of_le h (Nat.pow_le_pow_right (by decide) hi))

theorem setSlots_out (c : State) : (setSlots c).out = c.out := by rw [setSlots]

theorem closed_mgmt (t : State) : ({ t with opened := false, takeDue := false } : State).mgmt = t.mgmt := rfl

/-- A port's tick leaves the management as the mix left it. -/
theorem exec_completion_mgmt {s : State} (h : Calm s) :
    ∃ t, exec .blockCompletion s = .next t ∧ t.mgmt = (mixPut s.composed).mgmt :=
  ⟨_, exec_completion h, (closed_mgmt _).trans (tickPorts_mgmt _)⟩

/-- The OK of a Soft Reset leaves in a completion's frame, or waits for the next. -/
theorem exec_completion_resetOk {s : State} {p : Port} (h : Calm s) (hok : s.composed.mgmt.service = .resetOk p) :
    ∃ t, exec .blockCompletion s = .next t ∧ t.mgmt.service =
      if (fillArea 64 s.composed.out[p].queue).1.any (fun m => m.kind = 0x98 && m.code = 0) then .resetDue else .resetOk p := by
  have hset : (setSlots s.composed).mgmt.service = .resetOk p := by rw [setSlots_mgmt, hok]
  obtain ⟨t, hrun, hmgmt⟩ := exec_completion_mgmt h
  refine ⟨t, hrun, ?_⟩
  rw [hmgmt, mixPut_service, resetLeaves_of_resetOk hset, hok, setSlots_out]

/-- Settles O53: each command serves the head, a completion's frame carries the OK of a Soft Reset or not, the views are
bytes of their flags, and the status of an item is its fields' bytes in a row. -/
theorem getStatusAndSoftResetServed : Obligations.GetStatusAndSoftResetServed := by
  refine ⟨fun s q hserves => ⟨fun it num hq hnone => ⟨fun hitem => ?_, fun hdevice => ?_, fun x hnot hitem => ?_⟩, fun hq => ?_⟩,
    fun s p hcalm hok => exec_completion_resetOk hcalm hok, fun s p st => ?_, portStatus_eq, fun s reader st => ?_,
    fun s reader n => ?_, fun s reader c => ⟨fun hentry => cueStatus_none hentry reader, fun before after e hs he hb => ?_⟩,
    fun s reader => ?_⟩
  · rw [exec_getStatus_serves hserves hnone hq, serveGetStatus_none hitem]
  · have hitem : statusItemOf? it.toNat num.toNat = some .device := by rw [hdevice]; rfl
    rw [exec_getStatus_serves hserves hnone hq, serveGetStatus_some hitem] <;> rfl
  · have hclear : clearLost q.port x (windowEnded s) = windowEnded s := by
      refine if_neg ?_
      rintro rfl
      exact hnot (statusItemOf_device hitem)
    rw [exec_getStatus_serves hserves hnone hq, serveGetStatus_some hitem, hclear]
  · rw [exec_softReset_serves hserves hq, serveSoftReset_eq] <;> rfl
  · obtain ⟨m0, m1, m2, m3, m4, m5, m6, m7⟩ := managementView_bits s p
    obtain ⟨w0, w1, w2, w3, w4⟩ := stationView_bits s st
    refine ⟨?_, ?_, ?_, ?_, m4, ?_, m6, m7, ?_, ?_, ?_, ?_, fun i => noHighBits w4⟩
    · rw [m0, flagFault_iff]
    · rw [m1, flagWarn_iff]
    · rw [m2, flagLink_iff]
    · rw [m3, cueCond_iff]
    · rw [m5, decide_eq_true_eq]
    · rw [w0, flagFault_iff]
    · rw [w1, decide_eq_true_eq, State.mute]
    · rw [w2, stationLink_iff]
    · rw [w3, onSpare_iff]
  · rw [stationStatus_eq, homingByte_eq, muteCode_eq, annCode_eq, talkCode_eq, talkCode_eq, talkCode_eq, talkCode_eq] <;> rfl
  · rw [netStatus_eq, callStatus_eq] <;> rfl
  · subst he
    rw [cueStatus_some hs hb, entryStatus_eq]
    simp only [List.append_assoc] <;> rfl
  · change State.deviceStatus s reader = _
    rw [State.deviceStatus, windowBytes_eq, meterBytes_eq, settingsBytes_eq, holdingByte_eq, elapsed_eq]
    simp only [List.append_assoc, indexBytes_eq] <;> rfl

end Sys2Proof.Machine
end

section
/-! The entries of the tables: what each field decodes to, and what a decoded entry reads back as (R185). -/

namespace Sys2Proof.Machine

/-! Bytes and their numbers. -/

theorem byteOf_toNat {n : Nat} (h : n < 256) : (byteOf n).toNat = n := by
  rw [byteOf, BitVec.toNat_ofNat, Nat.mod_eq_of_lt h]

theorem byteOf_toNat_self (b : Byte) : byteOf b.toNat = b := by
  rw [byteOf, BitVec.ofNat_toNat, BitVec.setWidth_eq]

theorem fromLe_bytes {n : Nat} (h : n < 65536) : fromLe (byteOf n) (byteOf (n / 256)) = n := by
  rw [fromLe, byteOf_toNat (show n / 256 < 256 by omega), byteOf, BitVec.toNat_ofNat]
  omega

theorem finOf?_of_lt {n x : Nat} (h : x < n) : finOf? n x = some ⟨x, h⟩ := dif_pos h

theorem finOf?_byteOf {n : Nat} (hn : n ≤ 256) (i : Fin n) : finOf? n (byteOf i.val).toNat = some i := by
  rw [byteOf_toNat (by omega), finOf?_val]

theorem lt_of_finOf? {n x : Nat} {i : Fin n} (h : finOf? n x = some i) : x = i.val := by
  unfold finOf? at h
  split at h
  · rw [← Option.some.inj h]
  · cases h

theorem ofNat_of_finOf? {n x : Nat} [NeZero n] (h : x < n) : finOf? n x = some (Fin.ofNat n x) := by
  rw [finOf?_of_lt h]
  exact congrArg some (Fin.ext (Nat.mod_eq_of_lt h).symm)

/-- The bits of a byte of five flags. -/
theorem flagFive_bits : ∀ b0 b1 b2 b3 b4 : Bool, let v := byteOf (bit 0 b0 + bit 1 b1 + bit 2 b2 + bit 3 b3 + bit 4 b4)
    v.getLsbD 0 = b0 ∧ v.getLsbD 1 = b1 ∧ v.getLsbD 2 = b2 ∧ v.getLsbD 3 = b3 ∧ v.getLsbD 4 = b4 := by decide

/-- The bits of a byte of two flags. -/
theorem flagTwo_bits : ∀ b0 b1 : Bool, let v := byteOf (bit 0 b0 + bit 1 b1)
    v.getLsbD 0 = b0 ∧ v.getLsbD 1 = b1 := by decide

theorem kindOf?_code (k : Kind) : kindOf? (byteOf k.code).toNat = some k := by cases k <;> rfl

theorem ackPolicyOf?_code (a : AckPolicy) : ackPolicyOf? (byteOf a.code).toNat = some a := by cases a <;> rfl

theorem goPolicyOf?_code (g : GoPolicy) : goPolicyOf? (byteOf g.code).toNat = some g := by cases g <;> rfl

/-! Stations. -/

/-- The ranges of a station entry's fields (R25, R185). -/
def StationRecord.Ranged (r : StationRecord) : Prop :=
  r.spare ≠ some r.primary ∧ r.cls ≤ 3 ∧ r.talkGain ≤ 256 ∧ r.progLevel ≤ 256 ∧ r.duckDepth ≤ 256 ∧ r.master ≤ 256
    ∧ r.lampCount ≤ 4 ∧ 16 ≤ r.threshold ∧ r.threshold ≤ 248 ∧ r.threshold % 8 = 0

section

variable (fl kd pp sp cl g0 g1 p0 p1 d0 d1 m0 m1 lc th : Byte)

/-- The spare a station entry names. -/
def entrySpare : Option Port := if fl.getLsbD 4 then finOf? 24 sp.toNat else none

/-- The record a station entry spells. -/
def entryStation (kind : Kind) (primary : Port) : StationRecord :=
  { enabled := fl.getLsbD 0, mgmt := fl.getLsbD 1, annAllowed := fl.getLsbD 2, recvAnn := fl.getLsbD 3, kind := kind,
    primary := primary, spare := entrySpare fl sp, cls := cl.toNat, talkGain := fromLe g0 g1, progLevel := fromLe p0 p1,
    duckDepth := fromLe d0 d1, master := fromLe m0 m1, lampCount := lc.toNat, threshold := th.toNat }

/-- A station entry decodes to the record it spells just where its fields are in range. -/
theorem decodeStation_iff (r : StationRecord) :
    decodeStation [fl, kd, pp, sp, cl, g0, g1, p0, p1, d0, d1, m0, m1, lc, th] = some r ↔
      ∃ kind primary, kindOf? kd.toNat = some kind ∧ finOf? 24 pp.toNat = some primary
        ∧ (fl.getLsbD 4 = true → (entrySpare fl sp).isSome = true)
        ∧ (entryStation fl sp cl g0 g1 p0 p1 d0 d1 m0 m1 lc th kind primary).Ranged
        ∧ r = entryStation fl sp cl g0 g1 p0 p1 d0 d1 m0 m1 lc th kind primary := by
  unfold decodeStation
  dsimp only
  cases hk : kindOf? kd.toNat with
  | none => simp
  | some kind =>
    cases hp : finOf? 24 pp.toNat with
    | none => simp
    | some primary =>
      dsimp only
      rw [Option.ite_none_right_eq_some]
      simp only [Option.some.injEq, isGain, isThreshold, decide_eq_true_eq]
      constructor
      · rintro ⟨⟨hspare, hranged⟩, rfl⟩
        exact ⟨kind, primary, rfl, rfl, hspare, hranged, rfl⟩
      · rintro ⟨k, p, rfl, rfl, hspare, hranged, rfl⟩
        exact ⟨⟨hspare, hranged⟩, rfl⟩

end

theorem decodeStation_ranged {bs : List Byte} {r : StationRecord} (h : decodeStation bs = some r) : r.Ranged := by
  unfold decodeStation at h
  split at h
  · obtain ⟨kind, primary, -, -, -, hranged, rfl⟩ := (decodeStation_iff _ _ _ _ _ _ _ _ _ _ _ _ _ _ _ r).mp h
    exact hranged
  · cases h

/-- The byte of a spare, 0 where there is none. -/
theorem entrySpare_encode {fl : Byte} {o : Option Port} (h : fl.getLsbD 4 = o.isSome) :
    entrySpare fl (byteOf (o.elim 0 (·.val))) = o := by
  rw [entrySpare, h]
  cases o with
  | none => rfl
  | some p => exact finOf?_byteOf (by decide) p

theorem decodeStation_encode {r : StationRecord} (h : r.Ranged) : decodeStation (encodeStation r) = some r := by
  obtain ⟨b0, b1, b2, b3, b4⟩ := flagFive_bits r.enabled r.mgmt r.annAllowed r.recvAnn r.spare.isSome
  have hspare := entrySpare_encode b4
  have hr := h
  obtain ⟨-, hcls, hgain, hprog, hduck, hmaster, hlamps, -, hth, -⟩ := hr
  have heq : entryStation (byteOf (bit 0 r.enabled + bit 1 r.mgmt + bit 2 r.annAllowed + bit 3 r.recvAnn + bit 4 r.spare.isSome))
      (byteOf (r.spare.elim 0 (·.val))) (byteOf r.cls) (byteOf r.talkGain) (byteOf (r.talkGain / 256)) (byteOf r.progLevel)
      (byteOf (r.progLevel / 256)) (byteOf r.duckDepth) (byteOf (r.duckDepth / 256)) (byteOf r.master) (byteOf (r.master / 256))
      (byteOf r.lampCount) (byteOf r.threshold) r.kind r.primary = r := by
    unfold entryStation
    rw [hspare, b0, b1, b2, b3, byteOf_toNat (by omega), fromLe_bytes (by omega), fromLe_bytes (by omega),
      fromLe_bytes (by omega), fromLe_bytes (by omega), byteOf_toNat (by omega), byteOf_toNat (by omega)]
  refine (decodeStation_iff _ _ _ _ _ _ _ _ _ _ _ _ _ _ _ r).mpr ⟨r.kind, r.primary, kindOf?_code _,
    finOf?_byteOf (by decide) _, fun hbit => ?_, heq.symm ▸ h, heq.symm⟩
  rw [hspare, ← b4]
  exact hbit

/-! Nets and cells. -/

theorem decodeNet_eq (fl sl h0 h1 : Byte) : decodeNet [fl, sl, h0, h1] =
    if 1 ≤ sl.toNat ∧ sl.toNat ≤ 8 ∧ fromLe h0 h1 ≤ 10000 ∧ fromLe h0 h1 % 100 = 0 then
      some { enabled := fl.getLsbD 0, progDuck := fl.getLsbD 1, slots := sl.toNat, callHold := fromLe h0 h1 }
    else none := rfl

theorem decodeNet_ranged {bs : List Byte} {r : NetRecord} (h : decodeNet bs = some r) :
    1 ≤ r.slots ∧ r.slots ≤ 8 ∧ r.callHold ≤ 10000 ∧ r.callHold % 100 = 0 := by
  unfold decodeNet at h
  split at h
  · rw [Option.ite_none_right_eq_some] at h
    obtain ⟨hranged, hr⟩ := h
    rw [← Option.some.inj hr]
    exact hranged
  · cases h

theorem decodeNet_encode {r : NetRecord} (h : 1 ≤ r.slots ∧ r.slots ≤ 8 ∧ r.callHold ≤ 10000 ∧ r.callHold % 100 = 0) :
    decodeNet (encodeNet r) = some r := by
  obtain ⟨b0, b1⟩ := flagTwo_bits r.enabled r.progDuck
  have hr := h
  obtain ⟨-, hslots, hhold, -⟩ := hr
  refine (decodeNet_eq _ _ _ _).trans ?_
  rw [b0, b1, byteOf_toNat (by omega), fromLe_bytes (by omega), if_pos h]

theorem decodeCell_eq (l0 l1 k : Byte) : decodeCell [l0, l1, k] =
    if fromLe l0 l1 ≤ 256 ∧ (k.toNat ≤ 3 ∨ k.toNat = 255) then some { level := fromLe l0 l1, key := finOf? 4 k.toNat }
    else none := rfl

theorem decodeCell_ranged {bs : List Byte} {c : Cell} (h : decodeCell bs = some c) : c.level ≤ 256 := by
  unfold decodeCell at h
  split at h
  · rw [Option.ite_none_right_eq_some] at h
    obtain ⟨hranged, hr⟩ := h
    rw [← Option.some.inj hr]
    exact hranged.1
  · cases h

/-- A talk key's byte, FFh for none. -/
theorem keyByte_fits (o : Option Key) : let k := byteOf (o.elim 255 (·.val))
    (k.toNat ≤ 3 ∨ k.toNat = 255) ∧ finOf? 4 k.toNat = o := by
  cases o with
  | none => exact ⟨.inr rfl, rfl⟩
  | some k =>
    refine ⟨.inl ?_, finOf?_byteOf (by decide) k⟩
    exact Nat.le_of_lt_succ (Nat.lt_of_le_of_lt (Nat.le_of_eq (byteOf_toNat (n := k.val) (by omega))) k.isLt)

theorem decodeCell_encode {c : Cell} (h : c.level ≤ 256) : decodeCell (encodeCell c) = some c := by
  obtain ⟨hkey, hname⟩ := keyByte_fits c.key
  refine (decodeCell_eq _ _ _).trans ?_
  rw [fromLe_bytes (by omega), if_pos ⟨h, hkey⟩, hname]

end Sys2Proof.Machine
end

section
/-! The entries of the cue table: the target pairs, the optional fields, and what a decoded entry reads back as (R58, R60,
R185). -/

namespace Sys2Proof.Machine

/-! The target pairs. -/

/-- The two bytes of a target pair at a place. -/
def pairAt (ps : List Byte) (i : Nat) : Option Byte × Option Byte := (ps[2 * i]?, ps[2 * i + 1]?)

/-- The two bytes of a target. -/
def targetPair (x : Station × Lamp) : Option Byte × Option Byte := (some (byteOf x.1.val), some (byteOf x.2.val))

theorem pairAt_succ (a b : Byte) (rest : List Byte) (i : Nat) : pairAt (a :: b :: rest) (i + 1) = pairAt rest i := by
  rw [pairAt, show 2 * (i + 1) = 2 * i + 1 + 1 from rfl]
  simp [pairAt]

theorem targetPair_injective : Function.Injective targetPair := by
  rintro ⟨s, l⟩ ⟨u, m⟩ h
  simp only [targetPair, Prod.mk.injEq, Option.some.injEq] at h
  have hs := congrArg BitVec.toNat h.1
  have hl := congrArg BitVec.toNat h.2
  rw [byteOf_toNat (by omega), byteOf_toNat (by omega)] at hs hl
  rw [Fin.ext hs, Fin.ext hl]

/-- The pairs of a cue entry decode to a list just where its length is the count and each pair is its target's. -/
theorem decodeTargets_iff : ∀ (n : Nat) (ps : List Byte) (ts : List (Station × Lamp)),
    decodeTargets n ps = some ts ↔ ts.length = n ∧ ∀ i x, ts[i]? = some x → pairAt ps i = targetPair x
  | 0, ps, ts => by
    constructor
    · intro h
      cases h
      exact ⟨rfl, fun i x hx => by cases hx⟩
    · rintro ⟨h, -⟩
      rw [List.length_eq_zero_iff.mp h]
      rfl
  | n + 1, [], ts => by
    refine ⟨fun h => (Option.some_ne_none _ h.symm).elim, ?_⟩
    rintro ⟨hlen, hpairs⟩
    obtain ⟨x, ts', rfl⟩ := List.exists_cons_of_length_eq_add_one hlen
    cases hpairs 0 x rfl
  | n + 1, [a], ts => by
    refine ⟨fun h => (Option.some_ne_none _ h.symm).elim, ?_⟩
    rintro ⟨hlen, hpairs⟩
    obtain ⟨x, ts', rfl⟩ := List.exists_cons_of_length_eq_add_one hlen
    cases (Prod.mk.inj (hpairs 0 x rfl)).2
  | n + 1, a :: b :: rest, ts => by
    rw [decodeTargets]
    constructor
    · intro h
      split at h
      case h_2 => cases h
      case h_1 s l ts' hs hl hts =>
        obtain ⟨hlen, hpairs⟩ := (decodeTargets_iff n rest ts').mp hts
        cases h
        refine ⟨congrArg (· + 1) hlen, fun i x hx => ?_⟩
        cases i with
        | zero =>
          cases hx
          rw [targetPair, ← lt_of_finOf? hs, ← lt_of_finOf? hl, byteOf_toNat_self, byteOf_toNat_self]
          rfl
        | succ i =>
          rw [pairAt_succ]
          exact hpairs i x hx
    · rintro ⟨hlen, hpairs⟩
      obtain ⟨⟨s, l⟩, ts', rfl⟩ := List.exists_cons_of_length_eq_add_one hlen
      obtain ⟨ha, hb⟩ := Prod.mk.inj (hpairs 0 (s, l) rfl)
      cases ha
      cases hb
      have hts : decodeTargets n rest = some ts' := (decodeTargets_iff n rest ts').mpr
        ⟨Nat.succ.inj hlen, fun i x hx => (pairAt_succ _ _ rest i).symm.trans (hpairs (i + 1) x hx)⟩
      rw [finOf?_byteOf (by decide), finOf?_byteOf (by decide), hts]

/-- Whether a pair is in range. -/
def PairFits (x : Option Byte × Option Byte) : Prop := ∃ a b : Byte, x = (some a, some b) ∧ a.toNat < 24 ∧ b.toNat < 4

theorem pairFits_target (x : Station × Lamp) : PairFits (targetPair x) := by
  refine ⟨_, _, rfl, ?_, ?_⟩
  · rw [byteOf_toNat (by omega)]
    exact x.1.isLt
  · rw [byteOf_toNat (by omega)]
    exact x.2.isLt

/-- Pairs in range decode. -/
theorem decodeTargets_of_fits : ∀ {n : Nat} {ps : List Byte}, (∀ i < n, PairFits (pairAt ps i)) → ∃ ts, decodeTargets n ps = some ts
  | 0, _, _ => ⟨[], rfl⟩
  | n + 1, [], h => by
    obtain ⟨a, b, hab, -⟩ := h 0 (Nat.succ_pos n)
    cases hab
  | n + 1, [_], h => by
    obtain ⟨a, b, hab, -⟩ := h 0 (Nat.succ_pos n)
    cases (Prod.mk.inj hab).2
  | n + 1, a :: b :: rest, h => by
    obtain ⟨ts, hts⟩ := decodeTargets_of_fits (n := n) (ps := rest) fun i hi =>
      pairAt_succ a b rest i ▸ h (i + 1) (Nat.succ_lt_succ hi)
    obtain ⟨x, y, hxy, hx, hy⟩ := h 0 (Nat.succ_pos n)
    cases hxy
    rw [decodeTargets, finOf?_of_lt hx, finOf?_of_lt hy, hts]
    exact ⟨_, rfl⟩

theorem pairFits_of_decode {n : Nat} {ps : List Byte} {ts : List (Station × Lamp)} (h : decodeTargets n ps = some ts)
    {i : Nat} (hi : i < n) : PairFits (pairAt ps i) := by
  obtain ⟨hlen, hpairs⟩ := (decodeTargets_iff n ps ts).mp h
  rw [hpairs i _ (List.getElem?_eq_getElem (hlen.symm ▸ hi))]
  exact pairFits_target _

/-- A target stands twice just where a pair does. -/
theorem targets_nodup_iff {n : Nat} {ps : List Byte} {ts : List (Station × Lamp)} (h : decodeTargets n ps = some ts) :
    ts.Nodup ↔ ∀ i j : Nat, i < j → j < n → pairAt ps i ≠ pairAt ps j := by
  obtain ⟨hlen, hpairs⟩ := (decodeTargets_iff n ps ts).mp h
  have hat : ∀ i (hi : i < ts.length), pairAt ps i = targetPair ts[i] := fun i hi => hpairs i _ (List.getElem?_eq_getElem hi)
  rw [List.Nodup, List.pairwise_iff_getElem]
  constructor
  · intro hnodup i j hij hj
    rw [hat i (by omega), hat j (by omega)]
    exact fun heq => hnodup i j (by omega) (by omega) hij (targetPair_injective heq)
  · intro hne i j hi hj hij heq
    refine hne i j hij (by omega) ?_
    rw [hat i hi, hat j hj, heq]

/-- The encoded pairs: eight pairs of bytes, the targets' first, and 0 past them. -/
theorem encodeTargets_spec : ∀ (n : Nat) (ts : List (Station × Lamp)), ts.length ≤ n →
    (encodeTargets n ts).length = 2 * n ∧ decodeTargets ts.length (encodeTargets n ts) = some ts
      ∧ (encodeTargets n ts).drop (2 * ts.length) = List.replicate (2 * n - 2 * ts.length) 0
  | 0, [], _ => ⟨rfl, rfl, rfl⟩
  | n + 1, [], _ => by
    obtain ⟨hlen, -, hzero⟩ := encodeTargets_spec n [] (Nat.zero_le n)
    refine ⟨congrArg (· + 2) hlen, rfl, ?_⟩
    exact congrArg (fun l => (0 : Byte) :: 0 :: l) hzero
  | n + 1, (s, l) :: rest, h => by
    obtain ⟨hlen, hdec, hzero⟩ := encodeTargets_spec n rest (Nat.le_of_succ_le_succ h)
    refine ⟨congrArg (· + 2) hlen, ?_, ?_⟩
    · rw [List.length_cons, encodeTargets, decodeTargets, finOf?_byteOf (by decide), finOf?_byteOf (by decide), hdec]
    · rw [List.length_cons, show 2 * (n + 1) - 2 * (rest.length + 1) = 2 * n - 2 * rest.length by omega]
      exact hzero

/-! The optional fields. -/

theorem decodeFollow_iff {present : Bool} {own : CueIx} {cue : Byte} {delay : Nat} {o : Option (CueIx × Nat)} :
    decodeFollow present own cue delay = some o ↔ (present = true → cue.toNat ≠ own.val ∧ delay ≤ 60000)
      ∧ o = if present then some (cue.toFin, delay) else none := by
  cases present with
  | false => simp [decodeFollow, eq_comm]
  | true =>
    rw [decodeFollow, if_pos rfl, if_pos rfl, Option.ite_none_right_eq_some, Option.some.injEq, eq_comm (a := o)]
    refine and_congr_left fun _ => ?_
    rw [forall_prop_of_true rfl]
    exact and_congr_left fun _ => not_congr Fin.ext_iff

theorem decodeCallNet_iff {present : Bool} {n : Byte} {o : Option Net} :
    decodeCallNet present n = some o ↔ (present = true → n.toNat < 16)
      ∧ o = if present then some (Fin.ofNat 16 n.toNat) else none := by
  cases present with
  | false => simp [decodeCallNet, eq_comm]
  | true =>
    rw [decodeCallNet, if_pos rfl, if_pos rfl]
    by_cases h : n.toNat < 16
    · rw [ofNat_of_finOf? h]
      simp [h, eq_comm]
    · rw [finOf?_none_of_le (Nat.not_lt.mp h)]
      simp [h]

/-! Cue records. -/

/-- The ranges of a cue entry's fields (R58, R60, R185), for the record of index `own`. -/
def CueRecord.Ranged (own : CueIx) (r : CueRecord) : Prop :=
  r.showWhole ≤ 9999 ∧ r.showPoint ≤ 9 ∧ r.department ≤ 7 ∧ r.ackDeadline ≤ 30000 ∧ 100 ≤ r.goHold ∧ r.goHold ≤ 5000
    ∧ 1 ≤ r.targets.length ∧ r.targets.length ≤ 8 ∧ r.targets.Nodup
    ∧ ∀ f, r.follow = some f → f.1 ≠ own ∧ f.2 ≤ 60000

section

variable (own : CueIx) (fl w0 w1 pt dp ap gp a0 a1 h0 h1 fc f0 f1 cn tc : Byte) (pairs : List Byte)

/-- The record a cue entry spells, its target pairs and policies decoded. -/
def entryCue (ack : AckPolicy) (go : GoPolicy) (ts : List (Station × Lamp)) : CueRecord :=
  { enabled := fl.getLsbD 0, takeOnGo := fl.getLsbD 1, showWhole := fromLe w0 w1, showPoint := pt.toNat,
    department := dp.toNat, targets := ts, ackPolicy := ack, goPolicy := go, ackDeadline := fromLe a0 a1,
    goHold := fromLe h0 h1, follow := if fl.getLsbD 2 then some (fc.toFin, fromLe f0 f1) else none,
    callNet := if fl.getLsbD 3 then some (Fin.ofNat 16 cn.toNat) else none }

/-- A cue entry decodes to the record it spells just where its fields are in range. -/
theorem decodeCue_iff (r : CueRecord) :
    decodeCue own (fl :: w0 :: w1 :: pt :: dp :: ap :: gp :: a0 :: a1 :: h0 :: h1 :: fc :: f0 :: f1 :: cn :: tc :: pairs) = some r
      ↔ ∃ ack go ts, ackPolicyOf? ap.toNat = some ack ∧ goPolicyOf? gp.toNat = some go ∧ decodeTargets tc.toNat pairs = some ts
        ∧ (fl.getLsbD 2 = true → fc.toNat ≠ own.val ∧ fromLe f0 f1 ≤ 60000) ∧ (fl.getLsbD 3 = true → cn.toNat < 16)
        ∧ (fromLe w0 w1 ≤ 9999 ∧ pt.toNat ≤ 9 ∧ dp.toNat ≤ 7 ∧ fromLe a0 a1 ≤ 30000 ∧ 100 ≤ fromLe h0 h1
          ∧ fromLe h0 h1 ≤ 5000 ∧ 1 ≤ tc.toNat ∧ tc.toNat ≤ 8 ∧ ts.Nodup)
        ∧ r = entryCue fl w0 w1 pt dp a0 a1 h0 h1 fc f0 f1 cn ack go ts := by
  unfold decodeCue
  dsimp only
  constructor
  · intro h
    split at h
    case h_2 => cases h
    case h_1 ack go fol net ts hack hgo hfol hnet hts =>
      rw [Option.ite_none_right_eq_some] at h
      obtain ⟨hranged, hr⟩ := h
      obtain ⟨hfollow, rfl⟩ := decodeFollow_iff.mp hfol
      obtain ⟨hcall, rfl⟩ := decodeCallNet_iff.mp hnet
      exact ⟨ack, go, ts, hack, hgo, hts, hfollow, hcall, hranged, (Option.some.inj hr).symm⟩
  · rintro ⟨ack, go, ts, hack, hgo, hts, hfollow, hcall, hranged, rfl⟩
    rw [hack, hgo, hts, decodeFollow_iff.mpr ⟨hfollow, rfl⟩, decodeCallNet_iff.mpr ⟨hcall, rfl⟩]
    exact if_pos hranged

end

theorem decodeCue_ranged {own : CueIx} {bs : List Byte} {r : CueRecord} (h : decodeCue own bs = some r) : r.Ranged own := by
  unfold decodeCue at h
  split at h
  case h_2 => cases h
  case h_1 fl w0 w1 pt dp ap gp a0 a1 h0 h1 fc f0 f1 cn tc pairs =>
    obtain ⟨ack, go, ts, -, -, hts, hfollow, -, ⟨hw, hp, hd, ha, hlo, hhi, hmin, hmax, hnodup⟩, rfl⟩ :=
      (decodeCue_iff own fl w0 w1 pt dp ap gp a0 a1 h0 h1 fc f0 f1 cn tc pairs r).mp h
    have hlen := ((decodeTargets_iff _ _ _).mp hts).1
    refine ⟨hw, hp, hd, ha, hlo, hhi, hlen.symm ▸ hmin, hlen.symm ▸ hmax, hnodup, fun f hf => ?_⟩
    obtain ⟨hbit, hf⟩ := Option.ite_none_right_eq_some.mp hf
    cases hf
    obtain ⟨hne, hdelay⟩ := hfollow hbit
    exact ⟨fun heq => hne (congrArg Fin.val heq), hdelay⟩

/-- A follow's bytes spell it again. -/
theorem follow_encode {o : Option (CueIx × Nat)} (h : ∀ f, o = some f → f.2 ≤ 60000) :
    (if o.isSome then some ((byteOf (o.elim 0 (·.1.val))).toFin, fromLe (byteOf (o.elim 0 (·.2))) (byteOf (o.elim 0 (·.2) / 256)))
      else none) = o := by
  cases o with
  | none => rfl
  | some f =>
    obtain ⟨c, d⟩ := f
    have hd : d ≤ 60000 := h _ rfl
    have hc : (byteOf c.val).toFin = c := Fin.ext (byteOf_toNat c.isLt)
    simp only [Option.isSome_some, if_true, Option.elim_some]
    rw [hc, fromLe_bytes (by omega)]

/-- A call net's byte spells it again. -/
theorem callNet_encode (o : Option Net) :
    (if o.isSome then some (Fin.ofNat 16 (byteOf (o.elim 0 (·.val))).toNat) else none) = o := by
  cases o with
  | none => rfl
  | some n =>
    simp only [Option.isSome_some, if_true, Option.elim_some]
    rw [byteOf_toNat (by omega)]
    exact congrArg some (Fin.ext (Nat.mod_eq_of_lt n.isLt))

theorem decodeCue_encode {own : CueIx} {r : CueRecord} (h : r.Ranged own) : decodeCue own (encodeCue r) = some r := by
  obtain ⟨hw, hp, hd, ha, hlo, hhi, hmin, hmax, hnodup, hfollow⟩ := h
  obtain ⟨b0, b1, b2, b3, -⟩ := flagNibble_bits r.enabled r.takeOnGo r.follow.isSome r.callNet.isSome
  obtain ⟨-, hts, -⟩ := encodeTargets_spec 8 r.targets hmax
  refine (decodeCue_iff own _ _ _ _ _ _ _ _ _ _ _ _ _ _ _ _ _ r).mpr
    ⟨r.ackPolicy, r.goPolicy, r.targets, ackPolicyOf?_code _, goPolicyOf?_code _, ?_, ?_, ?_, ?_, ?_⟩
  · rw [byteOf_toNat (by omega)]
    exact hts
  · rw [b2]
    intro hsome
    obtain ⟨f, hf⟩ := Option.isSome_iff_exists.mp hsome
    obtain ⟨hne, hdelay⟩ := hfollow f hf
    rw [hf]
    refine ⟨fun heq => hne (Fin.ext ?_), ?_⟩
    · exact (byteOf_toNat f.1.isLt).symm.trans heq
    · exact (fromLe_bytes (Nat.lt_of_le_of_lt hdelay (by decide))).trans_le hdelay
  · intro _
    cases r.callNet with
    | none => decide
    | some n => exact (byteOf_toNat (n := n.val) (by omega)).trans_lt n.isLt
  · rw [fromLe_bytes (by omega), fromLe_bytes (by omega), fromLe_bytes (by omega), byteOf_toNat (by omega),
      byteOf_toNat (by omega), byteOf_toNat (by omega)]
    exact ⟨hw, hp, hd, ha, hlo, hhi, hmin, hmax, hnodup⟩
  · unfold entryCue
    rw [b0, b1, b2, b3, follow_encode fun f hf => (hfollow f hf).2, callNet_encode, fromLe_bytes (by omega),
      fromLe_bytes (by omega), fromLe_bytes (by omega), byteOf_toNat (by omega), byteOf_toNat (by omega)]

/-- The bytes of an encoded record that spell nothing are 0. -/
theorem encodeCue_layout {own : CueIx} {r : CueRecord} (h : r.Ranged own) : (encodeCue r).length = 32
    ∧ (r.follow = none → ((encodeCue r).drop 11).take 3 = [0, 0, 0]) ∧ (r.callNet = none → (encodeCue r)[14]? = some 0)
    ∧ (encodeCue r).drop (16 + 2 * r.targets.length) = List.replicate (16 - 2 * r.targets.length) 0 := by
  obtain ⟨-, -, -, -, -, -, -, hmax, -, -⟩ := h
  obtain ⟨hlen, -, hzero⟩ := encodeTargets_spec 8 r.targets hmax
  refine ⟨(congrArg (· + 16) hlen :), fun hnone => ?_, fun hnone => ?_, ?_⟩
  · unfold encodeCue
    rw [hnone]
    rfl
  · unfold encodeCue
    rw [hnone]
    rfl
  · rw [← List.drop_drop]
    exact hzero

end Sys2Proof.Machine
end

section
/-! Write Entries and Read Entries as they are served (R25, R26, R28, R60, R61, R175, R177). -/

namespace Sys2Proof.Machine

/-! The serving of the two requests. -/

theorem exec_writeEntries_serves {s : State} {q : QueuedRequest} {et : Byte} {n : Nat} {bs : List Byte} (h : Serves s q)
    (hq : q.req = .writeEntries et n bs) : exec .writeEntries s = .next (serveWriteEntries q et n bs s) :=
  serving_eq h (by simp only [hq])

theorem exec_readEntries_serves {s : State} {q : QueuedRequest} (h : Serves s q) (hq : q.req = .readEntries) :
    exec .readEntries s = .next (serveReadEntries q s) := serving_eq h (by simp only [hq])

theorem serveWriteEntries_noWindow {q : QueuedRequest} {et : Byte} {n : Nat} {bs : List Byte} {s : State}
    (h : ∀ w, s.mgmt.window = some w → w.owner ≠ q.port) : serveWriteEntries q et n bs s = respond q .noWindow [] s := by
  unfold serveWriteEntries
  cases hw : s.mgmt.window with
  | none => rfl
  | some w => exact if_pos (h w hw)

theorem serveReadEntries_noWindow {q : QueuedRequest} {s : State}
    (h : ∀ w, s.mgmt.window = some w → w.owner ≠ q.port) : serveReadEntries q s = respond q .noWindow [] s := by
  unfold serveReadEntries
  cases hw : s.mgmt.window with
  | none => rfl
  | some w => exact if_pos (h w hw)

theorem serveReadEntries_owner {q : QueuedRequest} {s : State} {w : Window} (hw : s.mgmt.window = some w)
    (ho : w.owner = q.port) : serveReadEntries q s = streamAll 256 (setService (.streaming q.port q.tag 0) s) := by
  unfold serveReadEntries
  rw [hw]
  exact if_neg (not_not_intro ho)

theorem maxEntries_eq (t : Table) : t.maxEntries = if t = .matrix then 8 else 1 := by cases t <;> rfl

section

variable {q : QueuedRequest} {et : Byte} {n : Nat} {bs : List Byte} {s : State} {w : Window}

theorem serveWriteEntries_owner (hw : s.mgmt.window = some w) (ho : w.owner = q.port) :
    serveWriteEntries q et n bs s =
      if et.toNat ≠ w.table.code ∨ (if w.table = .matrix then 8 else 1) < n then respond q .badForm [] s
      else serveEntries q w ((entryLength w.table.code).getD 0) n bs s := by
  unfold serveWriteEntries
  rw [hw, ← maxEntries_eq]
  dsimp only
  rw [if_neg (not_not_intro ho)]
  exact if_congr (by rw [Bool.or_eq_true, decide_eq_true_eq, decide_eq_true_eq]) rfl rfl

end

theorem writeEntry_mgmt (t : Table) (y : Bool) (i : Nat) (bs : List Byte) (s : State) : (writeEntry t y i bs s).2.mgmt = s.mgmt := by
  obtain h | ⟨st, r, -, -, h⟩ | ⟨n, r, h⟩ | ⟨st, n, c, -, h⟩ | ⟨c, r, -, h⟩ := writeEntry_cases t y i bs s
  all_goals rw [h]
  rfl

theorem writeNext_mgmt (w : Window) (bs : List Byte) (s : State) : (writeNext w bs s).2.2.mgmt = s.mgmt := by
  unfold writeNext
  split
  · rfl
  · exact writeEntry_mgmt _ _ _ _ _

theorem writeAll_mgmt (len : Nat) : ∀ (n : Nat) (bs : List Byte) (w : Window) (s : State), (writeAll len n bs w s).2.2.mgmt = s.mgmt
  | 0, _, _, _ => rfl
  | n + 1, bs, w, s => (writeAll_mgmt len n (bs.drop len) _ _).trans (writeNext_mgmt w (bs.take len) s)

theorem serveEntries_eq (q : QueuedRequest) (w : Window) (len n : Nat) (bs : List Byte) (s : State) :
    serveEntries q w len n bs s = respond q .ok (byteOf n :: (writeAll len n bs w s).1.map fun x => byteOf x.code)
      { (writeAll len n bs w s).2.2 with mgmt := { s.mgmt with window := some (writeAll len n bs w s).2.1 } } := by
  rw [← writeAll_mgmt len n bs w s]
  rfl

/-! The entries one by one (R175). -/

theorem writeNext_past {w : Window} {bs : List Byte} {s : State} (h : w.last < w.first + w.advanced) :
    writeNext w bs s = (.windowEnd, w, s) := if_pos h

theorem writeNext_inside {w : Window} {bs : List Byte} {s : State} (h : w.first + w.advanced ≤ w.last) :
    writeNext w bs s = ((writeEntry w.table w.byNet (w.first + w.advanced) bs s).1,
      { w with advanced := w.advanced + 1, check := crc w.check bs },
      (writeEntry w.table w.byNet (w.first + w.advanced) bs s).2) := if_neg (Nat.not_lt.mpr h)

theorem writeAll_succ (len n : Nat) (bs : List Byte) (w : Window) (s : State) : writeAll len (n + 1) bs w s =
    ((writeNext w (bs.take len) s).1 :: (writeAll len n (bs.drop len) (writeNext w (bs.take len) s).2.1
        (writeNext w (bs.take len) s).2.2).1,
      (writeAll len n (bs.drop len) (writeNext w (bs.take len) s).2.1 (writeNext w (bs.take len) s).2.2).2) := rfl

/-! One entry written, by its table (R25, R26, R28, R60, R61). -/

theorem named_of_sharesPort {a b : StationRecord} (ha : a.enabled = true) (hb : b.enabled = true) (h : sharesPort b a = true) :
    ∃ p, a.names p = true ∧ b.names p = true := by
  simp only [sharesPort, Bool.or_eq_true, Bool.and_eq_true, decide_eq_true_eq] at h
  obtain ((h | h) | h) | ⟨hsome, h⟩ := h
  · exact ⟨a.primary, names_iff.mpr ⟨ha, .inl rfl⟩, names_iff.mpr ⟨hb, .inl h⟩⟩
  · exact ⟨b.primary, names_iff.mpr ⟨ha, .inr h⟩, names_iff.mpr ⟨hb, .inl rfl⟩⟩
  · exact ⟨a.primary, names_iff.mpr ⟨ha, .inl rfl⟩, names_iff.mpr ⟨hb, .inr h⟩⟩
  · obtain ⟨p, hp⟩ := Option.isSome_iff_exists.mp hsome
    exact ⟨p, names_iff.mpr ⟨ha, .inr (h ▸ hp)⟩, names_iff.mpr ⟨hb, .inr hp⟩⟩

/-- R25 in the words of the rule: another enabled station names a port of the record. -/
theorem portsTaken_iff {b : Bank} {st : Station} {r : StationRecord} : b.portsTaken st r = true ↔
    r.enabled = true ∧ ∃ u : Station, u ≠ st ∧ b.stations[u].enabled = true
      ∧ ∃ p, b.stations[u].names p = true ∧ r.names p = true := by
  unfold Bank.portsTaken
  rw [Bool.and_eq_true, any_stations]
  refine and_congr_right fun hr => exists_congr fun u => ?_
  rw [Bool.and_eq_true, Bool.and_eq_true, decide_eq_true_eq, and_assoc]
  refine and_congr_right fun _ => and_congr_right fun hu => ⟨fun h => ?_, ?_⟩
  · exact named_of_sharesPort hu hr h
  · rintro ⟨p, hup, hrp⟩
    exact sharesPort_of_named hrp hup

theorem portsTaken_at {b : Bank} {i : Nat} {r : StationRecord} (hi : i < 24) : (b.portsTaken (Fin.ofNat 24 i) r = true) =
    (r.enabled = true ∧ ∃ u : Station, u.val ≠ i ∧ b.stations[u].enabled = true
      ∧ ∃ p, b.stations[u].names p = true ∧ r.names p = true) := by
  have hname : ∀ u : Station, u ≠ Fin.ofNat 24 i ↔ u.val ≠ i := fun u => by
    rw [ne_eq, Fin.ext_iff]
    change ¬ u.val = i % 24 ↔ _
    rw [Nat.mod_eq_of_lt hi]
  rw [propext portsTaken_iff]
  simp only [hname]

theorem cellFits_iff {b : Bank} {st : Station} {n : Net} {c : Cell} : b.cellFits st n c = true ↔
    ¬ ((0 < c.level ∧ 4 ≤ (allNets.filter fun m => m ≠ n ∧ 0 < (b.cell st m).level).length)
      ∨ ∃ m k, m ≠ n ∧ c.key = some k ∧ (b.cell st m).key = some k) := by
  obtain ⟨level, key⟩ := c
  unfold Bank.cellFits Bank.listening
  cases key with
  | none => simp [or_iff_not_imp_left, Nat.pos_iff_ne_zero]
  | some k => simp [or_iff_not_imp_left, Nat.pos_iff_ne_zero, Bank.keyTaken, allNets]

section

variable (y : Bool) (i : Nat) (bs : List Byte) (s : State)

theorem writeEntry_station : writeEntry .stations y i bs s = match decodeStation bs with
    | none => (.badValue, s)
    | some r => if s.edit.portsTaken (Fin.ofNat 24 i) r then (.badValue, s)
        else (.ok, { s with edit := { s.edit with stations := s.edit.stations.set (Fin.ofNat 24 i) r } }) := by
  unfold writeEntry Bank.writeStation
  cases decodeStation bs with
  | none => rfl
  | some r =>
    dsimp only
    cases s.edit.portsTaken (Fin.ofNat 24 i) r <;> rfl

theorem writeEntry_cell : writeEntry .matrix y i bs s = match decodeCell bs with
    | none => (.badValue, s)
    | some c => if s.edit.cellFits (cellAt y i).1 (cellAt y i).2 c then
          (.ok, { s with edit := s.edit.setCell (cellAt y i).1 (cellAt y i).2 c })
        else (.badValue, s) := by
  unfold writeEntry Bank.writeCell
  cases decodeCell bs with
  | none => rfl
  | some c =>
    dsimp only
    cases s.edit.cellFits (cellAt y i).1 (cellAt y i).2 c <;> rfl

theorem writeEntry_net : writeEntry .nets y i bs s = match decodeNet bs with
    | none => (.badValue, s)
    | some r => (.ok, { s with edit := { s.edit with nets := s.edit.nets.set (Fin.ofNat 16 i) r } }) := by
  unfold writeEntry Bank.writeNet
  cases decodeNet bs <;> rfl

theorem writeEntry_cue : writeEntry .cues y i bs s = if s.isActive (Fin.ofNat 256 i) then (.busy, s) else
    match decodeCue (Fin.ofNat 256 i) bs with
    | none => (.badValue, s)
    | some r => (.ok, { s with table := { s.table with records := s.table.records.set (Fin.ofNat 256 i) r } }) := by
  unfold writeEntry writeCue
  cases decodeCue (Fin.ofNat 256 i) bs <;> rfl

end

/-! The spare of a station entry. -/

theorem spareFits_iff {fl pp sp : Byte} (hpp : pp.toNat < 24) :
    ((fl.getLsbD 4 = true → (entrySpare fl sp).isSome = true) ∧ entrySpare fl sp ≠ some (Fin.ofNat 24 pp.toNat)) ↔
      (fl.getLsbD 4 = true → sp.toNat < 24 ∧ sp ≠ pp) := by
  unfold entrySpare
  cases fl.getLsbD 4 with
  | false => simp
  | true =>
    simp only [if_true, forall_const]
    by_cases hsp : sp.toNat < 24
    · rw [ofNat_of_finOf? hsp]
      have hname : Fin.ofNat 24 sp.toNat = Fin.ofNat 24 pp.toNat ↔ sp = pp := by
        rw [Fin.ext_iff, BitVec.toNat_eq]
        change sp.toNat % 24 = pp.toNat % 24 ↔ _
        rw [Nat.mod_eq_of_lt hsp, Nat.mod_eq_of_lt hpp]
      simp only [Option.isSome_some, true_and, hsp, ne_eq, Option.some.injEq, hname]
    · rw [finOf?_none_of_le (Nat.not_lt.mp hsp)]
      simp [hsp]

/-- A station entry out of range is refused; one in range spells its record (R25, R185). -/
theorem decodeStation_bytes (fl kd pp sp cl g0 g1 p0 p1 d0 d1 m0 m1 lc th : Byte) :
    let bs := [fl, kd, pp, sp, cl, g0, g1, p0, p1, d0, d1, m0, m1, lc, th]
    let fits := pp.toNat < 24 ∧ (fl.getLsbD 4 = true → sp.toNat < 24 ∧ sp ≠ pp) ∧ cl.toNat ≤ 3 ∧ fromLe g0 g1 ≤ 256
      ∧ fromLe p0 p1 ≤ 256 ∧ fromLe d0 d1 ≤ 256 ∧ fromLe m0 m1 ≤ 256 ∧ lc.toNat ≤ 4
      ∧ 16 ≤ th.toNat ∧ th.toNat ≤ 248 ∧ th.toNat % 8 = 0
    (kindOf? kd.toNat = none ∨ ¬ fits → decodeStation bs = none)
      ∧ ∀ kind, kindOf? kd.toNat = some kind → fits →
        decodeStation bs = some (entryStation fl sp cl g0 g1 p0 p1 d0 d1 m0 m1 lc th kind (Fin.ofNat 24 pp.toNat)) := by
  intro bs fits
  refine ⟨fun hnot => Option.eq_none_iff_forall_ne_some.mpr fun r hr => ?_, fun kind hkind hfits => ?_⟩
  · obtain ⟨kind, primary, hkind, hprimary, hspare, hranged, -⟩ := (decodeStation_iff _ _ _ _ _ _ _ _ _ _ _ _ _ _ _ r).mp hr
    have hpp : pp.toNat < 24 := lt_of_finOf? hprimary ▸ primary.isLt
    rw [ofNat_of_finOf? hpp] at hprimary
    obtain ⟨hother, hrest⟩ := hranged
    rcases hnot with hnone | hnofit
    · rw [hkind] at hnone
      cases hnone
    · exact hnofit ⟨hpp, (spareFits_iff hpp).mp ⟨hspare, fun heq => hother (heq.trans hprimary)⟩, hrest⟩
  · obtain ⟨hpp, hsp, hrest⟩ := hfits
    obtain ⟨hspare, hother⟩ := (spareFits_iff hpp).mpr hsp
    exact (decodeStation_iff _ _ _ _ _ _ _ _ _ _ _ _ _ _ _ _).mpr
      ⟨kind, _, hkind, ofNat_of_finOf? hpp, hspare, ⟨hother, hrest⟩, rfl⟩

/-- A cell entry by its talk key byte (R28, R185). -/
theorem decodeCell_bytes (l0 l1 k : Byte) :
    (256 < fromLe l0 l1 ∨ (3 < k.toNat ∧ k.toNat < 255) → decodeCell [l0, l1, k] = none)
      ∧ (fromLe l0 l1 ≤ 256 → k = 255 → decodeCell [l0, l1, k] = some ⟨fromLe l0 l1, none⟩)
      ∧ ∀ j : Key, fromLe l0 l1 ≤ 256 → k.toNat = j.val → decodeCell [l0, l1, k] = some ⟨fromLe l0 l1, some j⟩ := by
  rw [decodeCell_eq]
  refine ⟨fun hout => if_neg (by omega), fun hlevel hk => ?_, fun j hlevel hk => ?_⟩
  · subst hk
    exact if_pos ⟨hlevel, .inr rfl⟩
  · rw [if_pos ⟨hlevel, .inl (by omega)⟩, hk, finOf?_val]

/-- A cue entry out of range is refused; one in range spells its record (R58, R60, R185). -/
theorem decodeCue_bytes (own : CueIx) (fl w0 w1 pt dp ap gp a0 a1 h0 h1 fc f0 f1 cn tc : Byte) (pairs : List Byte) :
    let bs := fl :: w0 :: w1 :: pt :: dp :: ap :: gp :: a0 :: a1 :: h0 :: h1 :: fc :: f0 :: f1 :: cn :: tc :: pairs
    let fits := fromLe w0 w1 ≤ 9999 ∧ pt.toNat ≤ 9 ∧ dp.toNat ≤ 7 ∧ fromLe a0 a1 ≤ 30000
      ∧ 100 ≤ fromLe h0 h1 ∧ fromLe h0 h1 ≤ 5000
      ∧ (fl.getLsbD 2 = true → fc.toNat ≠ own.val ∧ fromLe f0 f1 ≤ 60000) ∧ (fl.getLsbD 3 = true → cn.toNat < 16)
      ∧ 1 ≤ tc.toNat ∧ tc.toNat ≤ 8 ∧ (∀ i < tc.toNat, PairFits (pairAt pairs i))
      ∧ ∀ i j : Nat, i < j → j < tc.toNat → pairAt pairs i ≠ pairAt pairs j
    (ackPolicyOf? ap.toNat = none ∨ goPolicyOf? gp.toNat = none ∨ ¬ fits → decodeCue own bs = none)
      ∧ ∀ ack go, ackPolicyOf? ap.toNat = some ack → goPolicyOf? gp.toNat = some go → fits →
        ∃ ts, ts.length = tc.toNat ∧ (∀ (i : Nat) (x : Station × Lamp), ts[i]? = some x → pairAt pairs i = targetPair x)
          ∧ decodeCue own bs = some (entryCue fl w0 w1 pt dp a0 a1 h0 h1 fc f0 f1 cn ack go ts) := by
  intro bs fits
  refine ⟨fun hnot => Option.eq_none_iff_forall_ne_some.mpr fun r hr => ?_, fun ack go hack hgo hfits => ?_⟩
  · obtain ⟨ack, go, ts, hack, hgo, hts, hfollow, hcall, ⟨hw, hp, hd, ha, hlo, hhi, hmin, hmax, hnodup⟩, -⟩ :=
      (decodeCue_iff own fl w0 w1 pt dp ap gp a0 a1 h0 h1 fc f0 f1 cn tc pairs r).mp hr
    rcases hnot with hnone | hnone | hnofit
    · rw [hack] at hnone
      cases hnone
    · rw [hgo] at hnone
      cases hnone
    · exact hnofit ⟨hw, hp, hd, ha, hlo, hhi, hfollow, hcall, hmin, hmax, fun i hi => pairFits_of_decode hts hi,
        (targets_nodup_iff hts).mp hnodup⟩
  · obtain ⟨hw, hp, hd, ha, hlo, hhi, hfollow, hcall, hmin, hmax, hpairs, hne⟩ := hfits
    obtain ⟨ts, hts⟩ := decodeTargets_of_fits hpairs
    obtain ⟨hlen, hat⟩ := (decodeTargets_iff _ _ _).mp hts
    exact ⟨ts, hlen, hat, (decodeCue_iff own fl w0 w1 pt dp ap gp a0 a1 h0 h1 fc f0 f1 cn tc pairs _).mpr
      ⟨ack, go, ts, hack, hgo, hts, hfollow, hcall, ⟨hw, hp, hd, ha, hlo, hhi, hmin, hmax, (targets_nodup_iff hts).mpr hne⟩, rfl⟩⟩

/-- Settles O41: the serving of the two requests, the entries written one by one, and the decoding and reading back of
each kind of entry. -/
theorem writeAndReadEntriesServed : Obligations.WriteAndReadEntriesServed := by
  refine ⟨fun s q hserves => ⟨fun et n bs hq => ⟨fun hwin => ?_, fun w hw ho => ⟨fun hform => ?_, fun hcode hn len hlen => ?_⟩⟩,
      fun hq => ⟨fun hwin => ?_, fun w hw ho => ?_⟩⟩,
    fun len n bs w s => ⟨rfl, fun hpast => ?_, fun hin => ?_⟩,
    fun y i bs s => ⟨fun r hr hi => ⟨fun htaken => ?_, fun hfree => ?_⟩, fun hr => ?_, fun r hr => ?_, fun hr => ?_,
      fun c hc => ⟨fun hrefused => ?_, fun hfits => ?_⟩, fun hc => ?_, fun hactive => ?_, fun hidle hr => ?_,
      fun hidle r hr => ?_⟩,
    fun y i s => ⟨rfl, rfl, rfl, rfl⟩, decodeStation_bytes, decodeNet_eq, decodeCell_bytes, decodeCue_bytes,
    fun bs r hr => ⟨decodeStation_encode (decodeStation_ranged hr), rfl, fun hspare => ?_⟩,
    fun bs r hr => ⟨decodeNet_encode (decodeNet_ranged hr), rfl⟩,
    fun bs c hc => ⟨decodeCell_encode (decodeCell_ranged hc), rfl⟩,
    fun own bs r hr => ⟨decodeCue_encode (decodeCue_ranged hr), encodeCue_layout (decodeCue_ranged hr)⟩⟩
  · rw [exec_writeEntries_serves hserves hq, serveWriteEntries_noWindow hwin]
  · rw [exec_writeEntries_serves hserves hq, serveWriteEntries_owner hw ho, if_pos hform]
  · rw [exec_writeEntries_serves hserves hq, serveWriteEntries_owner hw ho,
      if_neg (not_or.mpr ⟨not_not_intro hcode, Nat.not_lt.mpr hn⟩), ← hcode, hlen, serveEntries_eq] <;> rfl
  · rw [exec_readEntries_serves hserves hq, serveReadEntries_noWindow hwin]
  · rw [exec_readEntries_serves hserves hq, serveReadEntries_owner hw ho] <;> rfl
  · rw [writeAll_succ, writeNext_past hpast]
  · rw [writeAll_succ, writeNext_inside hin]
  · rw [writeEntry_station, hr]
    exact if_pos (portsTaken_at hi ▸ htaken)
  · rw [writeEntry_station, hr]
    exact if_neg fun htaken => hfree (portsTaken_at hi ▸ htaken)
  · rw [writeEntry_station, hr]
  · rw [writeEntry_net, hr]
  · rw [writeEntry_net, hr]
  · rw [writeEntry_cell, hc]
    exact if_neg fun hfits => cellFits_iff.mp hfits hrefused
  · rw [writeEntry_cell, hc]
    exact if_pos (cellFits_iff.mpr hfits)
  · rw [writeEntry_cell, hc]
  · rw [writeEntry_cue, if_pos hactive]
  · rw [writeEntry_cue, hidle, hr] <;> rfl
  · rw [writeEntry_cue, hidle, hr] <;> rfl
  · unfold encodeStation
    rw [hspare]
    rfl

end Sys2Proof.Machine
end

section
/-! Set Mode on LINK: what a judgement leaves of the fault supervisor's state, the warn flags and the failed marks
(R143, R144, R158, R167). -/

namespace Sys2Proof.Machine

/-! What the homing controller leaves of the faults. -/

/-- `t` has the fault supervisor's state of `s`, but for the LINK warn flags and the CUE warn flag, and the link conditions. -/
structure Steady (s t : State) : Prop where
  live : t.live = s.live
  modes : t.faults.modes = s.faults.modes
  resetFlag : t.faults.resetFlag = s.faults.resetFlag
  stations : t.faults.stations = s.faults.stations
  cond : ∀ p : Port, t.ports[p].cond = s.ports[p].cond
  ports : ∀ p : Port, t.faults.ports[p] = { s.faults.ports[p] with linkWarn := t.faults.ports[p].linkWarn }

namespace Steady

theorem refl (s : State) : Steady s s := ⟨rfl, rfl, rfl, rfl, fun _ => rfl, fun _ => rfl⟩

theorem trans {s t u : State} (h : Steady s t) (k : Steady t u) : Steady s u := by
  refine ⟨k.live.trans h.live, k.modes.trans h.modes, k.resetFlag.trans h.resetFlag, k.stations.trans h.stations,
    fun p => (k.cond p).trans (h.cond p), fun p => (k.ports p).trans ?_⟩
  exact congrArg (fun f : PortFaults => { f with linkWarn := u.faults.ports[p].linkWarn }) (h.ports p)

theorem foldl {α : Type} {f : State → α → State} (h : ∀ s a, Steady s (f s a)) (l : List α) (s : State) :
    Steady s (l.foldl f s) :=
  foldl_keeps (P := Steady s) (fun t a ht => ht.trans (h t a)) l (refl s)

theorem linkCond {s t : State} (h : Steady s t) (p : Port) : t.faults.ports[p].linkCond = s.faults.ports[p].linkCond := by
  rw [h.ports p]

theorem supCond {s t : State} (h : Steady s t) (p : Port) : t.supCond p = s.supCond p := by
  rw [State.supCond, State.supCond, h.live, h.linkCond]

end Steady

theorem Eased.cond {u v : PortUnit} (h : Eased u v) : v.cond = u.cond := by
  rcases h with h | h <;> rw [h]

theorem Moves.faultPorts {s t : State} (h : Moves s t) : t.faults.ports = s.faults.ports := by rw [h.rest]

theorem Moves.steady {s t : State} (h : Moves s t) : Steady s t :=
  ⟨h.live, h.modes, by rw [h.rest], h.stations, fun p => (h.ports p).cond, fun p => by rw [h.faultPorts]⟩

theorem broadcast_faultPorts (m : Message) (s : State) : (broadcast m s).faults.ports = s.faults.ports :=
  (broadcast_moves m s).faultPorts

theorem raisedWith_moves (p : Port) (st : Station) (m : Byte) (active : Prop) [Decidable active] (s : State) :
    Moves s (raisedWith p st m active s) := broadcast_moves _ s

/-! The mode applied to one port. -/

/-- The LINK warn flag of a port set. -/
def warned (p : Port) (s : State) : State :=
  { s with faults := { s.faults with ports := upd s.faults.ports p fun f => { f with linkWarn := true } } }

theorem warned_flag (p q : Port) (s : State) : (warned p s).faults.ports[q]
    = { s.faults.ports[q] with linkWarn := s.faults.ports[q].linkWarn || decide (q = p) } := by
  rw [warned, upd_get]
  by_cases h : p = q
  · rw [if_pos h, decide_eq_true h.symm, Bool.or_true]
  · rw [if_neg h, decide_eq_false (Ne.symm h), Bool.or_false]

theorem warned_steady (p : Port) (s : State) : Steady s (warned p s) :=
  ⟨rfl, rfl, rfl, rfl, fun _ => rfl, fun q => by rw [warned_flag]⟩

/-- A condition's beginning moves homing alone, or under WARN sets its warn flag and reports. -/
theorem linkBegun_cases (p : Port) (st : Station) (s : State) :
    (s.faults.modes.link ≠ .warn ∧ Moves s (linkBegun p st s))
      ∨ (s.faults.modes.link = .warn ∧ linkBegun p st s = raisedWith p st 4 (s.homing[st].active = some p) (warned p s)) := by
  rw [linkBegun_eq]
  have hact : ∀ m : Byte, Moves s (if s.homing[st].active = some p
      then linkFault st (raisedWith p st m (s.homing[st].active = some p) s)
      else raisedWith p st m (s.homing[st].active = some p) s) := fun m => by
    split
    · exact (raisedWith_moves p st m _ s).trans (linkFault_moves st _)
    · exact raisedWith_moves p st m _ s
  cases s.faults.modes.link with
  | latched => exact .inl ⟨by decide, hact 1⟩
  | auto => exact .inl ⟨by decide, hact 2⟩
  | warn => exact .inr ⟨rfl, rfl⟩
  | rekey => exact .inl ⟨by decide, .refl s⟩
  | off => exact .inl ⟨by decide, .refl s⟩

theorem relink_eq (s : State) (p : Port) : relink s p = match s.live.serves p with
    | some st => if s.faults.ports[p].linkCond then linkBegun p st s else s
    | none => s := by
  rw [relink, State.supCond]
  cases s.live.serves p <;> rfl

theorem relink_absent {s : State} {p : Port} (h : s.supCond p = false) : relink s p = s := by
  rw [relink, h]
  cases s.live.serves p <;> rfl

/-- A port's warn flag after the mode is applied to it: set where WARN and the condition call for it. -/
theorem relink_spec (s : State) (p : Port) : Steady s (relink s p) ∧ ∀ q : Port, (relink s p).faults.ports[q].linkWarn
    = (s.faults.ports[q].linkWarn || (decide (q = p) && (decide (s.faults.modes.link = .warn) && s.supCond p))) := by
  cases hc : s.supCond p with
  | false =>
    rw [relink_absent hc]
    exact ⟨.refl s, fun q => by rw [Bool.and_false, Bool.and_false, Bool.or_false]⟩
  | true =>
    have hserved := (Bool.and_eq_true_iff.mp hc).1
    obtain ⟨st, hst⟩ := Option.isSome_iff_exists.mp hserved
    have hrun : relink s p = linkBegun p st s := by
      rw [relink, hst, hc]
      rfl
    rw [hrun]
    obtain ⟨hmode, h⟩ | ⟨hmode, h⟩ := linkBegun_cases p st s
    · refine ⟨h.steady, fun q => ?_⟩
      rw [h.faultPorts, decide_eq_false hmode, Bool.false_and, Bool.and_false, Bool.or_false]
    · rw [h]
      refine ⟨(warned_steady p s).trans (raisedWith_moves p st 4 _ _).steady, fun q => ?_⟩
      rw [(raisedWith_moves p st 4 _ _).faultPorts, warned_flag, decide_eq_true hmode, Bool.true_and, Bool.and_true]

theorem relinks_steady (l : List Port) (s : State) : Steady s (l.foldl relink s) := .foldl (fun t p => (relink_spec t p).1) l s

theorem relinks_warn (q : Port) : ∀ (l : List Port) (s : State), (l.foldl relink s).faults.ports[q].linkWarn
    = (s.faults.ports[q].linkWarn || (decide (q ∈ l) && (decide (s.faults.modes.link = .warn) && s.supCond q)))
  | [], s => by simp [-Fin.getElem_fin]
  | p :: l, s => by
    obtain ⟨hsteady, hwarn⟩ := relink_spec s p
    rw [List.foldl_cons, relinks_warn q l, hwarn, hsteady.modes, hsteady.supCond, Bool.or_assoc]
    refine congrArg (s.faults.ports[q].linkWarn || ·) ?_
    by_cases h : q = p
    · subst h
      simp
    · simp [h]

/-! The failed marks under a mode that hands no LINK fault. -/

/-- `t` has the failed marks of `s`. -/
def SameMarks (s t : State) : Prop :=
  ∀ st : Station, t.homing[st].primFailed = s.homing[st].primFailed ∧ t.homing[st].spareFailed = s.homing[st].spareFailed

theorem sameMarks_of_homing {s t : State} (h : t.homing = s.homing) : SameMarks s t := fun st => by rw [h]; exact ⟨rfl, rfl⟩

theorem SameMarks.trans {s t u : State} (h : SameMarks s t) (k : SameMarks t u) : SameMarks s u :=
  fun st => ⟨(k st).1.trans (h st).1, (k st).2.trans (h st).2⟩

theorem returnOn_sameMarks (st : Station) (p : Port) (hs : HomingState) (s : State) : SameMarks s (returnOn st p hs s) := by
  have hhoming : (returnOn st p hs s).homing = upd s.homing st fun h => { h with state := hs, active := some p } := by
    rw [returnOn, reportHoming, (broadcast_only _ _).homing, (cueReturned_only st _).homing]
    rfl
  intro x
  rw [hhoming, upd_get]
  split <;> exact ⟨rfl, rfl⟩

theorem tryReturn_sameMarks (st : Station) (s : State) : SameMarks s (tryReturn st s) := by
  unfold tryReturn
  split
  · split
    · exact returnOn_sameMarks st _ _ s
    · split
      · split
        · exact returnOn_sameMarks st _ _ s
        · exact sameMarks_of_homing rfl
      · exact sameMarks_of_homing rfl
  · exact sameMarks_of_homing rfl

/-- A mode under which a condition hands no LINK fault. -/
def Mode.idle (m : Mode) : Prop := m = .warn ∨ m = .off

theorem otherPortJudged_idle {s : State} (h : s.faults.modes.link.idle) (st : Station) : otherPortJudged st s = s := by
  have hacts : s.linkActs = false := by
    rw [State.linkActs]
    rcases h with h | h <;> rw [h] <;> rfl
  unfold otherPortJudged
  rw [hacts]
  split
  · exact if_neg (by simp)
  · rfl

theorem portsJudged_idle {s : State} (h : s.faults.modes.link.idle) (st : Station) : SameMarks s (portsJudged st s) := by
  unfold portsJudged
  split
  · exact tryReturn_sameMarks st s
  · rw [otherPortJudged_idle h]
    exact sameMarks_of_homing rfl

theorem linkBegun_idle {s : State} (h : s.faults.modes.link.idle) (p : Port) (st : Station) : SameMarks s (linkBegun p st s) := by
  rw [linkBegun_eq]
  rcases h with h | h <;> rw [h]
  · exact sameMarks_of_homing (broadcast_only _ _).homing
  · exact sameMarks_of_homing rfl

theorem relink_idle {s : State} (h : s.faults.modes.link.idle) (p : Port) : SameMarks s (relink s p) := by
  unfold relink
  split
  · split
    · exact linkBegun_idle h p _
    · exact sameMarks_of_homing rfl
  · exact sameMarks_of_homing rfl

/-- Steps that are steady and keep the marks in an idle mode keep them one after another. -/
theorem sameMarks_foldl {α : Type} {f : State → α → State} (hsteady : ∀ s a, Steady s (f s a))
    (hmarks : ∀ s a, s.faults.modes.link.idle → SameMarks s (f s a)) :
    ∀ (l : List α) (s : State), s.faults.modes.link.idle → SameMarks s (l.foldl f s)
  | [], s, _ => sameMarks_of_homing rfl
  | a :: l, s, h => (hmarks s a h).trans (sameMarks_foldl hsteady hmarks l _ ((hsteady s a).modes ▸ h))

/-! Set Mode on LINK as a whole. -/

/-- The failed marks and the LINK warn flags cleared. -/
def linkCleared (s : State) : State :=
  { s with homing := s.homing.map fun h => { h with primFailed := false, spareFailed := false },
           faults := { s.faults with ports := s.faults.ports.map fun f => { f with linkWarn := false } } }

/-- The stations that lose a mark judge their ports. -/
def linkJudged (s : State) : State :=
  (allStations.filter fun st => s.homing[st].primFailed || s.homing[st].spareFailed).foldl (fun a st => portsJudged st a)
    (linkCleared s)

theorem linkJudged_moves (s : State) : Moves (linkCleared s) (linkJudged s) := Moves.foldl (fun t st => portsJudged_moves st t) _ _

theorem evalLink_eq (s : State) : evalLink s = allPorts.foldl relink (linkJudged s) := rfl

theorem linkCleared_warn (s : State) (p : Port) : (linkCleared s).faults.ports[p].linkWarn = false := by
  rw [linkCleared]
  simp

theorem linkCleared_linkCond (s : State) (p : Port) : (linkCleared s).faults.ports[p].linkCond = s.faults.ports[p].linkCond := by
  rw [linkCleared]
  simp

theorem linkCleared_marks (s : State) (st : Station) :
    (linkCleared s).homing[st].primFailed = false ∧ (linkCleared s).homing[st].spareFailed = false := by
  rw [linkCleared]
  simp

theorem evalLink_steady (s : State) : Steady (linkCleared s) (evalLink s) := by
  rw [evalLink_eq]
  exact (linkJudged_moves s).steady.trans (relinks_steady _ _)

theorem evalLink_warn (s : State) (p : Port) : (evalLink s).faults.ports[p].linkWarn
    = (decide (s.faults.modes.link = .warn) && s.supCond p) := by
  have hcond : (linkCleared s).supCond p = s.supCond p := by
    rw [State.supCond, State.supCond, linkCleared_linkCond]
    rfl
  have hall : decide (p ∈ allPorts) = true := decide_eq_true (List.mem_finRange p)
  rw [evalLink_eq, relinks_warn, (linkJudged_moves s).faultPorts, linkCleared_warn, (linkJudged_moves s).steady.modes,
    (linkJudged_moves s).steady.supCond, hcond, Bool.false_or, hall, Bool.true_and]
  rfl

theorem evalLink_marks {s : State} (h : s.faults.modes.link.idle) (st : Station) :
    (evalLink s).homing[st].primFailed = false ∧ (evalLink s).homing[st].spareFailed = false := by
  have hjudged : SameMarks (linkCleared s) (linkJudged s) :=
    sameMarks_foldl (fun t u => (portsJudged_moves u t).steady) (fun t u ht => portsJudged_idle ht u) _ _ h
  have hidle : (linkJudged s).faults.modes.link.idle := (linkJudged_moves s).modes.symm ▸ h
  have hrelinked := sameMarks_foldl (fun t p => (relink_spec t p).1) (fun t p ht => relink_idle ht p) allPorts _ hidle
  rw [evalLink_eq]
  obtain ⟨h1, h2⟩ := (hjudged.trans hrelinked) st
  obtain ⟨k1, k2⟩ := linkCleared_marks s st
  exact ⟨h1.trans k1, h2.trans k2⟩

end Sys2Proof.Machine
end

section
/-! Set Mode on OVERLOAD and CLIP: the new mode applied to each station in turn (R160, R164, R167). -/

namespace Sys2Proof.Machine

/-! Reports to the management ports, whatever else is changed between them. -/

theorem HearsAs.of_out {s t u : State} (h : HearsAs u s) (hlive : t.live = s.live) (hhoming : t.homing = s.homing)
    (hports : t.ports = s.ports) (hout : t.out = s.out) : HearsAs u t :=
  ⟨hlive.trans h.live, hhoming.trans h.homing, fun p => by rw [State.linkUp, hports]; exact h.linkUp p, hout.trans h.out⟩

/-- A change made at each entry of a list is one made by a function of the index. -/
theorem upd_apply {α : Type} {n : Nat} (v : Vector α n) (i j : Fin n) (f : α → α) :
    (upd v i f)[j] = if j = i then f v[j] else v[j] := by
  rw [upd_get]
  exact if_congr eq_comm rfl rfl

/-- A fold over the picked entries of a list, its head first. -/
theorem foldl_filter_cons {α β : Type} (f : β → α → β) (pick : α → Bool) (x : α) (l : List α) (b : β) :
    ((x :: l).filter pick).foldl f b = (l.filter pick).foldl f (if pick x then f b x else b) := by
  rw [List.filter_cons]
  split <;> rfl

/-! OVERLOAD (R160, R167). -/

section

variable (m : Mode) (s : State) (st : Station)

/-- Whether a station is muted by OVERLOAD mode `m`. -/
def State.mutesUnder : Bool :=
  s.faults.stations[st].overCond && (m = .latched || (m = .rekey && (s.station st).kind ≠ .source))

/-- Whether a station takes a warn flag by OVERLOAD mode `m`. -/
def State.warnsUnder : Bool := s.faults.stations[st].overCond && (m = .warn || (m = .rekey && (s.station st).kind = .source))

/-- Whether a station's condition is reported by OVERLOAD mode `m`. -/
def State.raisesUnder : Bool := s.faults.stations[st].overCond && m ≠ .off

/-- A station's overload state once the mode is applied to it. -/
def State.overloaded (f : StationFaults) : StationFaults :=
  { f with mute := if s.mutesUnder m st then (if m = .latched then .latched else .rekey) else f.mute,
           overWarn := s.warnsUnder m st || f.overWarn }

/-- The mode applied to a station, before its report. -/
def overloadSet : State :=
  { s with arb := if s.mutesUnder m st then Arbiter.withdraw s.live st .mute s.arb else s.arb,
           faults := { s.faults with stations := upd s.faults.stations st (s.overloaded m st) } }

/-- FAULT_RAISED for class OVERLOAD in mode `m`. -/
def overRaised : State := broadcast (reportOf 0xE0 [2, 0xFF, byteOf st.val, byteOf m.code, 0]) s

end

section

variable {m : Mode} {s t : State} {st : Station}

theorem mutesUnder_congr (hl : t.live = s.live) (hc : t.faults.stations[st].overCond = s.faults.stations[st].overCond) :
    t.mutesUnder m st = s.mutesUnder m st := by
  rw [State.mutesUnder, State.mutesUnder, hc, State.station, State.station, hl]

theorem raisesUnder_congr (hc : t.faults.stations[st].overCond = s.faults.stations[st].overCond) :
    t.raisesUnder m st = s.raisesUnder m st := by
  rw [State.raisesUnder, State.raisesUnder, hc]

theorem overloaded_congr (hl : t.live = s.live) (hc : t.faults.stations[st].overCond = s.faults.stations[st].overCond) :
    t.overloaded m st = s.overloaded m st := by
  have hwarns : t.warnsUnder m st = s.warnsUnder m st := by
    rw [State.warnsUnder, State.warnsUnder, hc, State.station, State.station, hl]
  funext f
  rw [State.overloaded, State.overloaded, mutesUnder_congr hl hc, hwarns]

end

theorem upd_keep {α : Type} {n : Nat} (v : Vector α n) (i : Fin n) : upd v i (fun x => x) = v :=
  vector_ext_fin fun j => by rw [upd_apply]; exact ite_self _

theorem overloaded_calm {m : Mode} {s : State} {st : Station} (h : s.faults.stations[st].overCond = false) :
    overloadSet m s st = s := by
  have hm : s.mutesUnder m st = false := by rw [State.mutesUnder, h, Bool.false_and]
  have hw : s.warnsUnder m st = false := by rw [State.warnsUnder, h, Bool.false_and]
  have hf : s.overloaded m st = fun f => f := by
    funext f
    rw [State.overloaded, hm, hw]
    rfl
  rw [overloadSet, hm, hf, upd_keep]
  rfl

theorem overloadSet_off (s : State) (st : Station) : overloadSet .off s st = s := by
  have hm : s.mutesUnder .off st = false := by simp [State.mutesUnder]
  have hw : s.warnsUnder .off st = false := by simp [State.warnsUnder]
  have hf : s.overloaded .off st = fun f => f := by
    funext f
    rw [State.overloaded, hm, hw]
    rfl
  rw [overloadSet, hm, hf, upd_keep]
  rfl

/-- The act of a mode on a station whose condition stands and that is not muted. -/
theorem overloadAct_eq {m : Mode} {s : State} {st : Station} (hp : permits .overload m = true)
    (hc : s.faults.stations[st].overCond = true) (hmute : s.mute st = .none) : overloadAct st m s = overloadSet m s st := by
  have hset : ∀ g : StationFaults → StationFaults, ∀ b : Bool, s.mutesUnder m st = b → s.overloaded m st = g →
      overloadSet m s st = { s with
        arb := if b then Arbiter.withdraw s.live st .mute s.arb else s.arb,
        faults := { s.faults with stations := upd s.faults.stations st g } } := by
    rintro g b rfl rfl
    rfl
  have hmutes : s.mutesUnder m st = (m = .latched || (m = .rekey && (s.station st).kind ≠ .source) : Bool) := by
    rw [State.mutesUnder, hc, Bool.true_and]
  have hwarns : s.warnsUnder m st = (m = .warn || (m = .rekey && (s.station st).kind = .source) : Bool) := by
    rw [State.warnsUnder, hc, Bool.true_and]
  unfold overloadAct
  cases m with
  | latched =>
    dsimp only
    rw [if_pos hmute, hset (fun f => { f with mute := .latched }) true hmutes ?_]
    · rfl
    · funext f
      rw [State.overloaded, hmutes, hwarns]
      rfl
  | rekey =>
    dsimp only
    by_cases hk : (s.station st).kind = .source
    · rw [if_pos hk, hset (fun f => { f with overWarn := true }) false ?_ ?_]
      · rfl
      · rw [hmutes, hk]
        rfl
      · funext f
        rw [State.overloaded, hmutes, hwarns, hk]
        rfl
    · have hk' : s.mutesUnder .rekey st = true := by
        rw [hmutes]
        simpa using hk
      have hw' : s.warnsUnder .rekey st = false := by
        rw [hwarns]
        simpa using hk
      rw [if_neg hk, if_pos hmute, hset (fun f => { f with mute := .rekey }) true hk' ?_]
      · rfl
      · funext f
        rw [State.overloaded, hk', hw']
        rfl
  | warn =>
    rw [hset (fun f => { f with overWarn := true }) false hmutes ?_]
    · rfl
    · funext f
      rw [State.overloaded, hmutes, hwarns]
      rfl
  | auto => cases hp
  | off => exact (overloadSet_off s st).symm

/-- The mode applied to one station. -/
theorem reoverload_eq {m : Mode} {s : State} {st : Station} (hm : s.faults.modes.overload = m)
    (hp : permits .overload m = true) (hmute : s.mute st = .none) : reoverload s st =
      if s.raisesUnder m st then overRaised m (overloadSet m s st) st else overloadSet m s st := by
  unfold reoverload State.raisesUnder
  cases hc : s.faults.stations[st].overCond with
  | false => exact (overloaded_calm hc).symm
  | true =>
    unfold overloadBegun
    dsimp only
    rw [if_pos rfl, hm, overloadAct_eq hp hc hmute]
    by_cases hoff : m = .off
    · subst hoff
      exact (overloadSet_off s st).symm
    · rw [if_neg hoff, if_pos (by simpa using hoff)]
      rfl

/-- What the mode applied to one station leaves alone, and what it sets. -/
theorem reoverload_spec {m : Mode} {s : State} {st : Station} (hm : s.faults.modes.overload = m)
    (hp : permits .overload m = true) (hmute : s.mute st = .none) :
    let t := reoverload s st
    t = { s with arb := t.arb, out := t.out, faults := { s.faults with stations := t.faults.stations } }
      ∧ t.faults.stations = upd s.faults.stations st (s.overloaded m st)
      ∧ t.arb = (if s.mutesUnder m st then Arbiter.withdraw s.live st .mute s.arb else s.arb)
      ∧ ∀ u, HearsAs u s →
        HearsAs (if s.raisesUnder m st then overRaised m u st else u) t := by
  dsimp only
  rw [reoverload_eq hm hp hmute]
  have hears : ∀ u, HearsAs u s → HearsAs u (overloadSet m s st) := fun u h => h.of_out rfl rfl rfl rfl
  split
  · have hrest : overRaised m (overloadSet m s st) st
        = { overloadSet m s st with out := (overRaised m (overloadSet m s st) st).out } := broadcast_rest _ _
    refine ⟨?_, ?_, ?_, fun u h => (hears u h).broadcast _⟩
    · rw [hrest]
      rfl
    · rw [hrest]
      rfl
    · rw [hrest]
      rfl
  · exact ⟨rfl, rfl, rfl, hears⟩

/-- The mode applied to the stations of a list in turn. -/
theorem reoverloads_spec {m : Mode} (hp : permits .overload m = true) : ∀ (l : List Station) (s : State),
    s.faults.modes.overload = m → l.Nodup → (∀ st ∈ l, s.mute st = .none) →
    let t := l.foldl reoverload s
    t = { s with arb := t.arb, out := t.out, faults := { s.faults with stations := t.faults.stations } }
      ∧ (∀ x : Station, t.faults.stations[x] = if x ∈ l then s.overloaded m x s.faults.stations[x] else s.faults.stations[x])
      ∧ t.arb = (l.filter (s.mutesUnder m)).foldl (fun a st => Arbiter.withdraw s.live st .mute a) s.arb
      ∧ ∀ u, HearsAs u s → HearsAs ((l.filter (s.raisesUnder m)).foldl (overRaised m) u) t
  | [], s, _, _, _ => ⟨rfl, fun x => rfl, rfl, fun u h => h⟩
  | st :: l, s, hm, hnodup, hmute => by
    obtain ⟨hfresh, hnodup⟩ := List.nodup_cons.mp hnodup
    obtain ⟨hrest, hset, harb, hears⟩ := reoverload_spec hm hp (hmute st List.mem_cons_self)
    rw [List.foldl_cons]
    generalize reoverload s st = v at hrest hset harb hears
    have hlive : v.live = s.live := by rw [hrest]
    have hmode : v.faults.modes.overload = m := by rw [hrest]; exact hm
    have hcond : ∀ x : Station, v.faults.stations[x].overCond = s.faults.stations[x].overCond := fun x => by
      rw [hset, upd_apply]
      split <;> rfl
    have hother : ∀ x ∈ l, v.faults.stations[x] = s.faults.stations[x] := fun x hx => by
      rw [hset, upd_apply]
      exact if_neg fun h : x = st => hfresh (h ▸ hx)
    obtain ⟨krest, kset, karb, khears⟩ := reoverloads_spec hp l v hmode hnodup fun x hx => by
      rw [State.mute, hother x hx]
      exact hmute x (List.mem_cons_of_mem _ hx)
    refine ⟨?_, fun x => ?_, ?_, fun u hu => ?_⟩
    · exact krest.trans (congrArg (fun w : State => { w with
        arb := (l.foldl reoverload v).arb, out := (l.foldl reoverload v).out,
        faults := { w.faults with stations := (l.foldl reoverload v).faults.stations } }) hrest)
    · rw [kset x]
      by_cases hx : x ∈ l
      · rw [if_pos hx, if_pos (List.mem_cons_of_mem _ hx), hother x hx, overloaded_congr hlive (hcond x)]
      · rw [if_neg hx, hset, upd_apply]
        by_cases heq : x = st
        · subst heq
          rw [if_pos rfl, if_pos List.mem_cons_self]
        · rw [if_neg heq, if_neg fun h => (List.mem_cons.mp h).elim heq hx]
    · rw [karb, harb, hlive, show v.mutesUnder m = s.mutesUnder m from funext fun x => mutesUnder_congr hlive (hcond x),
        foldl_filter_cons]
    · have key := khears _ (hears u hu)
      rw [show v.raisesUnder m = s.raisesUnder m from funext fun x => raisesUnder_congr (hcond x)] at key
      rw [foldl_filter_cons]
      exact key

end Sys2Proof.Machine
end

section
/-! Set Mode class by class, and the mutes a Clear Faults ends (R160, R164, R166, R167). -/

namespace Sys2Proof.Machine

/-! Set Mode on OVERLOAD as a whole. -/

theorem station_listed (st : Station) : st ∈ allStations := List.mem_finRange st

/-- OVERLOAD_MUTE_ENDED by a Set Mode. -/
def unmuteReported (a : State) (st : Station) : State := broadcast (reportOf 0xE2 [byteOf st.val, 3]) a

/-- The mutes that ended and did not begin again are reported in turn. -/
theorem reportsUnmuted_spec (was : Vector StationFaults 24) : ∀ (l : List Station) (s : State),
    let t := l.foldl (reportUnmuted was) s
    t = { s with out := t.out }
      ∧ ∀ u, HearsAs u s →
        HearsAs ((l.filter fun st => was[st].mute ≠ .none && s.mute st = .none).foldl unmuteReported u) t
  | [], s => ⟨rfl, fun u h => h⟩
  | st :: l, s => by
    have hstep : reportUnmuted was s st = { s with out := (reportUnmuted was s st).out } := by
      unfold reportUnmuted
      split
      · exact broadcast_rest _ s
      · rfl
    have hears : ∀ u, HearsAs u s →
        HearsAs (if was[st].mute ≠ .none && s.mute st = .none then unmuteReported u st else u) (reportUnmuted was s st) := by
      intro u hu
      unfold reportUnmuted
      split
      · exact hu.broadcast _
      · exact hu
    rw [List.foldl_cons]
    generalize reportUnmuted was s st = v at hstep hears
    obtain ⟨hrest, khears⟩ := reportsUnmuted_spec was l v
    have hmute : v.mute = s.mute := by rw [hstep]; rfl
    refine ⟨hrest.trans (congrArg (fun w : State => { w with out := (l.foldl (reportUnmuted was) v).out }) hstep), fun u hu => ?_⟩
    have key := khears _ (hears u hu)
    rw [hmute] at key
    rw [foldl_filter_cons]
    exact key

/-- The mutes ended and the OVERLOAD warn flags cleared. -/
def overloadCleared (s : State) : State := s.modAllStFaults fun f => { f with mute := .none, overWarn := false }

theorem evalOverload_eq (s : State) : evalOverload s =
    allStations.foldl (reportUnmuted s.faults.stations) (allStations.foldl reoverload (overloadCleared s)) := rfl

theorem overloadCleared_station (s : State) (st : Station) :
    (overloadCleared s).faults.stations[st] = { s.faults.stations[st] with mute := .none, overWarn := false } := by
  simp [overloadCleared, State.modAllStFaults]

theorem overloadCleared_rest (s : State) :
    overloadCleared s = { s with faults := { s.faults with stations := (overloadCleared s).faults.stations } } := rfl

/-- Set Mode on OVERLOAD: the mutes and warn flags of the new mode, the reports of the conditions, and then those of the
mutes that ended. -/
theorem evalOverload_spec {m : Mode} {s : State} (hm : s.faults.modes.overload = m) (hp : permits .overload m = true) :
    let t := evalOverload s
    t = { s with arb := t.arb, out := t.out, faults := { s.faults with stations := t.faults.stations } }
      ∧ (∀ x : Station, t.faults.stations[x] = { s.faults.stations[x] with
          mute := if s.mutesUnder m x then (if m = .latched then .latched else .rekey) else .none,
          overWarn := s.warnsUnder m x })
      ∧ t.arb = (allStations.filter (s.mutesUnder m)).foldl (fun a st => Arbiter.withdraw s.live st .mute a) s.arb
      ∧ ∀ u, HearsAs u s → t.out = ((allStations.filter fun st =>
          s.faults.stations[st].mute ≠ .none && !s.mutesUnder m st).foldl unmuteReported
            ((allStations.filter (s.raisesUnder m)).foldl (overRaised m) u)).out := by
  have hcond : ∀ x : Station, (overloadCleared s).faults.stations[x].overCond = s.faults.stations[x].overCond := fun x => by
    rw [overloadCleared_station]
  have hover : ∀ x : Station, (overloadCleared s).overloaded m x = s.overloaded m x := fun x => overloaded_congr rfl (hcond x)
  obtain ⟨hrest, hset, harb, hears⟩ := reoverloads_spec hp allStations (overloadCleared s) hm (List.nodup_finRange 24)
    fun st _ => by rw [State.mute, overloadCleared_station]
  rw [show (overloadCleared s).mutesUnder m = s.mutesUnder m from funext fun x => mutesUnder_congr rfl (hcond x)] at harb
  rw [show (overloadCleared s).raisesUnder m = s.raisesUnder m from funext fun x => raisesUnder_congr (hcond x)] at hears
  rw [evalOverload_eq]
  generalize allStations.foldl reoverload (overloadCleared s) = v at hrest hset harb hears
  have hstation : ∀ x : Station, v.faults.stations[x] = { s.faults.stations[x] with
      mute := if s.mutesUnder m x then (if m = .latched then .latched else .rekey) else .none,
      overWarn := s.warnsUnder m x } := fun x => by
    rw [hset x, if_pos (station_listed x), hover, overloadCleared_station, State.overloaded, Bool.or_false]
  obtain ⟨krest, khears⟩ := reportsUnmuted_spec s.faults.stations allStations v
  generalize allStations.foldl (reportUnmuted s.faults.stations) v = t at krest khears
  have hfaults : t.faults = v.faults := by rw [krest]
  have hkept : t.arb = v.arb := by rw [krest]
  have hmuted : ∀ x : Station, decide (v.mute x = .none) = !s.mutesUnder m x := fun x => by
    rw [State.mute, hstation x]
    cases s.mutesUnder m x with
    | false => rfl
    | true => by_cases hl : m = .latched <;> simp [hl]
  refine ⟨?_, fun x => ?_, hkept.trans harb, fun u hu => ?_⟩
  · have hrest' : v = { s with arb := v.arb, out := v.out, faults := { s.faults with stations := v.faults.stations } } := hrest
    rw [hfaults, hkept]
    exact krest.trans (congrArg (fun w : State => { w with out := t.out }) hrest')
  · dsimp only
    rw [hfaults, hstation x]
  · have key := (khears _ (hears u (hu.of_out rfl rfl rfl rfl))).out
    have hpick : (fun st : Station => (s.faults.stations[st].mute ≠ .none && v.mute st = .none : Bool))
        = fun st => (s.faults.stations[st].mute ≠ .none && !s.mutesUnder m st : Bool) := funext fun x => by
      rw [← hmuted x]
    rw [hpick] at key
    exact key

/-! Set Mode on CLIP (R164, R167). -/

/-- Whether a station takes a CLIP warn flag. -/
def State.clipsUnder (s : State) (st : Station) : Bool := s.faults.modes.clip = .warn && s.mix.clip[st]

/-- CLIP_WARN. -/
def clipReported (a : State) (st : Station) : State := broadcast (reportOf 0xE4 [byteOf st.val]) a

theorem reclip_eq {s : State} {st : Station} (h : s.faults.stations[st].clipWarn = false) : reclip s st =
    if s.clipsUnder st then clipReported (s.modStFaults st fun f => { f with clipWarn := true }) st else s := by
  unfold reclip clipPresent State.clipsUnder
  rw [h, Bool.not_false, Bool.and_true]
  cases s.mix.clip[st] with
  | false => rw [Bool.and_false, if_neg (by decide), if_neg (by decide)]
  | true => rw [Bool.and_true, if_pos rfl] <;> rfl

theorem reclips_spec : ∀ (l : List Station) (s : State), l.Nodup → (∀ st ∈ l, s.faults.stations[st].clipWarn = false) →
    let t := l.foldl reclip s
    t = { s with out := t.out, faults := { s.faults with stations := t.faults.stations } }
      ∧ (∀ x : Station, t.faults.stations[x]
        = if x ∈ l then { s.faults.stations[x] with clipWarn := s.clipsUnder x } else s.faults.stations[x])
      ∧ ∀ u, HearsAs u s → HearsAs ((l.filter s.clipsUnder).foldl clipReported u) t
  | [], s, _, _ => ⟨rfl, fun x => rfl, fun u h => h⟩
  | st :: l, s, hnodup, hclear => by
    obtain ⟨hfresh, hnodup⟩ := List.nodup_cons.mp hnodup
    have hhead := hclear st List.mem_cons_self
    have hstep : reclip s st = { s with out := (reclip s st).out, faults := { s.faults with
        stations := upd s.faults.stations st fun f => { f with clipWarn := s.clipsUnder st || f.clipWarn } } } := by
      rw [reclip_eq hhead]
      cases hb : s.clipsUnder st with
      | false =>
        rw [if_neg (by decide)]
        simp only [Bool.false_or]
        rw [show (fun f : StationFaults => { f with clipWarn := f.clipWarn }) = fun f => f from rfl]
        rw [show upd s.faults.stations st (fun f => f) = s.faults.stations from upd_keep _ _]
      | true =>
        rw [if_pos rfl]
        exact broadcast_rest _ _
    have hears : ∀ u, HearsAs u s → HearsAs (if s.clipsUnder st then clipReported u st else u) (reclip s st) := by
      intro u hu
      rw [reclip_eq hhead]
      split
      · have hflag : HearsAs u (s.modStFaults st fun f => { f with clipWarn := true }) := hu.of_out rfl rfl rfl rfl
        exact hflag.broadcast _
      · exact hu
    rw [List.foldl_cons]
    generalize reclip s st = v at hstep hears
    have hset : ∀ x : Station, v.faults.stations[x]
        = if x = st then { s.faults.stations[x] with clipWarn := s.clipsUnder x } else s.faults.stations[x] := fun x => by
      rw [hstep, upd_apply]
      by_cases heq : x = st
      · subst heq
        rw [if_pos rfl, if_pos rfl, hhead, Bool.or_false]
      · rw [if_neg heq, if_neg heq]
    have hpick : v.clipsUnder = s.clipsUnder := by rw [hstep]; rfl
    obtain ⟨krest, kset, khears⟩ := reclips_spec l v hnodup fun x hx => by
      rw [hset x, if_neg fun h : x = st => hfresh (h ▸ hx)]
      exact hclear x (List.mem_cons_of_mem _ hx)
    refine ⟨?_, fun x => ?_, fun u hu => ?_⟩
    · exact krest.trans (congrArg (fun w : State => { w with
        out := (l.foldl reclip v).out, faults := { w.faults with stations := (l.foldl reclip v).faults.stations } }) hstep)
    · rw [kset x, hset x, hpick]
      by_cases hx : x ∈ l
      · rw [if_pos hx, if_pos (List.mem_cons_of_mem _ hx), if_neg fun h : x = st => hfresh (h ▸ hx)]
      · rw [if_neg hx]
        by_cases heq : x = st
        · subst heq
          rw [if_pos rfl, if_pos List.mem_cons_self]
        · rw [if_neg heq, if_neg fun h => (List.mem_cons.mp h).elim heq hx]
    · have key := khears _ (hears u hu)
      rw [hpick] at key
      rw [foldl_filter_cons]
      exact key

/-- The CLIP warn flags cleared. -/
def clipCleared (s : State) : State := s.modAllStFaults fun f => { f with clipWarn := false }

theorem clipCleared_station (s : State) (st : Station) :
    (clipCleared s).faults.stations[st] = { s.faults.stations[st] with clipWarn := false } := by
  simp [clipCleared, State.modAllStFaults]

theorem evalClip_spec (s : State) :
    let t := evalClip s
    t = { s with out := t.out, faults := { s.faults with stations := t.faults.stations } }
      ∧ (∀ x : Station, t.faults.stations[x] = { s.faults.stations[x] with clipWarn := s.clipsUnder x })
      ∧ ∀ u, HearsAs u s → t.out = ((allStations.filter s.clipsUnder).foldl clipReported u).out := by
  have hrun : evalClip s = allStations.foldl reclip (clipCleared s) := rfl
  rw [hrun]
  obtain ⟨hrest, hset, hears⟩ := reclips_spec allStations (clipCleared s) (List.nodup_finRange 24)
    fun st _ => by rw [clipCleared_station]
  refine ⟨hrest, fun x => ?_, fun u hu => (hears u (hu.of_out rfl rfl rfl rfl)).out⟩
  dsimp only
  rw [hset x, if_pos (station_listed x), clipCleared_station] <;> rfl

end Sys2Proof.Machine
end

section
/-! Clear Faults, and both requests as they are served (R166, R167). -/

namespace Sys2Proof.Machine

/-! Clear Faults (R143, R166). -/

/-- The failed marks whose condition is absent cleared. -/
def marksCleared (e : State) : State :=
  { e with homing := Vector.ofFn fun st : Station => { e.homing[st] with
      primFailed := e.homing[st].primFailed && e.linkCond (e.station st).primary,
      spareFailed := e.homing[st].spareFailed && (e.station st).spare.any e.linkCond } }

/-- The stations that had a mark judge their ports. -/
def marksJudged (e : State) : State :=
  (allStations.filter fun st => e.homing[st].primFailed || e.homing[st].spareFailed).foldl (fun a st => portsJudged st a)
    (marksCleared e)

theorem marksCleared_entry (e : State) (st : Station) {b : Bool} (h : b = (e.station st).spare.any e.linkCond) :
    e.homing[st].clearAbsent (e.linkCond (e.station st).primary) b = { e.homing[st] with
      primFailed := e.homing[st].primFailed && e.linkCond (e.station st).primary,
      spareFailed := e.homing[st].spareFailed && (e.station st).spare.any e.linkCond } := by
  rw [h, Homing.clearAbsent]

theorem homingClearFaults_eq (e : State) : homingClearFaults e = marksJudged e := by
  unfold homingClearFaults marksJudged marksCleared
  refine congrArg (fun v : Vector Homing 24 => e.markedStations.foldl (fun t st => portsJudged st t) { e with homing := v })
    (congrArg Vector.ofFn (funext fun st => marksCleared_entry e st ?_))
  dsimp only
  cases (e.station st).spare <;> rfl

theorem marksJudged_moves (e : State) : Moves (marksCleared e) (marksJudged e) := Moves.foldl (fun t st => portsJudged_moves st t) _ _

/-- A LATCHED mute ended by a Clear Faults. -/
def muteFreed (a : State) (st : Station) : State :=
  broadcast (reportOf 0xE2 [byteOf st.val, 2])
    { a with faults := { a.faults with stations := upd a.faults.stations st fun f => { f with mute := .none } } }

theorem muteFreed_rest (a : State) (st : Station) : muteFreed a st = { a with
    out := (muteFreed a st).out,
    faults := { a.faults with stations := upd a.faults.stations st fun f => { f with mute := .none } } } := broadcast_rest _ _

theorem muteFreed_station (a : State) (st x : Station) : (muteFreed a st).faults.stations[x]
    = if x = st then { a.faults.stations[x] with mute := .none } else a.faults.stations[x] := by
  rw [muteFreed_rest, upd_apply]

theorem clearMute_free (a : State) (st : Station) :
    clearMute a st = if a.faults.stations[st].mutesOut then muteFreed a st else a := rfl

/-- The mutes that end are those that stood LATCHED, their condition absent, before the first. -/
theorem clearMutes_eq : ∀ (l : List Station) (a : State), l.Nodup → l.foldl clearMute a =
    (l.filter fun st => a.faults.stations[st].mutesOut).foldl muteFreed a
  | [], _, _ => rfl
  | st :: l, a, hnodup => by
    obtain ⟨hfresh, hnodup⟩ := List.nodup_cons.mp hnodup
    have hstep : ∀ x ∈ l, (clearMute a st).faults.stations[x] = a.faults.stations[x] := fun x hx => by
      rw [clearMute_free]
      split
      · rw [muteFreed_station, if_neg fun h : x = st => hfresh (h ▸ hx)]
      · rfl
    rw [List.foldl_cons, foldl_filter_cons, ← clearMute_free, clearMutes_eq l _ hnodup]
    refine congrArg (fun k => List.foldl muteFreed (clearMute a st) k) (List.filter_congr fun x hx => ?_)
    rw [hstep x hx]

theorem muteFreed_foldl : ∀ (l : List Station) (a : State),
    let t := l.foldl muteFreed a
    t = { a with out := t.out, faults := { a.faults with stations := t.faults.stations } }
      ∧ ∀ x : Station, t.faults.stations[x] = if x ∈ l then { a.faults.stations[x] with mute := .none } else a.faults.stations[x]
  | [], a => ⟨rfl, fun x => rfl⟩
  | st :: l, a => by
    have hset := muteFreed_station a st
    have hstep := muteFreed_rest a st
    rw [List.foldl_cons]
    generalize muteFreed a st = v at hset hstep
    obtain ⟨krest, kset⟩ := muteFreed_foldl l v
    refine ⟨krest.trans (congrArg (fun w : State => { w with
      out := (l.foldl muteFreed v).out, faults := { w.faults with stations := (l.foldl muteFreed v).faults.stations } }) hstep),
      fun x => ?_⟩
    rw [kset x, hset x]
    by_cases heq : x = st
    · subst heq
      rw [if_pos rfl, if_pos List.mem_cons_self]
      exact ite_self _
    · rw [if_neg heq]
      exact if_congr ⟨List.mem_cons_of_mem _, fun h => (List.mem_cons.mp h).resolve_left heq⟩ rfl rfl

/-- The stations whose LATCHED mute has no condition any more. -/
def latchedFree (e : State) : List Station :=
  allStations.filter fun st => e.faults.stations[st].mute = .latched && !e.faults.stations[st].overCond

/-- Their mutes ended. -/
def mutesFreed (e : State) : State := (latchedFree e).foldl muteFreed (marksJudged e)

theorem mutesFreed_eq (e : State) : allStations.foldl clearMute (homingClearFaults e) = mutesFreed e := by
  have hnodup : allStations.Nodup := List.nodup_finRange 24
  rw [homingClearFaults_eq, clearMutes_eq _ _ hnodup, (marksJudged_moves e).stations]
  rfl

theorem mem_latchedFree {e : State} {st : Station} : st ∈ latchedFree e ↔
    (e.faults.stations[st].mute = .latched && !e.faults.stations[st].overCond) = true := by
  rw [latchedFree, List.mem_filter]
  exact and_iff_right (station_listed st)

/-- What stands once the marks and mutes are cleared: the conditions, the flags and the modes. -/
structure Freed (e t : State) : Prop where
  live : t.live = e.live
  mix : t.mix = e.mix
  modes : t.faults.modes = e.faults.modes
  ports : t.faults.ports = e.faults.ports
  cond : ∀ p : Port, t.ports[p].cond = e.ports[p].cond
  stations : ∀ st : Station, t.faults.stations[st] = { e.faults.stations[st] with
    mute := if e.faults.stations[st].mute = .latched && !e.faults.stations[st].overCond then .none
      else e.faults.stations[st].mute }

/-- What the judgements leave as the request found it. -/
theorem marksJudged_spec (e : State) : (marksJudged e).live = e.live ∧ (marksJudged e).mix = e.mix
    ∧ (marksJudged e).faults.modes = e.faults.modes ∧ (marksJudged e).faults.ports = e.faults.ports
    ∧ (marksJudged e).faults.stations = e.faults.stations ∧ ∀ p : Port, (marksJudged e).ports[p].cond = e.ports[p].cond := by
  have hmoves := marksJudged_moves e
  have hmix : (marksJudged e).mix = (marksCleared e).mix := by rw [hmoves.rest]
  refine ⟨hmoves.live.trans ?_, hmix.trans ?_, hmoves.modes.trans ?_, hmoves.faultPorts.trans ?_, hmoves.stations.trans ?_,
    fun p => (hmoves.steady.cond p).trans ?_⟩
  all_goals rw [marksCleared]

theorem freed_of_judged {e t : State}
    (hrest : t = { marksJudged e with
      out := t.out, faults := { (marksJudged e).faults with stations := t.faults.stations } })
    (hset : ∀ x : Station, t.faults.stations[x] = if x ∈ latchedFree e then { e.faults.stations[x] with mute := .none }
      else e.faults.stations[x]) : Freed e t := by
  obtain ⟨hlive, hmix, hmodes, hports, -, hcond⟩ := marksJudged_spec e
  generalize marksJudged e = j at hrest hlive hmix hmodes hports hcond
  refine ⟨?_, ?_, ?_, ?_, fun p => ?_, fun st => ?_⟩
  · rw [hrest]
    exact hlive
  · rw [hrest]
    exact hmix
  · rw [hrest]
    exact hmodes
  · rw [hrest]
    exact hports
  · rw [hrest]
    exact hcond p
  · rw [hset st]
    cases hb : (e.faults.stations[st].mute = .latched && !e.faults.stations[st].overCond : Bool) with
    | true => rw [if_pos (mem_latchedFree.mpr hb), if_pos rfl]
    | false => rw [if_neg fun h => Bool.false_ne_true (hb.symm.trans (mem_latchedFree.mp h)), if_neg (by decide)]

theorem mutesFreed_freed (e : State) : Freed e (mutesFreed e) := by
  obtain ⟨hrest, hset⟩ := muteFreed_foldl (latchedFree e) (marksJudged e)
  obtain ⟨-, -, -, -, hstations, -⟩ := marksJudged_spec e
  rw [hstations] at hset
  exact freed_of_judged hrest hset

/-- The warn flags, latched DESK flags and the RESET flag cleared, `a` the state and `e` the one the request found. -/
def flagsCleared (e a : State) : State :=
  { a with faults := { a.faults with
      ports := Vector.ofFn fun p : Port =>
        { a.faults.ports[p] with
          deskLatched := a.faults.ports[p].deskLatched && (a.auth.deskCond && a.auth.holder = some p),
          deskWarn := a.faults.ports[p].deskWarn && (a.auth.deskCond && a.auth.holder = some p),
          linkWarn := a.faults.ports[p].linkWarn && (e.live.serves p).isSome && a.faults.ports[p].linkCond },
      stations := Vector.ofFn fun st : Station =>
        { a.faults.stations[st] with
          overWarn := a.faults.stations[st].overWarn && a.faults.stations[st].overCond,
          clipWarn := a.faults.stations[st].clipWarn && e.mix.clip[st] },
      cueWarn := a.faults.cueWarn && a.cueCond,
      resetFlag := false } }

theorem clearFlags_eq {e a : State} (hlive : a.live = e.live) (hmix : a.mix = e.mix) : clearFlags a = flagsCleared e a := by
  have hports : ∀ p : Port, (a.faults.ports[p]).cleared (a.deskCondOf p) (a.supCond p) = { a.faults.ports[p] with
      deskLatched := a.faults.ports[p].deskLatched && (a.auth.deskCond && a.auth.holder = some p),
      deskWarn := a.faults.ports[p].deskWarn && (a.auth.deskCond && a.auth.holder = some p),
      linkWarn := a.faults.ports[p].linkWarn && (e.live.serves p).isSome && a.faults.ports[p].linkCond } := fun p => by
    rw [PortFaults.cleared, State.supCond, ← Bool.and_assoc, hlive]
    rfl
  have hstations : ∀ st : Station, (a.faults.stations[st]).cleared a.mix.clip[st] = { a.faults.stations[st] with
      overWarn := a.faults.stations[st].overWarn && a.faults.stations[st].overCond,
      clipWarn := a.faults.stations[st].clipWarn && e.mix.clip[st] } := fun st => by
    rw [hmix, StationFaults.cleared]
  unfold clearFlags
  rw [funext hports, funext hstations]
  rfl

theorem clearFaults_eq (e : State) : clearFaults e = flagsCleared e (mutesFreed e) := by
  rw [clearFaults, mutesFreed_eq]
  exact clearFlags_eq (mutesFreed_freed e).live (mutesFreed_freed e).mix

theorem flagsCleared_live (e a : State) : (flagsCleared e a).live = a.live := by rw [flagsCleared]

theorem flagsCleared_desk (e a : State) (p : Port) :
    (flagsCleared e a).deskCondOf p = (a.auth.deskCond && decide (a.auth.holder = some p)) := by
  rw [flagsCleared, State.deskCondOf]

theorem flagsCleared_warn (e a : State) : (flagsCleared e a).faults.cueWarn = (a.faults.cueWarn && a.cueCond) := by
  rw [flagsCleared]

theorem flagsCleared_cueCond (e a : State) : (flagsCleared e a).cueCond = a.cueCond := by
  rw [flagsCleared, State.cueCond, State.cueCond]

section

variable {e a : State} (h : Freed e a)
include h

theorem flagsCleared_port (p : Port) : (flagsCleared e a).faults.ports[p] = { e.faults.ports[p] with
    deskLatched := e.faults.ports[p].deskLatched && (flagsCleared e a).deskCondOf p,
    deskWarn := e.faults.ports[p].deskWarn && (flagsCleared e a).deskCondOf p,
    linkWarn := e.faults.ports[p].linkWarn && (flagsCleared e a).supCond p } := by
  have hport : (flagsCleared e a).faults.ports[p] = { a.faults.ports[p] with
      deskLatched := a.faults.ports[p].deskLatched && (a.auth.deskCond && a.auth.holder = some p),
      deskWarn := a.faults.ports[p].deskWarn && (a.auth.deskCond && a.auth.holder = some p),
      linkWarn := a.faults.ports[p].linkWarn && (e.live.serves p).isSome && a.faults.ports[p].linkCond } := by
    rw [flagsCleared, ofFn_get]
  have hsup : (flagsCleared e a).supCond p = ((e.live.serves p).isSome && a.faults.ports[p].linkCond) := by
    rw [State.supCond, hport, flagsCleared_live, h.live]
  rw [hsup, hport, h.ports, Bool.and_assoc, flagsCleared_desk]

theorem flagsCleared_station (st : Station) : (flagsCleared e a).faults.stations[st] = { e.faults.stations[st] with
    mute := if e.faults.stations[st].mute = .latched && !e.faults.stations[st].overCond then .none
      else e.faults.stations[st].mute,
    overWarn := e.faults.stations[st].overWarn && e.faults.stations[st].overCond,
    clipWarn := e.faults.stations[st].clipWarn && e.mix.clip[st] } := by
  rw [flagsCleared, ofFn_get, h.stations]

end

theorem flagsCleared_cue {e a : State} (h : (flagsCleared e a).faults.cueWarn = true) : (flagsCleared e a).cueCond = true := by
  rw [flagsCleared_warn, Bool.and_eq_true] at h
  rw [flagsCleared_cueCond]
  exact h.2

/-! The modes. -/

theorem modes_get_set (ms : Modes) (c : FaultClass) (m : Mode) : (ms.set c m).get c = m := by cases c <;> rfl

theorem modes_get_other (ms : Modes) {c d : FaultClass} (h : d ≠ c) (m : Mode) : (ms.set c m).get d = ms.get d := by
  revert h
  cases c <;> cases d <;> simp [Modes.set, Modes.get]

end Sys2Proof.Machine
end

section
/-! Set Mode and Clear Faults as they are served (R166, R167). -/

namespace Sys2Proof.Machine

theorem exec_setMode_serves {s : State} {q : QueuedRequest} {cb mb : Byte} (h : Serves s q) (hq : q.req = .setMode cb mb) :
    exec .setMode s = .next (serveSetMode q cb mb s) := serving_eq h (by simp only [hq])

theorem exec_clearFaults_serves {s : State} {q : QueuedRequest} (h : Serves s q) (hq : q.req = .clearFaults) :
    exec .clearFaults s = .next (serveClearFaults q s) := serving_eq h (by simp only [hq])

theorem classModeOf_none {cb mb : Byte}
    (h : ∀ c m, faultClassOf? cb.toNat = some c → modeOf? mb.toNat = some m → permits c m = false) : classModeOf cb mb = none := by
  unfold classModeOf
  cases hc : faultClassOf? cb.toNat with
  | none => rfl
  | some c =>
    cases hm : modeOf? mb.toNat with
    | none => rfl
    | some m => exact if_neg (Bool.eq_false_iff.mp (h c m hc hm))

theorem classModeOf_some {cb mb : Byte} {c : FaultClass} {m : Mode} (hc : faultClassOf? cb.toNat = some c)
    (hm : modeOf? mb.toNat = some m) (hp : permits c m = true) : classModeOf cb mb = some (c, m) := by
  unfold classModeOf
  rw [hc, hm]
  exact if_pos hp

theorem serveSetMode_refused {q : QueuedRequest} {cb mb : Byte} {s : State} (h : classModeOf cb mb = none) :
    serveSetMode q cb mb s = respond q .badValue [] (windowEnded s) := by
  rw [serveSetMode, h, endWindow_eq]

theorem serveSetMode_taken {q : QueuedRequest} {cb mb : Byte} {c : FaultClass} {m : Mode} {s : State}
    (h : classModeOf cb mb = some (c, m)) : serveSetMode q cb mb s = respond q .ok [] (setMode c m (windowEnded s)) := by
  rw [serveSetMode, h, endWindow_eq]

theorem serveClearFaults_eq (q : QueuedRequest) (s : State) : serveClearFaults q s =
    respond q .ok [(flagsCleared (windowEnded s) (mutesFreed (windowEnded s))).managementView q.port]
      (flagsCleared (windowEnded s) (mutesFreed (windowEnded s))) := by
  rw [serveClearFaults, endWindow_eq, clearFaults_eq]

/-! What a Set Mode leaves as it is (R167). -/

/-- The modes with one replaced. -/
def modeSet (c : FaultClass) (m : Mode) (e : State) : State := { e with faults := { e.faults with modes := e.faults.modes.set c m } }

/-- The class takes the mode; the other classes' modes, the RESET flag, the runs and every condition stand. -/
structure ModeTaken (c : FaultClass) (m : Mode) (e t : State) : Prop where
  modes : t.faults.modes = e.faults.modes.set c m
  resetFlag : t.faults.resetFlag = e.faults.resetFlag
  stations : ∀ st : Station, t.faults.stations[st].setRun = e.faults.stations[st].setRun
    ∧ t.faults.stations[st].clearRun = e.faults.stations[st].clearRun
    ∧ t.faults.stations[st].overCond = e.faults.stations[st].overCond
  ports : ∀ p : Port, t.ports[p].cond = e.ports[p].cond ∧ t.faults.ports[p].linkCond = e.faults.ports[p].linkCond

theorem evalLink_taken (m : Mode) (e : State) : ModeTaken .link m e (evalLink (modeSet .link m e)) := by
  have h := evalLink_steady (modeSet .link m e)
  have hcond := fun p => (h.linkCond p).trans (linkCleared_linkCond _ p)
  generalize evalLink (modeSet .link m e) = t at h hcond
  have hstations : t.faults.stations = e.faults.stations := by rw [h.stations, linkCleared, modeSet]
  refine ⟨?_, ?_, fun st => by rw [hstations]; exact ⟨rfl, rfl, rfl⟩, fun p => ⟨?_, (hcond p).trans ?_⟩⟩
  · rw [h.modes, linkCleared, modeSet]
  · rw [h.resetFlag, linkCleared, modeSet]
  · rw [h.cond p, linkCleared, modeSet]
  · rw [modeSet]

theorem modeTaken_of_rest {c : FaultClass} {m : Mode} {e t : State}
    (hrest : t = { modeSet c m e with
      arb := t.arb, out := t.out, faults := { (modeSet c m e).faults with stations := t.faults.stations } })
    (hst : ∀ st : Station, t.faults.stations[st].setRun = e.faults.stations[st].setRun
      ∧ t.faults.stations[st].clearRun = e.faults.stations[st].clearRun
      ∧ t.faults.stations[st].overCond = e.faults.stations[st].overCond) : ModeTaken c m e t := by
  refine ⟨?_, ?_, hst, fun p => ⟨?_, ?_⟩⟩
  all_goals rw [hrest, modeSet]

theorem evalOverload_taken {m : Mode} (hp : permits .overload m = true) (e : State) :
    ModeTaken .overload m e (evalOverload (modeSet .overload m e)) := by
  obtain ⟨hrest, hset, -, -⟩ := evalOverload_spec (s := modeSet .overload m e) (m := m) rfl hp
  refine modeTaken_of_rest hrest fun st => ?_
  rw [hset st]
  exact ⟨rfl, rfl, rfl⟩

theorem evalClip_taken (m : Mode) (e : State) : ModeTaken .clip m e (evalClip (modeSet .clip m e)) := by
  obtain ⟨hrest, hset, -⟩ := evalClip_spec (modeSet .clip m e)
  have harb : (evalClip (modeSet .clip m e)).arb = (modeSet .clip m e).arb := by rw [hrest]
  refine modeTaken_of_rest ?_ fun st => ?_
  · rw [harb]
    exact hrest
  · rw [hset st]
    exact ⟨rfl, rfl, rfl⟩

theorem evalCue_eq (m : Mode) (e : State) : evalCue (modeSet .cue m e) = { e with faults := { e.faults with
    modes := e.faults.modes.set .cue m, cueWarn := m = .warn && e.cueCond } } := rfl

theorem evalCue_taken (m : Mode) (e : State) : ModeTaken .cue m e (evalCue (modeSet .cue m e)) := by
  rw [evalCue_eq]
  exact ⟨rfl, rfl, fun st => ⟨rfl, rfl, rfl⟩, fun p => ⟨rfl, rfl⟩⟩

theorem evalDesk_eq (m : Mode) (e : State) : evalDesk (modeSet .desk m e) = { e with
    faults := { e.faults with
      modes := e.faults.modes.set .desk m,
      ports := e.faults.ports.map fun f => { f with deskLatched := false, deskWarn := false } },
    auth := { e.auth with
      deskCond := false,
      window := if e.auth.holder.isSome && e.mgmt.settings.supEnable && (m = .latched || m = .warn)
        then some ⟨0, false⟩ else none } } := by
  rw [Bool.and_assoc]
  rfl

theorem evalDesk_taken (m : Mode) (e : State) : ModeTaken .desk m e (evalDesk (modeSet .desk m e)) := by
  rw [evalDesk_eq]
  refine ⟨rfl, rfl, fun st => ⟨rfl, rfl, rfl⟩, fun p => ⟨rfl, ?_⟩⟩
  simp

theorem setMode_taken {c : FaultClass} {m : Mode} (hp : permits c m = true) (e : State) : ModeTaken c m e (setMode c m e) := by
  cases c with
  | link => exact evalLink_taken m e
  | overload => exact evalOverload_taken hp e
  | desk => exact evalDesk_taken m e
  | cue => exact evalCue_taken m e
  | clip => exact evalClip_taken m e

theorem setMode_link_run (m : Mode) (e : State) : setMode .link m e = evalLink (modeSet .link m e) := by rw [setMode, modeSet]

theorem setMode_clip_run (m : Mode) (e : State) : setMode .clip m e = evalClip (modeSet .clip m e) := by rw [setMode, modeSet]

/-- Set Mode on LINK in the words of the rule. -/
theorem setMode_link {m : Mode} {e : State} :
    (∀ p : Port, (setMode .link m e).faults.ports[p].linkWarn
      = (m = .warn && (e.live.serves p).isSome && e.faults.ports[p].linkCond))
    ∧ (m = .warn ∨ m = .off → ∀ st : Station, (setMode .link m e).homing[st].primFailed = false
      ∧ (setMode .link m e).homing[st].spareFailed = false) := by
  refine ⟨fun p => ?_, fun hidle st => evalLink_marks (s := modeSet .link m e) hidle st⟩
  have hwarn := evalLink_warn (modeSet .link m e) p
  have hmode : (modeSet .link m e).faults.modes.link = m := rfl
  have hsup : (modeSet .link m e).supCond p = ((e.live.serves p).isSome && e.faults.ports[p].linkCond) := by
    rw [State.supCond, modeSet]
  rw [hmode, hsup, ← Bool.and_assoc] at hwarn
  rw [setMode_link_run, hwarn]

theorem setMode_link_eq (m : Mode) (e : State) : setMode .link m e = allPorts.foldl (fun a p => match a.live.serves p with
      | some st => if a.faults.ports[p].linkCond then linkBegun p st a else a
      | none => a) (linkJudged (modeSet .link m e)) := by
  have hrelink : relink = fun a p => match a.live.serves p with
      | some st => if a.faults.ports[p].linkCond then linkBegun p st a else a
      | none => a := funext fun a => funext fun p => relink_eq a p
  rw [← hrelink]
  rfl

/-- Settles O44: a Set Mode by its class, and a Clear Faults by its parts. -/
theorem setModeAndClearFaultsServed : Obligations.SetModeAndClearFaultsServed := by
  intro s q hserves e marked cond
  refine ⟨fun cb mb hq => ⟨fun hnone => ?_, fun c m hc hm hp => ?_⟩, fun hq => ?_⟩
  · rw [exec_setMode_serves hserves hq, serveSetMode_refused (classModeOf_none hnone)]
  · obtain ⟨hmodes, hreset, hstations, hports⟩ := setMode_taken hp e
    refine ⟨setMode c m e, ?_, ?_, fun d hd => ?_, hreset, hstations, hports, ?_, ?_, ?_, ?_, ?_⟩
    · rw [exec_setMode_serves hserves hq, serveSetMode_taken (classModeOf_some hc hm hp)]
    · rw [hmodes, modes_get_set]
    · rw [hmodes, modes_get_other _ hd]
    · rintro rfl
      exact ⟨setMode_link_eq m e, setMode_link.1, setMode_link.2⟩
    · rintro rfl
      obtain ⟨hrest, hset, harb, hears⟩ := evalOverload_spec (s := modeSet .overload m e) (m := m) rfl hp
      exact ⟨hset, harb, hears e ⟨rfl, rfl, fun _ => rfl, rfl⟩, hrest⟩
    · rintro rfl
      obtain ⟨hrest, hset, hears⟩ := evalClip_spec (modeSet .clip m e)
      have hpick : (modeSet .clip m e).clipsUnder = fun st => (m = .warn && e.mix.clip[st] : Bool) := rfl
      rw [hpick] at hears
      rw [setMode_clip_run]
      exact ⟨fun st => (hset st).trans (by rw [hpick, modeSet]), hears e ⟨rfl, rfl, fun _ => rfl, rfl⟩, hrest⟩
    · rintro rfl
      exact evalCue_eq m e
    · rintro rfl
      exact evalDesk_eq m e
  · have hfreed := mutesFreed_freed e
    refine ⟨?_, hfreed.modes, fun p => ⟨hfreed.cond p, flagsCleared_port hfreed p⟩, flagsCleared_station hfreed, flagsCleared_cue⟩
    rw [exec_clearFaults_serves hserves hq, serveClearFaults_eq]
    rfl

end Sys2Proof.Machine
end

section
/-! The events of the cue controller step by step: what a cue report reads, an entry changed, an entry judged, and the
acknowledge (R76, R79 to R81). -/

namespace Sys2Proof.Machine

/-! Cue reports (R76). -/

/-- `t` is as `s` in all that a cue report reads: who holds authority, the records, and the queues. -/
structure Voices (s t : State) : Prop where
  holder : t.auth.holder = s.auth.holder
  records : t.table.records = s.table.records
  out : t.out = s.out

namespace Voices

theorem refl (s : State) : Voices s s := ⟨rfl, rfl, rfl⟩

theorem trans {s t u : State} (h : Voices s t) (k : Voices t u) : Voices s u :=
  ⟨k.holder.trans h.holder, k.records.trans h.records, k.out.trans h.out⟩

theorem of_only {s t : State} (h : CueOnly s t) (hout : t.out = s.out) : Voices s t :=
  ⟨by rw [h.auth], by rw [h.table], hout⟩

theorem report {s t : State} (h : Voices s t) (k : Nat) (c : CueIx) (d1 d2 d3 : Nat) :
    Voices (reportCue k c d1 d2 d3 s) (reportCue k c d1 d2 d3 t) := by
  refine ⟨?_, ?_, ?_⟩
  · rw [(reportCue_only k c d1 d2 d3 t).auth, (reportCue_only k c d1 d2 d3 s).auth, h.holder]
  · rw [(reportCue_only k c d1 d2 d3 t).table, (reportCue_only k c d1 d2 d3 s).table, h.records]
  · have hmsg : cueMsg k c d1 d2 d3 t = cueMsg k c d1 d2 d3 s := by
      rw [cueMsg, State.cueRec, h.records]
      rfl
    unfold reportCue cueReport
    rw [hmsg, h.holder]
    cases s.auth.holder with
    | none => exact h.out
    | some p =>
      unfold placeReport State.modOut
      rw [h.out]

end Voices

/-- A change of the cues, the claims and the flags makes no report. -/
theorem cueEvent_out (s : State) : (cueEvent s).out = s.out := by
  unfold cueEvent
  split <;> rfl

theorem reportCue_warn (k : Nat) (c : CueIx) (d1 d2 d3 : Nat) (s : State) :
    (reportCue k c d1 d2 d3 s).faults.cueWarn = s.faults.cueWarn := by
  unfold reportCue cueReport
  split <;> rfl

theorem cueEvent_warn (s : State) : (cueEvent s).faults.cueWarn = (s.faults.cueWarn || s.faults.modes.cue = .warn) := by
  unfold cueEvent
  by_cases h : s.faults.modes.cue = .warn
  · rw [if_pos h, decide_eq_true h, Bool.or_true]
  · rw [if_neg h, decide_eq_false h, Bool.or_false]

/-! An entry changed. -/

theorem entry_of_cues {s t : State} (h : t.cues = s.cues) (c : CueIx) : t.entry c = s.entry c := by
  rw [State.entry, h, State.entry]

theorem entry_modEntry {c : CueIx} {f : CueEntry → CueEntry} (hf : ∀ e, (f e).cue = e.cue) (s : State) (d : CueIx) :
    (s.modEntry c f).entry d = (s.entry d).map fun e => if e.cue = c then f e else e := by
  have hcue : ∀ e : CueEntry, (if e.cue = c then f e else e).cue = e.cue := fun e => by
    split
    · exact hf e
    · rfl
  rw [State.entry, State.modEntry_cues, List.find?_map]
  refine congrArg (Option.map _) ?_
  unfold State.entry
  congr 1
  funext e
  dsimp only [Function.comp_apply]
  rw [hcue]

theorem entry_modEntry_same {c : CueIx} {f : CueEntry → CueEntry} (hf : ∀ e, (f e).cue = e.cue) {s : State} {e : CueEntry}
    (he : s.entry c = some e) : (s.modEntry c f).entry c = some (f e) := by
  rw [entry_modEntry hf, he]
  exact congrArg some (if_pos (entry_cue he))

theorem entry_modEntry_other {c d : CueIx} {f : CueEntry → CueEntry} (hf : ∀ e, (f e).cue = e.cue) (s : State) (h : d ≠ c) :
    (s.modEntry c f).entry d = s.entry d := by
  rw [entry_modEntry hf]
  cases he : s.entry d with
  | none => rfl
  | some e =>
    refine congrArg some (if_neg ?_)
    rw [entry_cue he]
    exact h

/-- An intact list has one entry of a cue. -/
theorem CueListOk.one {s : State} (h : CueListOk s) {c : CueIx} {e : CueEntry} (he : s.entry c = some e) :
    ∀ x ∈ s.cues, x.cue = c → x = e := fun _ hx hc => h.unique hx (entry_mem he) (hc.trans (entry_cue he).symm)

/-- A change of the one entry of a cue is what it does to it. -/
theorem map_modEntry {s : State} {c : CueIx} {e : CueEntry} (hone : ∀ x ∈ s.cues, x.cue = c → x = e)
    {f g : CueEntry → CueEntry} (hfg : f e = g e) :
    (s.cues.map fun x => if x.cue = c then f x else x) = s.cues.map fun x => if x.cue = c then g x else x := by
  refine List.map_congr_left fun x hx => ?_
  by_cases hc : x.cue = c
  · rw [if_pos hc, if_pos hc, hone x hx hc, hfg]
  · rw [if_neg hc, if_neg hc]

/-! An entry judged (R81). -/

/-- The state of an entry once its readiness is judged. -/
def EntryState.judged (x : EntryState) (satisfied : Bool) : EntryState :=
  if x = .standby ∧ satisfied = true then .ready else if x = .ready ∧ satisfied = false then .standby else x

/-- The report of a change of readiness. -/
def judgedTold (c : CueIx) (x : EntryState) (satisfied : Bool) (s : State) : State :=
  if x = .standby ∧ satisfied = true then reportCue 0xC0 c 0 0 0 s
  else if x = .ready ∧ satisfied = false then reportCue 0xC1 c 0 0 0 s else s

/-- The state of an entry set. -/
def setEntryState (c : CueIx) (x : EntryState) (s : State) : State :=
  { s with cues := s.cues.map fun y => if y.cue = c then { y with state := x } else y }

theorem recompute_none {c : CueIx} {s : State} (h : s.entry c = none) : recompute c s = s := by
  rw [recompute, h]

theorem recompute_some {c : CueIx} {s : State} {e : CueEntry} (h : s.entry c = some e) : recompute c s =
    if e.state = .standby ∧ (s.cueRec c).ackPolicy.satisfied e.targets = true then
      reportCue 0xC0 c 0 0 0 (setEntryState c .ready s)
    else if e.state = .ready ∧ (s.cueRec c).ackPolicy.satisfied e.targets = false then
      reportCue 0xC1 c 0 0 0 (setEntryState c .standby s)
    else s := by
  rw [recompute, h]
  dsimp only
  refine if_congr (by rw [Bool.and_eq_true, decide_eq_true_eq]) rfl (if_congr ?_ rfl rfl)
  rw [Bool.and_eq_true, decide_eq_true_eq, Bool.not_eq_true']

theorem Voices.judged {s t : State} (h : Voices s t) (c : CueIx) (x : EntryState) (b : Bool) :
    Voices (judgedTold c x b s) (judgedTold c x b t) := by
  unfold judgedTold
  split
  · exact h.report _ _ _ _ _
  · split
    · exact h.report _ _ _ _ _
    · exact h

/-- What a judgement sets, and its report. -/
theorem recompute_spec {c : CueIx} {s : State} {e : CueEntry} (hone : ∀ x ∈ s.cues, x.cue = c → x = e) (h : s.entry c = some e) :
    (recompute c s).cues = (s.cues.map fun y => if y.cue = c then
        { y with state := y.state.judged ((s.cueRec c).ackPolicy.satisfied y.targets) } else y)
      ∧ Voices (judgedTold c e.state ((s.cueRec c).ackPolicy.satisfied e.targets) s) (recompute c s)
      ∧ (recompute c s).lamps = s.lamps ∧ (recompute c s).faults = s.faults := by
  have hset : ∀ x : EntryState, x = e.state.judged ((s.cueRec c).ackPolicy.satisfied e.targets) →
      (setEntryState c x s).cues = s.cues.map fun y => if y.cue = c then
        { y with state := y.state.judged ((s.cueRec c).ackPolicy.satisfied y.targets) } else y := by
    rintro x rfl
    exact map_modEntry hone (f := fun y => { y with
      state := e.state.judged ((s.cueRec c).ackPolicy.satisfied e.targets) }) rfl
  have hvoice : ∀ x, Voices s (setEntryState c x s) := fun x => ⟨rfl, rfl, rfl⟩
  have hsame : setEntryState c e.state s = s := by
    have hkeep := map_modEntry hone (f := fun y => { y with state := e.state }) (g := fun y => y) rfl
    unfold setEntryState
    rw [hkeep]
    simp
  have hfaults : ∀ (k : Nat) (u : State), (reportCue k c 0 0 0 u).faults = u.faults := fun k u => by
    unfold reportCue cueReport
    split <;> rfl
  rw [recompute_some h]
  unfold judgedTold
  by_cases hready : e.state = .standby ∧ (s.cueRec c).ackPolicy.satisfied e.targets = true
  · rw [if_pos hready, if_pos hready, reportCue_cues, reportCue_lamps, hfaults]
    exact ⟨hset _ (if_pos hready).symm, (hvoice _).report _ _ _ _ _, rfl, rfl⟩
  · by_cases hunready : e.state = .ready ∧ (s.cueRec c).ackPolicy.satisfied e.targets = false
    · rw [if_neg hready, if_pos hunready, if_neg hready, if_pos hunready, reportCue_cues, reportCue_lamps, hfaults]
      exact ⟨hset _ (((if_neg hready).trans (if_pos hunready)).symm), (hvoice _).report _ _ _ _ _, rfl, rfl⟩
    · rw [if_neg hready, if_neg hunready, if_neg hready, if_neg hunready]
      have hkeep := hset e.state ((if_neg hready).trans (if_neg hunready)).symm
      rw [hsame] at hkeep
      exact ⟨hkeep, .refl s, rfl, rfl⟩

/-! What an acknowledge reaches (R79). -/

theorem targetsOf_length {s : State} {c : CueIx} {e : CueEntry} (he : s.entry c = some e) {k : Nat}
    {x : Nat × Station × Lamp × TargetState} (hx : (s.targetsOf c)[k]? = some x) : x.1 = k := by
  unfold State.targetsOf at hx
  rw [he] at hx
  simp only [List.getElem?_map, List.getElem?_zipIdx, Option.map_map, Option.map_eq_some_iff] at hx
  obtain ⟨y, -, rfl⟩ := hx
  exact Nat.zero_add k

/-- Whether an acknowledge on a lamp takes a target. -/
def takesAck (st : Station) (j : Lamp) (x : Nat × Station × Lamp × TargetState) : Bool :=
  x.2.1 = st && x.2.2.1 = j && (x.2.2.2 = .waiting || x.2.2.2 = .late)

theorem takesAck_iff {st : Station} {j : Lamp} {x : Nat × Station × Lamp × TargetState} :
    takesAck st j x = true ↔ x.2.1 = st ∧ x.2.2.1 = j ∧ (x.2.2.2 = .waiting ∨ x.2.2.2 = .late) := by
  simp only [takesAck, Bool.and_eq_true, Bool.or_eq_true, decide_eq_true_eq, and_assoc]

/-- No target of an entry takes an acknowledge on the lamp. -/
def Unreached (s : State) (st : Station) (j : Lamp) (e : CueEntry) (i : Nat) : Prop :=
  (s.cueRec e.cue).targets[i]? = some (st, j) → e.targets[i]? ≠ some .waiting ∧ e.targets[i]? ≠ some .late

section

variable {s : State} {st : Station} {j : Lamp} {e : CueEntry}

theorem not_takesAck (he : s.entry e.cue = some e) {x : Nat × Station × Lamp × TargetState} (hx : x ∈ s.targetsOf e.cue)
    (hfree : Unreached s st j e x.1) : takesAck st j x = false := by
  obtain ⟨i, u, l, y⟩ := x
  obtain ⟨hR, hy⟩ := (mem_targetsOf he).mp hx
  refine Bool.eq_false_iff.mpr fun hack => ?_
  obtain ⟨rfl, rfl, hstate⟩ := takesAck_iff.mp hack
  obtain ⟨hw, hl⟩ := hfree hR
  rcases hstate with rfl | rfl
  · exact hw hy
  · exact hl hy

theorem ackPosition_none (he : s.entry e.cue = some e) (hfree : ∀ i, Unreached s st j e i) :
    ackPosition st j (s.targetsOf e.cue) = none := by
  refine congrArg (Option.map _) (List.find?_eq_none.mpr fun x hx => ?_)
  exact Bool.eq_false_iff.mp (not_takesAck he hx (hfree x.1))

theorem ackPosition_first (he : s.entry e.cue = some e) {i : Nat} {x : TargetState}
    (hR : (s.cueRec e.cue).targets[i]? = some (st, j)) (hy : e.targets[i]? = some x) (hx : x = .waiting ∨ x = .late)
    (hfree : ∀ i' < i, Unreached s st j e i') : ackPosition st j (s.targetsOf e.cue) = some (i, x) := by
  have hmem := (mem_targetsOf he).mpr ⟨hR, hy⟩
  obtain ⟨k, hk, hat⟩ := List.getElem_of_mem hmem
  have hki : i = k := targetsOf_length he (List.getElem?_eq_some_iff.mpr ⟨hk, hat⟩)
  subst hki
  have hfind : (s.targetsOf e.cue).find? (takesAck st j) = some (i, st, j, x) := by
    refine List.find?_eq_some_iff_getElem.mpr ⟨takesAck_iff.mpr ⟨rfl, rfl, hx⟩, i, hk, hat, fun m hm => ?_⟩
    have hplace := targetsOf_length he (List.getElem?_eq_getElem (hm.trans hk))
    rw [Bool.not_eq_true']
    exact not_takesAck he (List.getElem_mem _) (hplace.symm ▸ hfree m hm)
  exact congrArg (Option.map fun x : Nat × Station × Lamp × TargetState => (x.1, x.2.2.2)) hfind

end

theorem ackTarget_none {s : State} (hlist : CueListOk s) {st : Station} {j : Lamp}
    (h : ∀ e ∈ s.cues, e.state ≠ .going → ∀ i, Unreached s st j e i) : s.ackTarget st j = none := by
  refine List.findSome?_eq_none_iff.mpr fun e he => ?_
  by_cases hg : e.state = .going
  · exact if_pos hg
  · rw [if_neg hg, ackPosition_none (entry_of_mem hlist he) (h e he hg)]
    rfl

theorem ackTarget_first {s : State} (hlist : CueListOk s) {st : Station} {j : Lamp} {before after : List CueEntry}
    {e : CueEntry} {i : Nat} {x : TargetState} (hs : s.cues = before ++ e :: after) (hg : e.state ≠ .going)
    (hR : (s.cueRec e.cue).targets[i]? = some (st, j)) (hy : e.targets[i]? = some x) (hx : x = .waiting ∨ x = .late)
    (hfirst : ∀ i' < i, Unreached s st j e i')
    (hbefore : ∀ d ∈ before, d.state ≠ .going → ∀ i', Unreached s st j d i') : s.ackTarget st j = some (e.cue, i, x) := by
  have hmem : ∀ d ∈ before ++ e :: after, s.entry d.cue = some d := fun d hd => entry_of_mem hlist (hs.symm ▸ hd)
  have hnone : before.findSome? (fun e => if e.state = .going then none
      else (ackPosition st j (s.targetsOf e.cue)).map fun x => (e.cue, x.1, x.2)) = none := by
    refine List.findSome?_eq_none_iff.mpr fun d hd => ?_
    by_cases hdg : d.state = .going
    · exact if_pos hdg
    · rw [if_neg hdg, ackPosition_none (hmem d (List.mem_append_left _ hd)) (hbefore d hd hdg)]
      rfl
  have hhere := ackPosition_first (hmem e (List.mem_append_right _ List.mem_cons_self)) hR hy hx hfirst
  rw [State.ackTarget, hs, List.findSome?_append, hnone, Option.none_or, List.findSome?_cons, if_neg hg, hhere]
  rfl

end Sys2Proof.Machine
end

section
/-! The acknowledge edge (R79 to R81). -/

namespace Sys2Proof.Machine

theorem ackEdge_ignored {s : State} {st : Station} {j : Lamp}
    (h : (s.station st).enabled = false ∨ (s.station st).kind = .source ∨ s.homing[st].state = .isolated) :
    ackEdge st j s = s := by
  refine if_pos ?_
  simp only [Bool.or_eq_true, Bool.not_eq_true', decide_eq_true_eq, State.isolated, or_assoc]
  exact h

theorem ackEdge_heard {s : State} {st : Station} {j : Lamp} (hen : (s.station st).enabled = true)
    (hk : (s.station st).kind ≠ .source) (hi : s.homing[st].state ≠ .isolated) : ackEdge st j s =
      match s.ackTarget st j with
      | some (c, pos, t) => acknowledge c pos st j t s
      | none => cueReport (strayAckReport st j) s := by
  have hcond : ¬ (!(s.station st).enabled || (s.station st).kind = .source || s.isolated st) = true := by
    simp only [Bool.or_eq_true, Bool.not_eq_true', decide_eq_true_eq, State.isolated, hen, hk, hi, or_self,
      Bool.true_eq_false, not_false_eq_true]
  exact if_neg hcond

/-- The state an acknowledged target takes. -/
def ackedState (x : TargetState) : TargetState := if x = .late then .ackedLate else .acked

theorem ackedState_code (x : TargetState) : (ackedState x).code = if x = .late then 4 else 2 := by
  unfold ackedState
  split <;> rfl

section

variable {s : State} {c : CueIx} {e : CueEntry} {i : Nat} {st : Station} {j : Lamp} {x : TargetState}

/-- The target acknowledged and told, before its entry is judged. -/
def ackTold (c : CueIx) (i : Nat) (st : Station) (j : Lamp) (x : TargetState) (s : State) : State :=
  reportCue 0xC2 c st.val j.val (ackedState x).code (placeClaim c i st j .ready (setTarget c i (ackedState x) s))

theorem acknowledge_eq : acknowledge c i st j x s = recompute c (ackTold c i st j x s) := rfl

theorem ackTold_only : CueOnly s (ackTold c i st j x s) :=
  ((setTarget_only c i _ s).trans (placeClaim_only _ _ _ _ _ _)).trans (reportCue_only _ _ _ _ _ _)

theorem ackTold_stays : Stays s (ackTold c i st j x s) :=
  ((setTarget_stays c i _ s).trans (placeClaim_stays _ _ _ _ _ _)).trans (reportCue_stays _ _ _ _ _ _)

theorem ackTold_cues : (ackTold c i st j x s).cues = (s.modEntry c fun e =>
    { e with targets := e.targets.set i (ackedState x) }).cues := reportCue_cues _ _ _ _ _ _

theorem ackTold_lamps : (ackTold c i st j x s).lamps = s.lamps.place c i st j .ready := reportCue_lamps _ _ _ _ _ _

theorem ackTold_voices : Voices (reportCue 0xC2 c st.val j.val (if x = .late then 4 else 2) s) (ackTold c i st j x s) := by
  rw [← ackedState_code]
  have hsame : Voices s (placeClaim c i st j .ready (setTarget c i (ackedState x) s)) := ⟨rfl, rfl, rfl⟩
  exact hsame.report _ _ _ _ _

/-- What an acknowledge sets, and what it leaves alone. -/
theorem acknowledge_spec (hlist : CueListOk s) (he : s.entry c = some e) (hR : (s.cueRec c).targets[i]? = some (st, j)) :
    let y := ackedState x
    let t := acknowledge c i st j x s
    let satisfied := (s.cueRec c).ackPolicy.satisfied (e.targets.set i y)
    let told := reportCue 0xC2 c st.val j.val (if x = .late then 4 else 2) s
    t.entry c = some { e with targets := e.targets.set i y, state := e.state.judged satisfied }
      ∧ (∀ d, d ≠ c → t.entry d = s.entry d)
      ∧ (∃ x ∈ t.lamps.claims, x.cue = c ∧ x.pos = i ∧ x.rank = .ready)
      ∧ (ClaimsOk s → ⟨c, i, st, j, .ready⟩ ∈ t.lamps.claims)
      ∧ (∀ x : Claim, (x.cue ≠ c ∨ x.pos ≠ i) → (x ∈ t.lamps.claims ↔ x ∈ s.lamps.claims))
      ∧ t.out = (judgedTold c e.state satisfied told).out
      ∧ t = { s with cues := t.cues, out := t.out, lamps := { s.lamps with claims := t.lamps.claims } } := by
  dsimp only
  rw [acknowledge_eq]
  have htold := entry_of_cues (ackTold_cues (s := s) (c := c) (i := i) (st := st) (j := j) (x := x))
  have hentry : (ackTold c i st j x s).entry c = some { e with targets := e.targets.set i (ackedState x) } :=
    (htold c).trans (entry_modEntry_same (fun _ => by rfl) he)
  have hother : ∀ d, d ≠ c → (ackTold c i st j x s).entry d = s.entry d := fun d hd =>
    (htold d).trans (entry_modEntry_other (fun _ => by rfl) s hd)
  have honly : CueOnly s (ackTold c i st j x s) := ackTold_only
  have hlamps : (ackTold c i st j x s).lamps = s.lamps.place c i st j .ready := ackTold_lamps
  have hvoices := ackTold_voices (s := s) (c := c) (i := i) (st := st) (j := j) (x := x)
  have hfaults : (ackTold c i st j x s).faults.cueWarn = s.faults.cueWarn := reportCue_warn _ _ _ _ _ _
  have hrec : (ackTold c i st j x s).cueRec c = s.cueRec c := honly.cueRec c
  obtain ⟨hcues, kvoices, klamps, kfaults⟩ := recompute_spec
    (((ackTold_stays (c := c) (i := i) (st := st) (j := j) (x := x)).cueList hlist).one hentry) hentry
  have kentry := entry_of_cues (t := recompute c (ackTold c i st j x s)) (s := (ackTold c i st j x s).modEntry c fun y =>
    { y with state := y.state.judged (((ackTold c i st j x s).cueRec c).ackPolicy.satisfied y.targets) }) hcues
  have konly := honly.trans (recompute_only c _)
  refine ⟨?_, fun d hd => ?_, ?_, fun hok => ?_, fun z hz => ?_, ?_, ?_⟩
  · rw [kentry, entry_modEntry_same (fun _ => by rfl) hentry, hrec]
  · rw [kentry, entry_modEntry_other (fun _ => by rfl) _ hd, hother d hd]
  · rw [klamps, hlamps]
    exact s.lamps.exists_mem_place c i st j .ready
  · rw [klamps, hlamps]
    exact (LampState.mem_place (hok.follows c) hR).mpr (.inl rfl)
  · rw [klamps, hlamps]
    exact LampState.mem_place_other fun h => hz.elim (absurd h.1) (absurd h.2)
  · rw [hrec] at kvoices
    exact ((hvoices.judged c _ _).trans kvoices).out
  · have hwarn : (recompute c (ackTold c i st j x s)).faults.cueWarn = s.faults.cueWarn := by rw [kfaults, hfaults]
    have hrest := konly
    unfold CueOnly at hrest
    rw [hwarn] at hrest
    exact hrest

end

/-- Settles O37: the judgement of an entry, and an acknowledge edge by what it finds. -/
theorem acknowledgesReachOneTarget : Obligations.AcknowledgesReachOneTarget := by
  refine ⟨fun s c => ?_, fun s st j hlist => ⟨ackEdge_ignored, fun hen hk hi => ⟨fun hnone => ?_, ?_⟩⟩⟩
  · intro set
    have hsat : ∀ (p : AckPolicy) (ts : List TargetState), p.satisfied ts = match p with
        | .all => ts.all fun x => x = .acked || x = .ackedLate
        | .any => ts.any fun x => x = .acked || x = .ackedLate
        | .none => true := fun p ts => by cases p <;> rfl
    cases he : s.entry c with
    | none => exact recompute_none he
    | some e =>
      rw [recompute_some he, hsat] <;> rfl
  · rw [ackEdge_heard hen hk hi, ackTarget_none hlist hnone] <;> rfl
  · intro before after e i x hs hg hR hy hx hfirst hbefore
    have hmem : e ∈ s.cues := hs ▸ List.mem_append_right _ List.mem_cons_self
    rw [ackEdge_heard hen hk hi, ackTarget_first hlist hs hg hR hy hx hfirst hbefore]
    exact acknowledge_spec hlist (entry_of_mem hlist hmem) hR

end Sys2Proof.Machine
end

section
/-! Events over the targets of one entry: the claims they place, the flag they set and the reports they make; a cue's entry
into the list (R75, R78, R91). -/

namespace Sys2Proof.Machine

/-- A target of an entry: its position, station, lamp and state. -/
abbrev TargetAt : Type := Nat × Station × Lamp × TargetState

/-! Claims placed at one rank (R101). -/

/-- Claims of rank `r` placed for targets in turn. -/
def claimsPlaced (c : CueIx) (r : Rank) (l : List TargetAt) (L : LampState) : LampState :=
  l.foldl (fun L x => L.place c x.1 x.2.1 x.2.2.1 r) L

section

variable {c : CueIx} {r : Rank}

theorem mem_claimsPlaced_other {x : Claim} : ∀ {l : List TargetAt} {L : LampState},
    (x.cue = c → ∀ y ∈ l, y.1 ≠ x.pos) → (x ∈ (claimsPlaced c r l L).claims ↔ x ∈ L.claims)
  | [], _, _ => Iff.rfl
  | y :: l, L, h => by
    rw [claimsPlaced, List.foldl_cons]
    refine (mem_claimsPlaced_other fun hc z hz => h hc z (List.mem_cons_of_mem _ hz)).trans (LampState.mem_place_other ?_)
    rintro ⟨hc, hp⟩
    exact h hc y List.mem_cons_self hp.symm

/-- A claim of the rank stays one under further placings of it. -/
theorem claimsPlaced_keeps (i : Nat) : ∀ {l : List TargetAt} {L : LampState},
    (∃ x ∈ L.claims, x.cue = c ∧ x.pos = i ∧ x.rank = r) → ∃ x ∈ (claimsPlaced c r l L).claims, x.cue = c ∧ x.pos = i ∧ x.rank = r
  | [], _, h => h
  | y :: l, L, h => by
    rw [claimsPlaced, List.foldl_cons]
    refine claimsPlaced_keeps i ?_
    by_cases hy : i = y.1
    · rw [hy]
      exact L.exists_mem_place c y.1 y.2.1 y.2.2.1 r
    · obtain ⟨x, hx, hc, hp, hr⟩ := h
      exact ⟨x, (LampState.mem_place_other fun h => hy (hp.symm.trans h.2)).mpr hx, hc, hp, hr⟩

theorem exists_claimsPlaced {y : TargetAt} : ∀ {l : List TargetAt} {L : LampState}, y ∈ l →
    ∃ x ∈ (claimsPlaced c r l L).claims, x.cue = c ∧ x.pos = y.1 ∧ x.rank = r
  | z :: l, L, h => by
    rw [claimsPlaced, List.foldl_cons]
    rcases List.mem_cons.mp h with rfl | h
    · exact claimsPlaced_keeps _ (L.exists_mem_place c y.1 y.2.1 y.2.2.1 r)
    · exact exists_claimsPlaced h

theorem claimsPlaced_follows {R : List (Station × Lamp)} : ∀ {l : List TargetAt} {L : LampState}, L.Follows c R →
    (∀ x ∈ l, R[x.1]? = some (x.2.1, x.2.2.1)) → (claimsPlaced c r l L).Follows c R
  | [], _, h, _ => h
  | y :: l, L, h, hR => by
    rw [claimsPlaced, List.foldl_cons]
    exact claimsPlaced_follows (h.place (hR y List.mem_cons_self)) fun x hx => hR x (List.mem_cons_of_mem _ hx)

/-- The claim placed is the target's. -/
theorem mem_claimsPlaced {R : List (Station × Lamp)} {l : List TargetAt} {L : LampState} (h : L.Follows c R)
    (hR : ∀ x ∈ l, R[x.1]? = some (x.2.1, x.2.2.1)) {i : Nat} {st : Station} {j : Lamp} {y : TargetState}
    (hy : (i, st, j, y) ∈ l) : ⟨c, i, st, j, r⟩ ∈ (claimsPlaced c r l L).claims := by
  obtain ⟨⟨c', i', st', j', r'⟩, hx, hc, hi, hr⟩ := exists_claimsPlaced (c := c) (r := r) (L := L) hy
  have hplace := claimsPlaced_follows (r := r) h hR _ hx hc
  dsimp only at hc hi hr hplace
  rw [hi, hR _ hy] at hplace
  obtain ⟨rfl, rfl⟩ := Prod.mk.inj (Option.some.inj hplace)
  subst hc hi hr
  exact hx

end

/-! Folds over targets. -/

/-- A step that places a claim of rank `r` for the targets it acts on. -/
theorem foldl_lamps {c : CueIx} {r : Rank} {f : State → TargetAt → State} {acts : TargetAt → Bool}
    (h : ∀ s x, (f s x).lamps = if acts x then s.lamps.place c x.1 x.2.1 x.2.2.1 r else s.lamps) :
    ∀ (l : List TargetAt) (s : State), (l.foldl f s).lamps = claimsPlaced c r (l.filter acts) s.lamps
  | [], _ => rfl
  | x :: l, s => by
    rw [List.foldl_cons, foldl_lamps h l, h, claimsPlaced, claimsPlaced, foldl_filter_cons]

/-- A step that sets the CUE warn flag under WARN for the targets it acts on. -/
theorem foldl_warn {α : Type} {f : State → α → State} {hits : α → Bool} (honly : ∀ s x, CueOnly s (f s x))
    (h : ∀ s x, (f s x).faults.cueWarn = (s.faults.cueWarn || (hits x && s.faults.modes.cue = .warn))) :
    ∀ (l : List α) (s : State), (l.foldl f s).faults.cueWarn = (s.faults.cueWarn || (s.faults.modes.cue = .warn && l.any hits))
  | [], s => by rw [List.any_nil, Bool.and_false, Bool.or_false]; rfl
  | x :: l, s => by
    rw [List.foldl_cons, foldl_warn honly h l, h, (honly s x).modes, List.any_cons, Bool.or_assoc, Bool.and_or_distrib_left,
      Bool.and_comm (hits x)]

/-- A step that reports the targets it acts on. -/
theorem foldl_voices {α : Type} {f g : State → α → State} {tells : α → Bool}
    (h : ∀ u s x, Voices u s → Voices (if tells x then g u x else u) (f s x)) :
    ∀ (l : List α) (u s : State), Voices u s → Voices ((l.filter tells).foldl g u) (l.foldl f s)
  | [], _, _, hu => hu
  | x :: l, u, s, hu => by
    rw [List.foldl_cons, foldl_filter_cons]
    exact foldl_voices h l _ _ (h u s x hu)

theorem foldl_cues {α : Type} {f : State → α → State} (h : ∀ s x, (f s x).cues = s.cues) (l : List α) (s : State) :
    (l.foldl f s).cues = s.cues :=
  foldl_keeps (P := fun t => t.cues = s.cues) (fun t x ht => (h t x).trans ht) l rfl

/-! The targets of an entry as pairs. -/

theorem zipIdx_pairs : ∀ (l : List ((Station × Lamp) × TargetState)) (k : Nat),
    (l.zipIdx k).map (fun x => ((x.1.1.1, x.1.1.2), x.1.2)) = l
  | [], _ => rfl
  | x :: l, k => congrArg (x :: ·) (zipIdx_pairs l (k + 1))

theorem targetsOf_pairs {s : State} {c : CueIx} {e : CueEntry} (he : s.entry c = some e) :
    (s.targetsOf c).map (fun x => ((x.2.1, x.2.2.1), x.2.2.2)) = (s.cueRec c).targets.zip e.targets := by
  rw [State.targetsOf, he]
  dsimp only
  rw [List.map_map]
  exact zipIdx_pairs _ 0

/-- A fold over picked targets reads them as pairs. -/
theorem foldl_pairs {s : State} {c : CueIx} {e : CueEntry} (he : s.entry c = some e) {β : Type}
    (g : β → (Station × Lamp) × TargetState → β) (pick : (Station × Lamp) × TargetState → Bool) (b : β) :
    ((s.targetsOf c).filter fun x => pick ((x.2.1, x.2.2.1), x.2.2.2)).foldl (fun b x => g b ((x.2.1, x.2.2.1), x.2.2.2)) b
      = (((s.cueRec c).targets.zip e.targets).filter pick).foldl g b := by
  rw [← targetsOf_pairs he, List.filter_map, List.foldl_map]
  rfl

theorem any_pairs {s : State} {c : CueIx} {e : CueEntry} (he : s.entry c = some e)
    (pick : (Station × Lamp) × TargetState → Bool) :
    ((s.targetsOf c).any fun x => pick ((x.2.1, x.2.2.1), x.2.2.2)) = ((s.cueRec c).targets.zip e.targets).any pick := by
  rw [← targetsOf_pairs he, List.any_map]
  rfl

/-! A cue enters the list (R78, R91). -/

theorem enterTarget_only (c : CueIx) (s : State) (x : TargetAt) : CueOnly s (enterTarget c s x) := by
  unfold enterTarget
  dsimp only
  split
  · exact (reportCue_only _ _ _ _ _ s).trans (cueEvent_only _)
  · exact placeClaim_only _ _ _ _ _ s

theorem enterTarget_lamps (c : CueIx) (s : State) (x : TargetAt) : (enterTarget c s x).lamps =
    if x.2.2.2 ≠ .lost then s.lamps.place c x.1 x.2.1 x.2.2.1 .standby else s.lamps := by
  unfold enterTarget
  dsimp only
  by_cases h : x.2.2.2 = .lost
  · rw [if_pos h, if_neg (not_not_intro h), cueEvent_lamps, reportCue_lamps]
  · rw [if_neg h, if_pos h]
    rfl

theorem enterTarget_warn (c : CueIx) (s : State) (x : TargetAt) : (enterTarget c s x).faults.cueWarn =
    (s.faults.cueWarn || (decide (x.2.2.2 = .lost) && decide (s.faults.modes.cue = .warn))) := by
  unfold enterTarget
  dsimp only
  by_cases h : x.2.2.2 = .lost
  · rw [if_pos h, cueEvent_warn, reportCue_warn, (reportCue_only _ _ _ _ _ s).modes, decide_eq_true h, Bool.true_and]
  · rw [if_neg h, decide_eq_false h, Bool.false_and, Bool.or_false]
    rfl

theorem enterTarget_voices (c : CueIx) (u s : State) (x : TargetAt) (h : Voices u s) :
    Voices (if decide (x.2.2.2 = .lost) then reportCue 0xC4 c x.2.1.val x.2.2.1.val 0 u else u) (enterTarget c s x) := by
  unfold enterTarget
  dsimp only
  by_cases hx : x.2.2.2 = .lost
  · rw [if_pos hx, if_pos (decide_eq_true hx)]
    exact (h.report _ _ _ _ _).trans (.of_only (cueEvent_only _) (cueEvent_out _))
  · rw [if_neg hx, if_neg (by rw [decide_eq_false hx]; decide)]
    exact h.trans ⟨rfl, rfl, rfl⟩

/-- The states of an entering cue's targets. -/
def State.entering (s : State) (c : CueIx) : List TargetState :=
  (s.cueRec c).targets.map fun x => if s.inService x.1 x.2 then .waiting else .lost

theorem entering_lost (s : State) (x : Station × Lamp) :
    decide ((if s.inService x.1 x.2 then TargetState.waiting else .lost) = .lost) = !s.inService x.1 x.2 := by
  cases s.inService x.1 x.2 <;> rfl

/-- The reports of an entering cue's lost targets. -/
def tellEntering (c : CueIx) (s u : State) : State :=
  ((s.cueRec c).targets.filter fun x => !s.inService x.1 x.2).foldl (fun u x => reportCue 0xC4 c x.1.val x.2.val 0 u) u

theorem placeCueCall_eq (c : CueIx) (s : State) : placeCueCall c s = { s with arb := match (s.cueRec c).callNet with
    | some n => s.arb.cueCall s.live n
    | none => s.arb } := by
  unfold placeCueCall
  cases (s.cueRec c).callNet <;> rfl

/-- What a cue's entry into the list sets, and what it leaves alone. -/
structure Entered (c : CueIx) (g : CueEntry) (s t : State) : Prop where
  cues : t.cues = s.cues ++ [g]
  rest : t = { s with cues := t.cues, arb := t.arb, out := t.out, lamps := { s.lamps with claims := t.lamps.claims },
                      faults := { s.faults with cueWarn := t.faults.cueWarn } }
  standing : ∀ i : Nat, (s.entering c)[i]? = some .waiting → ∃ x ∈ t.lamps.claims, x.cue = c ∧ x.pos = i ∧ x.rank = .standby
  claims : ClaimsOk s → ∀ (i : Nat) (st : Station) (j : Lamp), (s.entering c)[i]? = some .waiting →
    (s.cueRec c).targets[i]? = some (st, j) → ⟨c, i, st, j, .standby⟩ ∈ t.lamps.claims
  others : ∀ x : Claim, (x.cue ≠ c ∨ (s.entering c)[x.pos]? ≠ some .waiting) → (x ∈ t.lamps.claims ↔ x ∈ s.lamps.claims)
  arb : t.arb = match (s.cueRec c).callNet with
    | some n => s.arb.cueCall s.live n
    | none => s.arb
  warn : t.faults.cueWarn = (s.faults.cueWarn || (s.faults.modes.cue = .warn && (s.entering c).any (· = .lost)))
  voices : ∀ u, Voices u s → Voices (tellEntering c s u) t

end Sys2Proof.Machine
end

section
/-! A cue's entry into the list, standing by and by a follow (R78, R91, R92), and the end of a go hold and of a follow
(R88, R93, R94). -/

namespace Sys2Proof.Machine

theorem enterTarget_cues (c : CueIx) (s : State) (x : TargetAt) : (enterTarget c s x).cues = s.cues :=
  (enterTarget_places c s x.1 x.2.1 x.2.2.1 x.2.2.2).1

section

variable {c : CueIx} {es : EntryState} {fo : Option Countdown} {b : Bool} {s : State}

/-- The list with the new entry, before its targets are entered. -/
def appended (c : CueIx) (es : EntryState) (fo : Option Countdown) (b : Bool) (s : State) : State :=
  { s with cues := s.cues ++ [newEntry c es fo b s] }

/-- The list with the new entry, its targets entered. -/
def targetsEntered (c : CueIx) (es : EntryState) (fo : Option Countdown) (b : Bool) (s : State) : State :=
  ((appended c es fo b s).targetsOf c).foldl (enterTarget c) (appended c es fo b s)

theorem enterList_eq : enterList c es fo b s = { targetsEntered c es fo b s with
    arb := match ((targetsEntered c es fo b s).cueRec c).callNet with
      | some n => (targetsEntered c es fo b s).arb.cueCall (targetsEntered c es fo b s).live n
      | none => (targetsEntered c es fo b s).arb } := placeCueCall_eq c _

theorem appended_entry (h : s.entry c = none) : (appended c es fo b s).entry c = some (newEntry c es fo b s) := by
  have hnone : s.cues.find? (fun e => e.cue = c) = none := h
  rw [State.entry, appended, List.find?_append, hnone, Option.none_or]
  exact List.find?_cons_of_pos (p := fun e : CueEntry => decide (e.cue = c)) (decide_eq_true rfl)

theorem appended_only : CueOnly s (appended c es fo b s) := rfl

theorem targetsEntered_only : CueOnly s (targetsEntered c es fo b s) :=
  appended_only.trans (CueOnly.foldl (enterTarget_only c) _ _)

theorem targetsEntered_cues : (targetsEntered c es fo b s).cues = s.cues ++ [newEntry c es fo b s] :=
  foldl_cues (enterTarget_cues c) _ _

theorem targetsEntered_lamps : (targetsEntered c es fo b s).lamps = claimsPlaced c .standby
    (((appended c es fo b s).targetsOf c).filter fun x => x.2.2.2 ≠ .lost) s.lamps :=
  foldl_lamps (acts := fun x => x.2.2.2 ≠ .lost) (fun t x => (enterTarget_lamps c t x).trans (by simp)) _ _

/-- The targets of the new entry are its record's, with their states. -/
theorem mem_appended (h : s.entry c = none) {i : Nat} {st : Station} {j : Lamp} {y : TargetState} :
    (i, st, j, y) ∈ (appended c es fo b s).targetsOf c ↔ (s.cueRec c).targets[i]? = some (st, j) ∧ (s.entering c)[i]? = some y :=
  mem_targetsOf (appended_entry h)

theorem entering_states {y : TargetState} {i : Nat} (h : (s.entering c)[i]? = some y) : y = .waiting ∨ y = .lost := by
  rw [State.entering, List.getElem?_map] at h
  obtain ⟨x, -, rfl⟩ := Option.map_eq_some_iff.mp h
  split
  · exact .inl rfl
  · exact .inr rfl

theorem entering_target {i : Nat} {y : TargetState} (h : (s.entering c)[i]? = some y) :
    ∃ st j, (s.cueRec c).targets[i]? = some (st, j) := by
  rw [State.entering, List.getElem?_map] at h
  obtain ⟨⟨st, j⟩, hx, -⟩ := Option.map_eq_some_iff.mp h
  exact ⟨st, j, hx⟩

/-- The targets that take a claim are those in service. -/
theorem mem_entered (h : s.entry c = none) {i : Nat} {st : Station} {j : Lamp} {y : TargetState} :
    (i, st, j, y) ∈ ((appended c es fo b s).targetsOf c).filter (fun x => x.2.2.2 ≠ .lost) ↔
      y = .waiting ∧ (s.cueRec c).targets[i]? = some (st, j) ∧ (s.entering c)[i]? = some .waiting := by
  rw [List.mem_filter, mem_appended h, decide_eq_true_eq]
  constructor
  · rintro ⟨⟨hR, hy⟩, hne⟩
    rcases entering_states hy with rfl | rfl
    · exact ⟨rfl, hR, hy⟩
    · exact absurd rfl hne
  · rintro ⟨rfl, hR, hy⟩
    exact ⟨⟨hR, hy⟩, by simp⟩

theorem entering_pairs (s : State) (R : List (Station × Lamp)) :
    R.zip (R.map fun x => if s.inService x.1 x.2 then TargetState.waiting else .lost)
      = R.map fun x => (x, if s.inService x.1 x.2 then TargetState.waiting else .lost) := by
  rw [List.zip_map_right, List.zip_eq_zipWith, List.zipWith_self, List.map_map]
  rfl

theorem targetsEntered_voices (h : s.entry c = none) {u : State} (hu : Voices u s) :
    Voices (tellEntering c s u) (targetsEntered c es fo b s) := by
  have key := foldl_voices (enterTarget_voices c) ((appended c es fo b s).targetsOf c) u (appended c es fo b s)
    (hu.trans ⟨rfl, rfl, rfl⟩)
  have hpairs := foldl_pairs (appended_entry (es := es) (fo := fo) (b := b) h) (fun v x => reportCue 0xC4 c x.1.1.val x.1.2.val 0 v)
    (fun x => x.2 = .lost) u
  have htargets : (newEntry c es fo b s).targets = s.entering c := rfl
  have hrec : (appended c es fo b s).cueRec c = s.cueRec c := rfl
  rw [htargets, hrec, State.entering, entering_pairs, List.filter_map, List.foldl_map] at hpairs
  rw [hpairs] at key
  have hpick : ((fun x : (Station × Lamp) × TargetState => decide (x.2 = .lost)) ∘ fun x : Station × Lamp =>
      (x, if s.inService x.1 x.2 then TargetState.waiting else .lost)) = fun x => !s.inService x.1 x.2 :=
    funext fun x => entering_lost s x
  rw [hpick] at key
  exact key

theorem targetsEntered_warn (h : s.entry c = none) : (targetsEntered c es fo b s).faults.cueWarn
    = (s.faults.cueWarn || (s.faults.modes.cue = .warn && (s.entering c).any (· = .lost))) := by
  have key := foldl_warn (enterTarget_only c) (enterTarget_warn c) ((appended c es fo b s).targetsOf c) (appended c es fo b s)
  have hany := any_pairs (appended_entry (es := es) (fo := fo) (b := b) h) (fun x => x.2 = .lost)
  have htargets : (newEntry c es fo b s).targets = s.entering c := rfl
  have hrec : (appended c es fo b s).cueRec c = s.cueRec c := rfl
  rw [htargets, hrec, State.entering, entering_pairs, List.any_map] at hany
  rw [hany] at key
  refine key.trans ?_
  rw [State.entering, List.any_map]
  rfl

theorem enterList_entered (h : s.entry c = none) : Entered c (newEntry c es fo b s) s (enterList c es fo b s) := by
  have honly : CueOnly s (targetsEntered c es fo b s) := targetsEntered_only
  have hcues : (targetsEntered c es fo b s).cues = s.cues ++ [newEntry c es fo b s] := targetsEntered_cues
  have hlamps : (targetsEntered c es fo b s).lamps = _ := targetsEntered_lamps
  have hwarn := targetsEntered_warn (es := es) (fo := fo) (b := b) h
  have hvoices : ∀ u, Voices u s → Voices (tellEntering c s u) (targetsEntered c es fo b s) := fun u hu => targetsEntered_voices h hu
  rw [enterList_eq, honly.cueRec, honly.arb, honly.live]
  generalize targetsEntered c es fo b s = v at honly hcues hlamps hwarn hvoices
  refine ⟨hcues, ?_, fun i hi => ?_, fun hok i st j hi hR => ?_, fun x hx => ?_, rfl, hwarn, fun u hu => ?_⟩
  · exact congrArg (fun w : State => { w with arb := match (s.cueRec c).callNet with
      | some n => s.arb.cueCall s.live n
      | none => s.arb }) honly
  · obtain ⟨st, j, hR⟩ := entering_target hi
    have hmem := (mem_entered (es := es) (fo := fo) (b := b) h).mpr ⟨rfl, hR, hi⟩
    dsimp only
    rw [hlamps]
    exact exists_claimsPlaced hmem
  · have hmem := (mem_entered (es := es) (fo := fo) (b := b) h).mpr ⟨rfl, hR, hi⟩
    dsimp only
    rw [hlamps]
    exact mem_claimsPlaced (hok.follows c) (fun ⟨_, _, _, _⟩ hx => ((mem_entered h).mp hx).2.1) hmem
  · dsimp only
    rw [hlamps]
    refine mem_claimsPlaced_other fun hc ⟨i, st, j, y⟩ hy hp => ?_
    obtain ⟨-, -, hwait⟩ := (mem_entered h).mp hy
    rcases hx with hx | hx
    · exact hx hc
    · exact hx (hp ▸ hwait)
  · exact (hvoices u hu).trans ⟨rfl, rfl, rfl⟩

end

end Sys2Proof.Machine
end

section
/-! Go holds and follows as they expire, a follow started, and Standby as it is served (R77, R78, R88, R91 to R94). -/

namespace Sys2Proof.Machine

/-! Go holds and follows (R88, R93, R94). -/

theorem goHold_isDue {s : State} {c : CueIx} {e : CueEntry} (he : s.entry c = some e) (hg : e.state = .going)
    (hz : e.goHold = 0) : (Due.goHold c).isDue s = true := by
  rw [Due.isDue, he, Option.any_some, hg, hz]
  rfl

theorem follow_isDue {s : State} {c : CueIx} {e : CueEntry} {f : Countdown} (he : s.entry c = some e) (hf : e.follow = some f)
    (hd : f.due = true) : (Due.follow c).isDue s = true := by
  rw [Due.isDue, he, Option.any_some, hf, Option.any_some, hd]

theorem expireGoHold_eq {s : State} {c : CueIx} {e : CueEntry} (he : s.entry c = some e) :
    expireGoHold c s = reportCue 0xCA c (bit 0 e.unready + bit 1 e.forced) 0 0
      { s with cues := s.cues.filter (fun x => x.cue ≠ c),
               lamps := { s.lamps with claims := s.lamps.claims.filter fun x => x.cue ≠ c } } := by
  rw [expireGoHold, he]
  rfl

theorem expireFollow_eq {s : State} {c : CueIx} {e : CueEntry} {f : Countdown} (he : s.entry c = some e)
    (hf : e.follow = some f) : expireFollow c s =
      if e.state = .standby ∧ (s.cueRec c).goPolicy = .strict then
        reportCue 0xCE c f.starter.val 0 0 (s.modEntry c fun e => { e with follow := none })
      else entryGoes c false (s.modEntry c fun e => { e with follow := none }) := by
  rw [expireFollow, he]
  dsimp only
  rw [hf]
  exact if_congr (by rw [Bool.and_eq_true, decide_eq_true_eq, decide_eq_true_eq]) rfl rfl

/-! A follow started (R91, R92). -/

section

variable {s : State} {a b : CueIx} {d : Nat}

theorem startFollow_disabled (hn : s.entry b = none) (hd : (s.cueRec b).enabled = false) :
    startFollow a b d s = reportCue 0xCD b a.val 1 0 s := by
  rw [startFollow, hn]
  dsimp only
  rw [hd]
  rfl

theorem startFollow_full (hn : s.entry b = none) (he : (s.cueRec b).enabled = true) (hfull : 16 ≤ s.cues.length) :
    startFollow a b d s = reportCue 0xCD b a.val 2 0 s := by
  rw [startFollow, hn]
  dsimp only
  rw [he, if_neg (by decide), if_pos hfull]
  rfl

theorem startFollow_going {e : CueEntry} (he : s.entry b = some e) (hg : e.state = .going) :
    startFollow a b d s = reportCue 0xCD b a.val 3 0 s := by
  rw [startFollow, he]
  exact if_pos hg

theorem startFollow_placed {e : CueEntry} (he : s.entry b = some e) (hg : e.state ≠ .going) :
    startFollow a b d s = reportCue 0xCC b a.val 0 0
      { s with cues := s.cues.map fun x =>
          if x.cue = b then { x with follow := some { remaining := d, due := false, starter := a } } else x } := by
  rw [startFollow, he]
  exact if_neg hg

theorem startFollow_enters (hn : s.entry b = none) (he : (s.cueRec b).enabled = true) (hroom : s.cues.length < 16) :
    startFollow a b d s = reportCue 0xCC b a.val 0 0 (enterList b .countdown (some ⟨d, false, a⟩) true s) := by
  rw [startFollow, hn]
  dsimp only
  rw [he, if_neg (by decide), if_neg (Nat.not_le.mpr hroom)]

end

theorem reportCue_arb (k : Nat) (c : CueIx) (d1 d2 d3 : Nat) (s : State) : (reportCue k c d1 d2 d3 s).arb = s.arb :=
  (reportCue_only k c d1 d2 d3 s).arb

theorem reportCue_rest (k : Nat) (c : CueIx) (d1 d2 d3 : Nat) (s : State) :
    reportCue k c d1 d2 d3 s = { s with out := (reportCue k c d1 d2 d3 s).out } := by
  unfold reportCue cueReport
  split <;> rfl

/-- A cue entered and then reported is entered. -/
theorem Entered.reported {c : CueIx} {g : CueEntry} {s t : State} (h : Entered c g s t) (k d1 d2 d3 : Nat) :
    let v := reportCue k c d1 d2 d3 t
    v.cues = t.cues ∧ v.lamps = t.lamps ∧ v.arb = t.arb ∧ v.faults.cueWarn = t.faults.cueWarn
      ∧ v.out = (reportCue k c d1 d2 d3 (tellEntering c s s)).out
      ∧ v = { s with cues := v.cues, arb := v.arb, out := v.out, lamps := { s.lamps with claims := v.lamps.claims },
                     faults := { s.faults with cueWarn := v.faults.cueWarn } } := by
  have hvoices := (h.voices s (.refl s)).report k c d1 d2 d3
  have hrest := reportCue_rest k c d1 d2 d3 t
  dsimp only
  generalize reportCue k c d1 d2 d3 t = v at hrest hvoices
  have hcues : v.cues = t.cues := by rw [hrest]
  have hlamps : v.lamps = t.lamps := by rw [hrest]
  have harb : v.arb = t.arb := by rw [hrest]
  have hwarn : v.faults.cueWarn = t.faults.cueWarn := by rw [hrest]
  refine ⟨hcues, hlamps, harb, hwarn, hvoices.out, ?_⟩
  rw [hcues, hlamps, harb, hwarn]
  exact hrest.trans (congrArg (fun w : State => { w with out := v.out }) h.rest)

/-- Settles O17: what an expiry and a started follow do, by what they find. -/
theorem goHoldAndFollowExpire : Obligations.GoHoldAndFollowExpire := by
  refine ⟨fun s c e hcalm he => ⟨fun hg hz => ?_, fun f hf hd => ?_⟩, fun s a b d => ⟨startFollow_disabled, startFollow_full,
    fun e => startFollow_going, fun e => startFollow_placed, fun hn hen hroom _ => ?_⟩⟩
  · rw [exec_event_due (d := .goHold c) rfl hcalm (goHold_isDue he hg hz), Due.take, expireGoHold_eq he]
  · rw [exec_event_due (d := .follow c) rfl hcalm (follow_isDue he hf hd), Due.take, expireFollow_eq he hf] <;> rfl
  · intro t targets
    have h : Entered b (newEntry b .countdown (some ⟨d, false, a⟩) true s) s (enterList b .countdown (some ⟨d, false, a⟩) true s) :=
      enterList_entered hn
    have ht : t = reportCue 0xCC b a.val 0 0 (enterList b .countdown (some ⟨d, false, a⟩) true s) := startFollow_enters hn hen hroom
    obtain ⟨hcues, hlamps, harb, hwarn, hout, hrest⟩ := h.reported 0xCC a.val 0 0
    rw [← ht] at hcues hlamps harb hwarn hout hrest
    refine ⟨hcues.trans h.cues, ?_, ?_, ?_, harb.trans h.arb, hwarn.trans h.warn, hout, hrest⟩
    · rw [hlamps]
      exact h.standing
    · rw [hlamps]
      exact h.claims
    · rw [hlamps]
      exact h.others

end Sys2Proof.Machine
end

section
/-! Standby as it is served (R77, R78). -/

namespace Sys2Proof.Machine

theorem exec_standby_serves {s : State} {q : QueuedRequest} {ref : CueRef} (h : Serves s q) (hq : q.req = .standby ref) :
    exec .standby s = .next (serveStandby q ref s) := serving_eq h (by simp only [hq])

/-! The checks of a Standby, in their order (R77). -/

theorem resolve_next_ended {t : CueTable} (h : t.ended = true) : t.resolve .next = none := if_pos h

theorem resolve_cue {t : CueTable} {ref : CueRef} {c : CueIx}
    (h : ref = .index c ∨ (ref = .next ∧ t.ended = false ∧ t.pointer = c)) : t.resolve ref = some c := by
  rcases h with rfl | ⟨rfl, hended, rfl⟩
  · rfl
  · exact if_neg (by rw [hended]; decide)

section

variable {q : QueuedRequest} {ref : CueRef} {s : State}

theorem serveStandby_other (h : (windowEnded s).auth.holder ≠ some q.port) :
    serveStandby q ref s = respond q .noAuthority (cueBody ref.named) (windowEnded s) := by
  rw [serveStandby, endWindow_eq, if_pos (not_fromHolder h)]

theorem serveStandby_unverified (h : (windowEnded s).auth.holder = some q.port) (hu : (windowEnded s).table.unverified = true) :
    serveStandby q ref s = respond q .unverified (cueBody ref.named) (windowEnded s) := by
  rw [serveStandby, endWindow_eq, if_neg (is_fromHolder h), if_pos hu]

theorem serveStandby_ended (h : (windowEnded s).auth.holder = some q.port) (hu : (windowEnded s).table.unverified = false)
    (hr : (windowEnded s).table.resolve ref = none) : serveStandby q ref s = respond q .badValue [] (windowEnded s) := by
  have hmark : ¬ (windowEnded s).table.unverified = true := by rw [hu]; decide
  rw [serveStandby, endWindow_eq, if_neg (is_fromHolder h), if_neg hmark, hr]

theorem serveStandby_cue {c : CueIx} {r : Result} {t : State} (h : (windowEnded s).auth.holder = some q.port)
    (hu : (windowEnded s).table.unverified = false) (hr : (windowEnded s).table.resolve ref = some c)
    (hc : standbyCue c (windowEnded s) = (r, t)) : serveStandby q ref s = respond q r [byteOf c.val] t := by
  have hmark : ¬ (windowEnded s).table.unverified = true := by rw [hu]; decide
  rw [serveStandby, endWindow_eq, if_neg (is_fromHolder h), if_neg hmark, hr]
  dsimp only
  rw [hc]
  rfl

end

section

variable {c : CueIx} {e : State}

theorem standbyCue_disabled (h : (e.cueRec c).enabled = false) : standbyCue c e = (.badValue, e) := by
  rw [standbyCue, h] <;> rfl

theorem standbyCue_active (h : (e.cueRec c).enabled = true) (ha : ∃ x ∈ e.cues, x.cue = c) : standbyCue c e = (.active, e) := by
  rw [standbyCue, h, isActive_iff.mpr ha] <;> rfl

theorem not_active (h : ∀ x ∈ e.cues, x.cue ≠ c) : e.isActive c = false :=
  Bool.eq_false_iff.mpr fun ha => by
    obtain ⟨x, hx, hc⟩ := isActive_iff.mp ha
    exact h x hx hc

theorem standbyCue_full (h : (e.cueRec c).enabled = true) (ha : ∀ x ∈ e.cues, x.cue ≠ c) (hf : 16 ≤ e.cues.length) :
    standbyCue c e = (.listFull, e) := by
  rw [standbyCue, h, not_active ha, if_neg (by decide), if_neg (by decide), if_pos hf]

theorem standbyCue_placed (h : (e.cueRec c).enabled = true) (ha : ∀ x ∈ e.cues, x.cue ≠ c) (hf : e.cues.length < 16) :
    standbyCue c e = (.ok, placeInStandby c e) := by
  rw [standbyCue, h, not_active ha, if_neg (by decide), if_neg (by decide), if_neg (Nat.not_le.mpr hf)]

theorem entry_none_of_absent (h : ∀ x ∈ e.cues, x.cue ≠ c) : e.entry c = none :=
  List.find?_eq_none.mpr fun x hx hc => h x hx (of_decide_eq_true hc)

end

/-! The entry judged at once (R81). -/

/-- The list once the entry at its end is judged. -/
theorem append_judged {l : List CueEntry} {g : CueEntry} {f : CueEntry → CueEntry} (h : ∀ x ∈ l, x.cue ≠ g.cue) :
    ((l ++ [g]).map fun x => if x.cue = g.cue then f x else x) = l ++ [f g] := by
  have hold : (l.map fun x => if x.cue = g.cue then f x else x) = l := by
    refine (List.map_congr_left fun x hx => if_neg (h x hx)).trans (List.map_id' l)
  rw [List.map_append, hold, List.map_singleton, if_pos rfl]

/-- What a Standby sets, and what it leaves alone. -/
theorem placeInStandby_spec {c : CueIx} {e : State} (ha : ∀ x ∈ e.cues, x.cue ≠ c) :
    let t := placeInStandby c e
    let g := newEntry c .standby none false e
    let satisfied := (e.cueRec c).ackPolicy.satisfied (e.entering c)
    t.cues = e.cues ++ [{ g with state := EntryState.standby.judged satisfied }]
      ∧ (∃ v, Entered c g e v ∧ t.lamps = v.lamps ∧ t.arb = v.arb ∧ t.faults.cueWarn = v.faults.cueWarn
        ∧ Voices (judgedTold c .standby satisfied (tellEntering c e e)) t)
      ∧ t = { e with cues := t.cues, arb := t.arb, out := t.out, lamps := { e.lamps with claims := t.lamps.claims },
                     faults := { e.faults with cueWarn := t.faults.cueWarn } } := by
  have h : Entered c (newEntry c .standby none false e) e (enterList c .standby none false e) :=
    enterList_entered (entry_none_of_absent ha)
  dsimp only
  rw [placeInStandby]
  generalize hv : enterList c .standby none false e = v at h
  have hmem : ∀ x ∈ v.cues, x.cue = c → x = newEntry c .standby none false e := fun x hx hc => by
    rw [h.cues] at hx
    rcases List.mem_append.mp hx with hx | hx
    · exact absurd hc (ha x hx)
    · exact List.mem_singleton.mp hx
  have hentry : v.entry c = some (newEntry c .standby none false e) :=
    (entry_of_cues (s := appended c .standby none false e) h.cues c).trans (appended_entry (entry_none_of_absent ha))
  have hrec : v.cueRec c = e.cueRec c := by
    rw [State.cueRec, h.rest]
    rfl
  obtain ⟨hcues, hvoices, hlamps, hfaults⟩ := recompute_spec hmem hentry
  have honly := recompute_only c v
  rw [hrec] at hcues hvoices
  have htold := ((h.voices e (.refl e)).judged c .standby ((e.cueRec c).ackPolicy.satisfied (e.entering c))).trans hvoices
  generalize recompute c v = t at hcues hlamps hfaults honly htold
  refine ⟨?_, ⟨v, h, hlamps, honly.arb, by rw [hfaults], htold⟩, ?_⟩
  · rw [hcues, h.cues]
    exact append_judged (g := newEntry c .standby none false e) ha
  · have harb : t.arb = v.arb := honly.arb
    rw [harb]
    unfold CueOnly at honly
    exact honly.trans (congrArg (fun w : State => { w with
      cues := t.cues, out := t.out, lamps := { w.lamps with claims := t.lamps.claims },
      faults := { w.faults with cueWarn := t.faults.cueWarn } }) h.rest)

theorem judged_standby (b : Bool) : EntryState.standby.judged b = if b then .ready else .standby := by cases b <;> rfl

theorem judgedTold_standby (c : CueIx) (b : Bool) (s : State) :
    judgedTold c .standby b s = if b then reportCue 0xC0 c 0 0 0 s else s := by cases b <;> rfl

theorem claimsOk_windowEnded {s : State} (h : ClaimsOk s) : ClaimsOk (windowEnded s) := h

/-- Settles O47: the checks in their order, and a cue placed in standby. -/
theorem standbyServed : Obligations.StandbyServed := by
  intro s q ref hserves hq e
  rw [exec_standby_serves hserves hq]
  refine ⟨fun hn => ?_, fun hh hu => ?_, fun hh hu hnext hend => ?_, fun c hh hu href => ?_⟩
  · rw [serveStandby_other hn]
  · rw [serveStandby_unverified hh hu]
  · rw [serveStandby_ended hh hu (by rw [hnext, resolve_next_ended hend])]
  · have hserve : ∀ r t, standbyCue c e = (r, t) → serveStandby q ref s = respond q r [byteOf c.val] t := fun r t =>
      serveStandby_cue hh hu (resolve_cue href)
    refine ⟨fun hd => ?_, fun hen hact => ?_, fun hen hno hfull => ?_, fun hen hno hroom => ?_⟩
    · rw [hserve _ _ (standbyCue_disabled hd)]
    · rw [hserve _ _ (standbyCue_active hen hact)]
    · rw [hserve _ _ (standbyCue_full hen hno hfull)]
    · rw [hserve _ _ (standbyCue_placed hen hno hroom)]
      obtain ⟨hcues, ⟨v, h, hlamps, harb, hwarn, hvoices⟩, hrest⟩ := placeInStandby_spec hno
      rw [judged_standby] at hcues
      rw [judgedTold_standby] at hvoices
      refine ⟨_, rfl, hcues, ?_, ?_, ?_, harb.trans h.arb, hwarn.trans h.warn, hvoices.out, hrest⟩
      · rw [hlamps]
        exact h.standing
      · rw [hlamps]
        exact fun hok => h.claims (claimsOk_windowEnded hok)
      · rw [hlamps]
        exact h.others

end Sys2Proof.Machine
end

section
/-! GO as it is served (R84 to R87, R68). -/

namespace Sys2Proof.Machine

theorem exec_go_serves {s : State} {q : QueuedRequest} {ref : CueRef} {f : Bool} (h : Serves s q) (hq : q.req = .go ref f) :
    exec .go s = .next (serveGo q ref f s) := serving_eq h (by simp only [hq])

/-! The checks of a GO, in their order (R84). -/

section

variable {q : QueuedRequest} {ref : CueRef} {f : Bool} {s : State}

theorem serveGo_other (h : (windowEnded s).auth.holder ≠ some q.port) :
    serveGo q ref f s = respond q .noAuthority (cueBody ref.named) (windowEnded s) := by
  rw [serveGo, endWindow_eq, if_pos (not_fromHolder h)]

theorem serveGo_ended (h : (windowEnded s).auth.holder = some q.port) (hr : (windowEnded s).table.resolve ref = none) :
    serveGo q ref f s = respond q .badValue [] (windowEnded s) := by
  rw [serveGo, endWindow_eq, if_neg (is_fromHolder h), hr]

theorem serveGo_cue {c : CueIx} {r : Result} {t : State} (h : (windowEnded s).auth.holder = some q.port)
    (hr : (windowEnded s).table.resolve ref = some c) (hc : goCue c f (windowEnded s) = (r, t)) :
    serveGo q ref f s = respond q r [byteOf c.val] t := by
  rw [serveGo, endWindow_eq, if_neg (is_fromHolder h), hr]
  dsimp only
  rw [hc]
  rfl

end

section

variable {c : CueIx} {f : Bool} {e : State} {x : CueEntry}

theorem goCue_inactive (h : e.entry c = none) : goCue c f e = (.notActive, e) := by
  rw [goCue, h]

theorem goCue_gone (h : e.entry c = some x) (hg : x.state = .going) : goCue c f e = (.alreadyGone, e) := by
  rw [goCue, h]
  exact if_pos hg

theorem goCue_notReady (h : e.entry c = some x) (hs : x.state = .standby) (hp : (e.cueRec c).goPolicy = .strict)
    (hf : f = false) : goCue c f e = (.notReady, e) := by
  have hcheck : (x.state = .standby && (e.cueRec c).goPolicy = .strict && !f : Bool) = true := by
    rw [hs, hp, hf]
    rfl
  have hg : x.state ≠ .going := by rw [hs]; decide
  rw [goCue, h]
  dsimp only
  rw [if_neg hg, if_pos hcheck]

theorem goCue_goes (h : e.entry c = some x) (hg : x.state ≠ .going)
    (hready : x.state = .standby → (e.cueRec c).goPolicy = .strict → f = true) : goCue c f e = (.ok, entryGoes c f e) := by
  have hcheck : ¬ (x.state = .standby && (e.cueRec c).goPolicy = .strict && !f : Bool) = true := by
    simp only [Bool.and_eq_true, decide_eq_true_eq, Bool.not_eq_true']
    rintro ⟨⟨hs, hp⟩, hf⟩
    rw [hready hs hp] at hf
    cases hf
  rw [goCue, h]
  dsimp only
  rw [if_neg hg, if_neg hcheck]

end

/-! What a GO sets (R85, R86). -/

theorem claimsPlaced_rest (c : CueIx) (r : Rank) : ∀ (l : List TargetAt) (L : LampState),
    claimsPlaced c r l L = { L with claims := (claimsPlaced c r l L).claims }
  | [], _ => rfl
  | x :: l, L => by
    have hplace : L.place c x.1 x.2.1 x.2.2.1 r = { L with claims := (L.place c x.1 x.2.1 x.2.2.1 r).claims } := by
      unfold LampState.place
      split <;> rfl
    have hrest := claimsPlaced_rest c r l (L.place c x.1 x.2.1 x.2.2.1 r)
    exact hrest.trans (congrArg (fun M : LampState =>
      { M with claims := (claimsPlaced c r l (L.place c x.1 x.2.1 x.2.2.1 r)).claims }) hplace)

theorem goTarget_eq (c : CueIx) (s : State) (x : TargetAt) : goTarget c s x = { s with
    lamps := if x.2.2.2 ≠ .lost then s.lamps.place c x.1 x.2.1 x.2.2.1 .go else s.lamps } := by
  unfold goTarget
  dsimp only
  by_cases h : x.2.2.2 = .lost
  · rw [if_pos h, if_neg (not_not_intro h)]
  · rw [if_neg h, if_pos h]
    rfl

theorem goTargets_eq (c : CueIx) (l : List TargetAt) (s : State) : l.foldl (goTarget c) s = { s with
    lamps := claimsPlaced c .go (l.filter fun x => x.2.2.2 ≠ .lost) s.lamps } := by
  have hlamps := foldl_lamps (c := c) (r := .go) (f := goTarget c) (acts := fun x : TargetAt => x.2.2.2 ≠ TargetState.lost)
    (fun t x => by rw [goTarget_eq]; simp) l s
  have hrest : l.foldl (goTarget c) s = { s with lamps := (l.foldl (goTarget c) s).lamps } :=
    foldl_keeps (P := fun t => t = { s with lamps := t.lamps })
      (fun t x ht => by
        have hset : ∀ L, { t with lamps := L } = { s with lamps := L } := fun L =>
          congrArg (fun w : State => { w with lamps := L }) ht
        rw [goTarget_eq]
        exact hset _) l rfl
  rw [hrest, hlamps]

/-- Take pending set to what it is given. -/
def withPending (o : Option TakeOrigin) (s : State) : State := { s with takePending := o }

theorem recordTake_eq (c : CueIx) (s : State) : recordTake c s = ((s.cueRec c).takeOnGo && s.unverified, withPending
    (if (s.cueRec c).takeOnGo && !s.unverified && s.takePending.isNone then some (.cue c) else s.takePending) s) := by
  have hrun : takeFromGo c s = if s.unverified then (true, s) else match s.takePending with
      | some _ => (false, s)
      | none => (false, withPending (some (.cue c)) s) := rfl
  rw [recordTake, hrun]
  cases (s.cueRec c).takeOnGo with
  | false => rfl
  | true =>
    rw [if_pos rfl, Bool.true_and, Bool.true_and]
    by_cases hu : s.unverified = true
    · rw [if_pos hu, hu]
      rfl
    · rw [if_neg hu, Bool.eq_false_iff.mpr hu]
      cases ht : s.takePending with
      | none => rfl
      | some o =>
        have hkeep : withPending (some o) s = s := by
          rw [← ht]
          rfl
        exact congrArg (Prod.mk false) hkeep.symm

/-- The entry gone, its claims, the pointer and the take, before the report. -/
def wentSet (c : CueIx) (g : CueEntry) (s : State) : State :=
  { s with
    cues := s.cues.map fun y => if y.cue = c then g else y,
    lamps := claimsPlaced c .go (((s.modEntry c fun _ => g).targetsOf c).filter fun x => x.2.2.2 ≠ .lost) s.lamps,
    table := s.table.advance c,
    takePending := if (s.cueRec c).takeOnGo && !s.unverified && s.takePending.isNone then some (.cue c) else s.takePending }

/-- The entry gone and reported, before its record's follow. -/
def went (c : CueIx) (force : Bool) (x : CueEntry) (s : State) : State :=
  reportCue (goingKind (!(s.cueRec c).ackPolicy.satisfied x.targets) (force && x.state = .standby)) c x.state.code
    (bit 0 ((s.cueRec c).takeOnGo && s.unverified)) 0 (wentSet c (x.gone (s.cueRec c) force) s)

theorem advance_records (t : CueTable) (c : CueIx) : (t.advance c).records = t.records := by
  unfold CueTable.advance
  split
  · split <;> rfl
  · rfl

theorem went_records (c : CueIx) (force : Bool) (x : CueEntry) (s : State) (d : CueIx) :
    (went c force x s).cueRec d = s.cueRec d := by
  rw [went, (reportCue_only _ _ _ _ _ _).cueRec, State.cueRec, wentSet]
  dsimp only
  rw [advance_records]
  rfl

theorem entryGoes_eq {c : CueIx} {force : Bool} {x : CueEntry} {s : State} (h : s.entry c = some x) :
    entryGoes c force s = match (s.cueRec c).follow with
      | some (b, d) => startFollow c b d (went c force x s)
      | none => went c force x s := by
  have hadv : ∀ u : State, (u.modTable (·.advance c)).cueRec c = u.cueRec c := fun u => by
    rw [State.cueRec, State.cueRec]
    exact congrArg (fun v : Vector CueRecord 256 => v[c]) (advance_records u.table c)
  have hwent : entryGoes c force s = startRecordFollow c (went c force x s) := by
    rw [entryGoes, h]
    dsimp only
    rw [goTargets_eq, recordTake_eq, hadv]
    rfl
  rw [hwent, startRecordFollow, went_records] <;> rfl

end Sys2Proof.Machine
end

section
/-! An entry gone: the list, the claims, the pointer, the take and the report (R68, R85, R86). -/

namespace Sys2Proof.Machine

section

variable {c : CueIx} {f : Bool} {x : CueEntry} {e : State}

/-- The list with the entry gone. -/
theorem wentSet_cues (hlist : CueListOk e) (hx : e.entry c = some x) (r : CueRecord) :
    (e.cues.map fun y => if y.cue = c then x.gone r f else y) = (e.modEntry c fun y => y.gone r f).cues :=
  map_modEntry (hlist.one hx) (f := fun _ => x.gone r f) (g := fun y => y.gone r f) rfl

theorem went_cues (hlist : CueListOk e) (hx : e.entry c = some x) :
    (went c f x e).cues = (e.modEntry c fun y => y.gone (e.cueRec c) f).cues := by
  rw [went, reportCue_cues]
  exact wentSet_cues hlist hx _

theorem went_entry (hlist : CueListOk e) (hx : e.entry c = some x) :
    (went c f x e).entry c = some (x.gone (e.cueRec c) f) :=
  (entry_of_cues (went_cues hlist hx) c).trans (entry_modEntry_same (fun _ => by rfl) hx)

theorem went_others (hlist : CueListOk e) (hx : e.entry c = some x) {d : CueIx} (hd : d ≠ c) :
    (went c f x e).entry d = e.entry d :=
  (entry_of_cues (went_cues hlist hx) d).trans (entry_modEntry_other (fun _ => by rfl) e hd)

theorem went_order (hlist : CueListOk e) (hx : e.entry c = some x) :
    (went c f x e).cues.map (·.cue) = e.cues.map (·.cue) := by
  rw [went_cues hlist hx, State.modEntry_cues, List.map_map]
  refine List.map_congr_left fun y _ => ?_
  dsimp only [Function.comp_apply]
  split <;> rfl

/-- The targets that take a GO claim. -/
def goTargets (c : CueIx) (g : CueEntry) (e : State) : List TargetAt :=
  ((e.modEntry c fun _ => g).targetsOf c).filter fun y => y.2.2.2 ≠ .lost

/-- The entry of a cue replaced by another of it. -/
theorem find_replaced {g : CueEntry} (hg : g.cue = c) : ∀ l : List CueEntry, l.find? (fun y => y.cue = c) = some x →
    (l.map fun y => if y.cue = c then g else y).find? (fun y => y.cue = c) = some g
  | [], h => by cases h
  | y :: l, h => by
    by_cases hy : y.cue = c
    · rw [List.map_cons, if_pos hy]
      exact List.find?_cons_of_pos (p := fun y : CueEntry => decide (y.cue = c)) (decide_eq_true hg)
    · have hy' : ¬ decide (y.cue = c) = true := fun h => hy (of_decide_eq_true h)
      rw [List.find?_cons_of_neg (p := fun y : CueEntry => decide (y.cue = c)) hy'] at h
      rw [List.map_cons, if_neg hy, List.find?_cons_of_neg (p := fun y : CueEntry => decide (y.cue = c)) hy']
      exact find_replaced hg l h

theorem mem_goTargets (hx : e.entry c = some x) {r : CueRecord} {i : Nat} {st : Station} {j : Lamp} {y : TargetState} :
    (i, st, j, y) ∈ goTargets c (x.gone r f) e ↔
      ((e.cueRec c).targets[i]? = some (st, j) ∧ x.targets[i]? = some y) ∧ y ≠ .lost := by
  have hfind : ((e.modEntry c fun _ => x.gone r f)).entry c = some (x.gone r f) := by
    have hcue : x.cue = c := entry_cue hx
    exact find_replaced (g := x.gone r f) hcue e.cues hx
  rw [goTargets, List.mem_filter, mem_targetsOf hfind, decide_eq_true_eq]
  rfl

theorem went_lamps : (went c f x e).lamps = claimsPlaced c .go (goTargets c (x.gone (e.cueRec c) f) e) e.lamps :=
  reportCue_lamps _ _ _ _ _ _

theorem went_standing (hlist : CueListOk e) (hx : e.entry c = some x) {i : Nat} {y : TargetState} (hy : x.targets[i]? = some y)
    (hl : y ≠ .lost) : ∃ z ∈ (went c f x e).lamps.claims, z.cue = c ∧ z.pos = i ∧ z.rank = .go := by
  have hlen : i < (e.cueRec c).targets.length := by
    have hsame := hlist.2.2 x (entry_mem hx)
    rw [entry_cue hx] at hsame
    exact hsame ▸ (List.getElem?_eq_some_iff.mp hy).1
  rw [went_lamps]
  exact exists_claimsPlaced ((mem_goTargets hx).mpr ⟨⟨List.getElem?_eq_getElem hlen, hy⟩, hl⟩)

theorem went_claims (hok : ClaimsOk e) (hx : e.entry c = some x) {i : Nat} {y : TargetState} {st : Station} {j : Lamp}
    (hy : x.targets[i]? = some y) (hl : y ≠ .lost) (hR : (e.cueRec c).targets[i]? = some (st, j)) :
    ⟨c, i, st, j, .go⟩ ∈ (went c f x e).lamps.claims := by
  rw [went_lamps]
  exact mem_claimsPlaced (hok.follows c) (fun ⟨_, _, _, _⟩ hz => ((mem_goTargets hx).mp hz).1.1)
    ((mem_goTargets hx).mpr ⟨⟨hR, hy⟩, hl⟩)

theorem went_otherClaims {z : Claim} (hz : z.cue ≠ c) : z ∈ (went c f x e).lamps.claims ↔ z ∈ e.lamps.claims := by
  rw [went_lamps]
  exact mem_claimsPlaced_other fun h => absurd h hz

end

/-! The pointer (R68). -/

theorem advance_keeps {t : CueTable} {c : CueIx} (h : t.ended = true ∨ t.pointer ≠ c) : t.advance c = t := by
  refine if_neg ?_
  rw [Bool.and_eq_true, Bool.not_eq_true', decide_eq_true_eq]
  rintro ⟨hended, hpointer⟩
  rcases h with h | h
  · rw [h] at hended
    cases hended
  · exact h hpointer

theorem advance_moves {t : CueTable} {c : CueIx} (hended : t.ended = false) (hpointer : t.pointer = c) :
    t.advance c = match t.nextEnabled (c.val + 1) with
      | some p => { t with pointer := p }
      | none => { t with ended := true } := by
  have hon : (!t.ended && t.pointer = c : Bool) = true := by
    rw [hended, decide_eq_true hpointer]
    rfl
  rw [CueTable.advance, if_pos hon] <;> rfl

theorem advance_next {t : CueTable} {c d : CueIx} (hended : t.ended = false) (hpointer : t.pointer = c) (hlt : c < d)
    (hlo : t.fixedSize ≤ d.val) (hhi : d.val < t.fixedSize + t.seqSize) (hen : t.records[d].enabled = true)
    (hfirst : ∀ d' : CueIx, c < d' → d' < d → t.fixedSize ≤ d'.val → t.records[d'].enabled = false) :
    t.advance c = { t with pointer := d } := by
  have hnext : t.nextEnabled (c.val + 1) = some d :=
    nextEnabled_first hlt (inSequence_iff.mpr ⟨hlo, hhi⟩) hen fun d' hd hlt' hseq =>
      hfirst d' hd hlt' (inSequence_iff.mp hseq).1
  rw [advance_moves hended hpointer, hnext]

theorem advance_ends {t : CueTable} {c : CueIx} (hended : t.ended = false) (hpointer : t.pointer = c)
    (hnone : ∀ d : CueIx, c < d → t.fixedSize ≤ d.val → d.val < t.fixedSize + t.seqSize → t.records[d].enabled = false) :
    t.advance c = { t with ended := true } := by
  have hnext : t.nextEnabled (c.val + 1) = none :=
    nextEnabled_none fun d hd hseq => hnone d hd (inSequence_iff.mp hseq).1 (inSequence_iff.mp hseq).2
  rw [advance_moves hended hpointer, hnext]

/-! The rest of what a GO sets. -/

section

variable {c : CueIx} {f : Bool} {x : CueEntry} {e : State}

theorem went_table : (went c f x e).table = e.table.advance c := (reportCue_only _ _ _ _ _ _).table

theorem went_pending : (went c f x e).takePending
    = if (e.cueRec c).takeOnGo && !e.unverified && e.takePending.isNone then some (.cue c) else e.takePending := by
  rw [went, reportCue_rest]
  rfl

theorem wentSet_voices (g : CueEntry) : Voices e (wentSet c g e) := ⟨rfl, advance_records e.table c, rfl⟩

theorem goingKind_eq (satisfied forced : Bool) :
    goingKind (!satisfied) forced = if forced then 0xC9 else if satisfied then 0xC7 else 0xC8 := by
  cases satisfied <;> cases forced <;> rfl

theorem went_out : (went c f x e).out =
    (reportCue (if f && x.state = .standby then 0xC9 else if (e.cueRec c).ackPolicy.satisfied x.targets then 0xC7 else 0xC8) c
      x.state.code (if (e.cueRec c).takeOnGo && e.unverified then 1 else 0) 0 e).out := by
  have hbit : ∀ b : Bool, bit 0 b = if b then 1 else 0 := fun b => by cases b <;> rfl
  rw [went, goingKind_eq, hbit]
  exact ((wentSet_voices _).report _ _ _ _ _).out

theorem went_rest : went c f x e = { e with
    cues := (went c f x e).cues, lamps := { e.lamps with claims := (went c f x e).lamps.claims },
    table := (went c f x e).table, takePending := (went c f x e).takePending, out := (went c f x e).out } := by
  have hlamps : (went c f x e).lamps = { e.lamps with claims := (went c f x e).lamps.claims } := by
    rw [went_lamps]
    exact claimsPlaced_rest _ _ _ _
  have hrest : went c f x e = { wentSet c (x.gone (e.cueRec c) f) e with out := (went c f x e).out } := reportCue_rest _ _ _ _ _ _
  have hset : wentSet c (x.gone (e.cueRec c) f) e = { e with
      cues := (went c f x e).cues, lamps := (went c f x e).lamps, table := (went c f x e).table,
      takePending := (went c f x e).takePending } := by
    rw [went_table, went_pending, went_lamps, went, reportCue_cues]
    rfl
  rw [← hlamps]
  exact hrest.trans (congrArg (fun w : State => { w with out := (went c f x e).out }) hset)

end

/-- Settles O48: the checks in their order, and an entry gone, its record's follow started behind it. -/
theorem goServed : Obligations.GoServed := by
  intro s q ref force hserves hlist hq e
  have hlist' : CueListOk e := cueListOk_windowEnded hlist
  rw [exec_go_serves hserves hq]
  refine ⟨fun hn => ?_, fun hh hnext hend => ?_, fun c hh href => ⟨fun hn => ?_, fun x hx => ⟨fun hg => ?_, fun hs hp hf => ?_,
    fun hg hready => ?_⟩⟩⟩
  · rw [serveGo_other hn]
  · rw [serveGo_ended hh (by rw [hnext, resolve_next_ended hend])]
  · rw [serveGo_cue hh (resolve_cue href) (goCue_inactive hn)]
  · rw [serveGo_cue hh (resolve_cue href) (goCue_gone hx hg)]
  · rw [serveGo_cue hh (resolve_cue href) (goCue_notReady hx hs hp hf)]
  · rw [serveGo_cue hh (resolve_cue href) (goCue_goes hx hg hready), entryGoes_eq hx]
    refine ⟨went c force x e, rfl, ?_, went_order hlist' hx, fun d hd => went_others hlist' hx hd,
      fun i y hy hl => went_standing hlist' hx hy hl, fun hok i y st j hy hl hR => went_claims (claimsOk_windowEnded hok) hx hy hl hR,
      fun z hz => went_otherClaims hz, fun hkeep => ?_, fun hend hptr => ⟨fun d hlt hlo hhi hen hfirst => ?_, fun hnone => ?_⟩,
      went_pending, went_out, went_rest⟩
    · rw [went_entry hlist' hx, CueEntry.gone]
      cases x.deadline <;> rfl
    · rw [went_table, advance_keeps hkeep]
    · rw [went_table, advance_next hend hptr hlt hlo hhi hen hfirst]
    · rw [went_table, advance_ends hend hptr hnone]

end Sys2Proof.Machine
end

section
/-! Events over the targets of the entries: target states set, reports to the holder alone, and a step taken for each entry
of the list (R83, R96, R97). -/

namespace Sys2Proof.Machine

/-! Target states set. -/

/-- The state `y` set at the places of targets in turn. -/
def statesSet (y : TargetState) (l : List TargetAt) (ts : List TargetState) : List TargetState :=
  l.foldl (fun ts x => ts.set x.1 y) ts

theorem statesSet_get (y : TargetState) (i : Nat) : ∀ (l : List TargetAt) (ts : List TargetState),
    ((∃ x ∈ l, x.1 = i) → (statesSet y l ts)[i]? = ts[i]?.map fun _ => y)
      ∧ ((¬ ∃ x ∈ l, x.1 = i) → (statesSet y l ts)[i]? = ts[i]?)
  | [], ts => by
    refine ⟨?_, fun _ => rfl⟩
    rintro ⟨x, hx, -⟩
    cases hx
  | x :: l, ts => by
    obtain ⟨hin, hout⟩ := statesSet_get y i l (ts.set x.1 y)
    have hhere : x.1 = i → (ts.set x.1 y)[i]? = ts[i]?.map fun _ => y := by
      rintro rfl
      rw [List.getElem?_set_self']
      rfl
    have hthere : x.1 ≠ i → (ts.set x.1 y)[i]? = ts[i]? := fun hne => List.getElem?_set_ne hne
    rw [statesSet, List.foldl_cons]
    by_cases hl : ∃ z ∈ l, z.1 = i
    · obtain ⟨z, hz, hi⟩ := hl
      refine ⟨fun _ => (hin ⟨z, hz, hi⟩).trans ?_, fun hno => absurd ⟨z, List.mem_cons_of_mem _ hz, hi⟩ hno⟩
      by_cases hx : x.1 = i
      · rw [hhere hx, Option.map_map]
        rfl
      · rw [hthere hx]
    · refine ⟨fun hyes => (hout hl).trans (hhere ?_), fun hno => (hout hl).trans (hthere fun hx => hno ⟨x, List.mem_cons_self, hx⟩)⟩
      obtain ⟨z, hz, hi⟩ := hyes
      rcases List.mem_cons.mp hz with rfl | hz
      · exact hi
      · exact absurd ⟨z, hz, hi⟩ hl

/-- The states set, place by place. -/
theorem statesSet_eq {y : TargetState} {l : List TargetAt} {ts : List TargetState} {g : Nat → TargetState → TargetState}
    (hin : ∀ i x, ts[i]? = some x → (∃ z ∈ l, z.1 = i) → g i x = y)
    (hout : ∀ i x, ts[i]? = some x → (¬ ∃ z ∈ l, z.1 = i) → g i x = x) : statesSet y l ts = ts.mapIdx g := by
  refine List.ext_getElem? fun i => ?_
  rw [List.getElem?_mapIdx]
  obtain ⟨hset, hkeep⟩ := statesSet_get y i l ts
  by_cases hl : ∃ z ∈ l, z.1 = i
  · rw [hset hl]
    cases hx : ts[i]? with
    | none => rfl
    | some x => exact congrArg some (hin i x hx hl).symm
  · rw [hkeep hl]
    cases hx : ts[i]? with
    | none => rfl
    | some x => exact congrArg some (hout i x hx hl).symm

/-- The places of picked targets of an entry of an intact list. -/
theorem picked_places {s : State} {c : CueIx} {e : CueEntry} (he : s.entry c = some e) {pick : TargetAt → Bool} {i : Nat} :
    (∃ z ∈ (s.targetsOf c).filter pick, z.1 = i) ↔ ∃ st j y, (s.cueRec c).targets[i]? = some (st, j)
      ∧ e.targets[i]? = some y ∧ pick (i, st, j, y) = true := by
  constructor
  · rintro ⟨⟨k, st, j, y⟩, hz, rfl⟩
    obtain ⟨hmem, hpick⟩ := List.mem_filter.mp hz
    obtain ⟨hR, hy⟩ := (mem_targetsOf he).mp hmem
    exact ⟨st, j, y, hR, hy, hpick⟩
  · rintro ⟨st, j, y, hR, hy, hpick⟩
    exact ⟨(i, st, j, y), List.mem_filter.mpr ⟨(mem_targetsOf he).mpr ⟨hR, hy⟩, hpick⟩, rfl⟩

theorem record_target {s : State} (hlist : CueListOk s) {e : CueEntry} (he : e ∈ s.cues) {i : Nat} {y : TargetState}
    (hy : e.targets[i]? = some y) : ∃ st j, (s.cueRec e.cue).targets[i]? = some (st, j) := by
  have hlen := (List.getElem?_eq_some_iff.mp hy).1
  rw [hlist.2.2 e he] at hlen
  exact ⟨_, _, List.getElem?_eq_getElem hlen⟩

/-- A change of one entry twice over is one change. -/
theorem map_entry_twice (l : List CueEntry) (c : CueIx) {f g : CueEntry → CueEntry} (hf : ∀ e, (f e).cue = e.cue) :
    ((l.map fun e => if e.cue = c then f e else e).map fun e => if e.cue = c then g e else e)
      = l.map fun e => if e.cue = c then g (f e) else e := by
  rw [List.map_map]
  refine List.map_congr_left fun e _ => ?_
  dsimp only [Function.comp_apply]
  by_cases h : e.cue = c
  · rw [if_pos h, if_pos h, if_pos ((hf e).trans h)]
  · rw [if_neg h, if_neg h, if_neg h]

/-- A step that sets the state `y` of the targets it acts on. -/
theorem foldl_states {c : CueIx} {y : TargetState} {f : State → TargetAt → State} {acts : TargetAt → Bool}
    (h : ∀ s x, (f s x).cues = if acts x then (setTarget c x.1 y s).cues else s.cues) :
    ∀ (l : List TargetAt) (s : State), (l.foldl f s).cues = s.cues.map fun e =>
      if e.cue = c then { e with targets := statesSet y (l.filter acts) e.targets } else e
  | [], s => by
    refine (List.map_id' s.cues).symm.trans (List.map_congr_left fun e _ => ?_)
    split <;> rfl
  | x :: l, s => by
    rw [List.foldl_cons, foldl_states h l, h]
    cases hx : acts x with
    | false => rw [if_neg (by decide), List.filter_cons_of_neg (by rw [hx]; decide)]
    | true =>
      rw [if_pos rfl, List.filter_cons_of_pos hx]
      exact map_entry_twice s.cues c (f := fun e => { e with targets := e.targets.set x.1 y })
        (g := fun e => { e with targets := statesSet y (l.filter acts) e.targets }) fun _ => rfl

/-! Reports to the holder alone (R76). -/

/-- `u` is as `s` in who holds authority, and in the queues of every other port. -/
structure Spoken (s u : State) : Prop where
  holder : u.auth.holder = s.auth.holder
  others : ∀ q : Port, s.auth.holder ≠ some q → u.out[q] = s.out[q]

namespace Spoken

theorem refl (s : State) : Spoken s s := ⟨rfl, fun _ _ => rfl⟩

theorem report {s u : State} (h : Spoken s u) (k : Nat) (c : CueIx) (d1 d2 d3 : Nat) : Spoken s (reportCue k c d1 d2 d3 u) := by
  refine ⟨by rw [(reportCue_only k c d1 d2 d3 u).auth]; exact h.holder, fun q hq => ?_⟩
  rw [← h.others q hq]
  unfold reportCue cueReport
  rw [h.holder]
  cases hp : s.auth.holder with
  | none => rfl
  | some p =>
    have hne : p ≠ q := fun hpq => hq (hp.trans (congrArg some hpq))
    unfold placeReport State.modOut
    dsimp only
    rw [upd_get, if_neg hne]

theorem foldl {α : Type} {f : State → α → State} {s : State} (h : ∀ u x, Spoken s u → Spoken s (f u x)) (l : List α)
    {u : State} (hu : Spoken s u) : Spoken s (l.foldl f u) :=
  foldl_keeps (P := Spoken s) (fun t x ht => h t x ht) l hu

theorem silent {s u : State} (h : Spoken s u) (hn : s.auth.holder = none) : u.out = s.out :=
  vector_ext_fin fun q => h.others q (by rw [hn]; exact nofun)

end Spoken

/-! A step taken for each entry. -/

/-- What a step does for entry `e` of state `s`: the entry it becomes, what becomes of the claims, whether it sets the CUE
warn flag under WARN, and its reports. -/
structure EntryStep (s : State) (F : State → CueIx → State) (G : CueEntry → CueEntry) (L : CueEntry → LampState → LampState)
    (W : CueEntry → Bool) (T : CueEntry → State → State) : Prop where
  cue : ∀ e, (G e).cue = e.cue
  only : ∀ v c, CueOnly v (F v c)
  cues : ∀ v, CueOnly s v → ∀ e ∈ s.cues, v.entry e.cue = some e → (∀ y ∈ v.cues, y.cue = e.cue → y = e) →
    (F v e.cue).cues = v.cues.map fun y => if y.cue = e.cue then G y else y
  lamps : ∀ v, CueOnly s v → ∀ e ∈ s.cues, v.entry e.cue = some e → (∀ y ∈ v.cues, y.cue = e.cue → y = e) →
    (F v e.cue).lamps = L e v.lamps
  warn : ∀ v, CueOnly s v → ∀ e ∈ s.cues, v.entry e.cue = some e → (∀ y ∈ v.cues, y.cue = e.cue → y = e) →
    (F v e.cue).faults.cueWarn = (v.faults.cueWarn || (v.faults.modes.cue = .warn && W e))
  voices : ∀ v, CueOnly s v → ∀ e ∈ s.cues, v.entry e.cue = some e → (∀ y ∈ v.cues, y.cue = e.cue → y = e) →
    ∀ u, Voices u v → Voices (T e u) (F v e.cue)

section

variable {s : State} {F : State → CueIx → State} {G : CueEntry → CueEntry} {L : CueEntry → LampState → LampState}
  {W : CueEntry → Bool} {T : CueEntry → State → State}

/-- The steps of a list of entries that still stand as `s` has them. -/
theorem EntryStep.foldl (h : EntryStep s F G L W T) : ∀ (es : List CueEntry) (v : State), CueOnly s v →
    (v.cues.map (·.cue)).Nodup → (es.map (·.cue)).Nodup → (∀ e ∈ es, e ∈ s.cues ∧ e ∈ v.cues) →
    let t := (es.map (·.cue)).foldl F v
    CueOnly v t
      ∧ t.cues = (v.cues.map fun y => if y.cue ∈ es.map (·.cue) then G y else y)
      ∧ t.lamps = es.foldl (fun M e => L e M) v.lamps
      ∧ t.faults.cueWarn = (v.faults.cueWarn || (v.faults.modes.cue = .warn && es.any W))
      ∧ ∀ u, Voices u v → Voices (es.foldl (fun u e => T e u) u) t
  | [], v, _, _, _, _ => by
    refine ⟨.refl v, ?_, rfl, ?_, fun u hu => hu⟩
    · exact (List.map_id' v.cues).symm.trans (List.map_congr_left fun y _ => (if_neg List.not_mem_nil).symm)
    · rw [List.any_nil, Bool.and_false, Bool.or_false]
      rfl
  | e :: es, v, hv, hnodup, hes, hmem => by
    rw [List.map_cons, List.nodup_cons] at hes
    obtain ⟨hfresh, hes⟩ := hes
    obtain ⟨hin, hstands⟩ := hmem e List.mem_cons_self
    have hone : ∀ y ∈ v.cues, y.cue = e.cue → y = e := fun y hy hc => List.inj_on_of_nodup_map hnodup hy hstands hc
    have hentry : v.entry e.cue = some e := by
      cases hf : v.entry e.cue with
      | none => exact absurd (List.find?_eq_none.mp hf e hstands) (by simp)
      | some d => rw [hone d (entry_mem hf) (entry_cue hf)]
    have honly := h.only v e.cue
    have hcues := h.cues v hv e hin hentry hone
    have hlamps := h.lamps v hv e hin hentry hone
    have hwarn := h.warn v hv e hin hentry hone
    have hvoices := h.voices v hv e hin hentry hone
    rw [List.map_cons, List.foldl_cons]
    generalize F v e.cue = w at honly hcues hlamps hwarn hvoices
    have hsame : w.cues.map (·.cue) = v.cues.map (·.cue) := by
      rw [hcues, List.map_map]
      refine List.map_congr_left fun y _ => ?_
      dsimp only [Function.comp_apply]
      split
      · exact h.cue y
      · rfl
    have hrest : ∀ d ∈ es, d ∈ s.cues ∧ d ∈ w.cues := fun d hd => by
      obtain ⟨hds, hdv⟩ := hmem d (List.mem_cons_of_mem _ hd)
      refine ⟨hds, ?_⟩
      rw [hcues]
      refine List.mem_map.mpr ⟨d, hdv, if_neg fun hc => hfresh ?_⟩
      exact hc ▸ List.mem_map_of_mem hd
    obtain ⟨konly, kcues, klamps, kwarn, kvoices⟩ := EntryStep.foldl h es w (hv.trans honly) (hsame ▸ hnodup) hes hrest
    refine ⟨honly.trans konly, ?_, ?_, ?_, fun u hu => kvoices _ (hvoices u hu)⟩
    · rw [kcues, hcues, List.map_map]
      refine List.map_congr_left fun y hy => ?_
      dsimp only [Function.comp_apply]
      by_cases hc : y.cue = e.cue
      · rw [if_pos hc, if_neg (by rw [h.cue, hc]; exact hfresh), if_pos (hc ▸ List.mem_cons_self)]
      · rw [if_neg hc]
        exact if_congr ⟨List.mem_cons_of_mem _, fun hm => (List.mem_cons.mp hm).resolve_left hc⟩ rfl rfl
    · rw [klamps, hlamps, List.foldl_cons]
    · rw [kwarn, hwarn, honly.modes, List.any_cons, Bool.or_assoc, Bool.and_or_distrib_left]

/-- The step taken for every entry of an intact list. -/
theorem EntryStep.all (h : EntryStep s F G L W T) (hlist : CueListOk s) :
    let t := (s.cues.map (·.cue)).foldl F s
    CueOnly s t ∧ t.cues = s.cues.map G
      ∧ t.lamps = s.cues.foldl (fun M e => L e M) s.lamps
      ∧ t.faults.cueWarn = (s.faults.cueWarn || (s.faults.modes.cue = .warn && s.cues.any W))
      ∧ t.out = (s.cues.foldl (fun u e => T e u) s).out := by
  obtain ⟨honly, hcues, hlamps, hwarn, hvoices⟩ := h.foldl s.cues s (.refl s) hlist.2.1 hlist.2.1 fun e he => ⟨he, he⟩
  refine ⟨honly, hcues.trans (List.map_congr_left fun y hy => if_pos (List.mem_map_of_mem hy)), hlamps, hwarn,
    (hvoices s (.refl s)).out⟩

end

end Sys2Proof.Machine
end

section
/-! The acknowledge deadline expires (R83). -/

namespace Sys2Proof.Machine

theorem deadline_isDue {s : State} {c : CueIx} {e : CueEntry} (he : s.entry c = some e) (hd : e.deadline = .running 0) :
    (Due.deadline c).isDue s = true := by
  rw [Due.isDue, he, Option.any_some, hd]
  rfl

/-! One target (R83). -/

/-- Whether a target still waits. -/
def waits (x : TargetAt) : Bool := x.2.2.2 = .waiting

theorem lateTarget_eq (c : CueIx) (s : State) (x : TargetAt) : lateTarget c s x = if waits x then
    cueEvent (reportCue 0xC3 c x.2.1.val x.2.2.1.val 0 (placeClaim c x.1 x.2.1 x.2.2.1 .late (setTarget c x.1 .late s)))
    else s := by
  unfold lateTarget waits
  dsimp only
  exact if_congr decide_eq_true_iff.symm rfl rfl

theorem lateTarget_cues (c : CueIx) (s : State) (x : TargetAt) :
    (lateTarget c s x).cues = if waits x then (setTarget c x.1 .late s).cues else s.cues := by
  rw [lateTarget_eq]
  split
  · rw [cueEvent_cues, reportCue_cues]
    rfl
  · rfl

theorem lateTarget_lamps (c : CueIx) (s : State) (x : TargetAt) :
    (lateTarget c s x).lamps = if waits x then s.lamps.place c x.1 x.2.1 x.2.2.1 .late else s.lamps := by
  rw [lateTarget_eq]
  split
  · rw [cueEvent_lamps, reportCue_lamps]
    rfl
  · rfl

theorem lateTarget_warn (c : CueIx) (s : State) (x : TargetAt) : (lateTarget c s x).faults.cueWarn =
    (s.faults.cueWarn || (waits x && decide (s.faults.modes.cue = .warn))) := by
  rw [lateTarget_eq]
  cases waits x with
  | true =>
    rw [if_pos rfl, cueEvent_warn, reportCue_warn, (reportCue_only _ _ _ _ _ _).modes, Bool.true_and]
    rfl
  | false => rw [if_neg (by decide), Bool.false_and, Bool.or_false]

theorem lateTarget_voices (c : CueIx) (u s : State) (x : TargetAt) (h : Voices u s) :
    Voices (if waits x then reportCue 0xC3 c x.2.1.val x.2.2.1.val 0 u else u) (lateTarget c s x) := by
  rw [lateTarget_eq]
  have hset : Voices u (placeClaim c x.1 x.2.1 x.2.2.1 .late (setTarget c x.1 .late s)) := h.trans ⟨rfl, rfl, rfl⟩
  split
  · exact (hset.report _ _ _ _ _).trans (.of_only (cueEvent_only _) (cueEvent_out _))
  · exact h

/-! The deadline of an entry (R83). -/

section

variable {s : State} {c : CueIx} {e : CueEntry}

/-- The deadline run out, before its targets are judged. -/
def deadlineOut (c : CueIx) (s : State) : State := s.modEntry c fun e => { e with deadline := .expired }

theorem expireDeadline_eq : expireDeadline c s = ((deadlineOut c s).targetsOf c).foldl (lateTarget c) (deadlineOut c s) := rfl

theorem deadlineOut_entry (he : s.entry c = some e) : (deadlineOut c s).entry c = some { e with deadline := .expired } :=
  entry_modEntry_same (fun _ => by rfl) he

theorem expireDeadline_only : CueOnly s (expireDeadline c s) :=
  (modEntry_only c _ s).trans (CueOnly.foldl (lateTarget_only c) _ _)

/-- The targets that become LATE. -/
def lateTargets (c : CueIx) (s : State) : List TargetAt := ((deadlineOut c s).targetsOf c).filter waits

theorem mem_lateTargets (he : s.entry c = some e) {i : Nat} {st : Station} {j : Lamp} {y : TargetState} :
    (i, st, j, y) ∈ lateTargets c s ↔ ((s.cueRec c).targets[i]? = some (st, j) ∧ e.targets[i]? = some y) ∧ y = .waiting := by
  rw [lateTargets, List.mem_filter, mem_targetsOf (deadlineOut_entry he), waits, decide_eq_true_eq]
  rfl

theorem expireDeadline_cues : (expireDeadline c s).cues = ((deadlineOut c s).modEntry c fun e =>
    { e with targets := statesSet .late (lateTargets c s) e.targets }).cues := foldl_states (lateTarget_cues c) _ _

theorem expireDeadline_lamps : (expireDeadline c s).lamps = claimsPlaced c .late (lateTargets c s) s.lamps :=
  foldl_lamps (lateTarget_lamps c) _ _

theorem lateTargets_place (hlist : CueListOk s) (he : s.entry c = some e) {i : Nat} :
    (∃ z ∈ lateTargets c s, z.1 = i) ↔ e.targets[i]? = some .waiting := by
  constructor
  · rintro ⟨⟨k, st, j, y⟩, hz, rfl⟩
    obtain ⟨⟨-, hy⟩, rfl⟩ := (mem_lateTargets he).mp hz
    exact hy
  · intro hw
    obtain ⟨st, j, hR⟩ := record_target hlist (entry_mem he) hw
    rw [entry_cue he] at hR
    exact ⟨(i, st, j, .waiting), (mem_lateTargets he).mpr ⟨⟨hR, hw⟩, rfl⟩, rfl⟩

theorem waiting_late (hlist : CueListOk s) (he : s.entry c = some e) :
    statesSet .late (lateTargets c s) e.targets = e.targets.map fun x => if x = .waiting then .late else x := by
  have hset := statesSet_eq (y := .late) (l := lateTargets c s) (ts := e.targets)
    (g := fun _ x => if x = .waiting then .late else x) (fun i x hx hl => ?_) fun i x hx hl => ?_
  · rw [hset]
    refine List.ext_getElem? fun i => ?_
    rw [List.getElem?_mapIdx, List.getElem?_map]
  · have hw := (lateTargets_place hlist he).mp hl
    rw [hx] at hw
    exact if_pos (Option.some.inj hw)
  · refine if_neg fun hw => hl ((lateTargets_place hlist he).mpr ?_)
    rw [hx, hw]

theorem expireDeadline_entry (hlist : CueListOk s) (he : s.entry c = some e) : (expireDeadline c s).entry c = some { e with
    deadline := .expired, targets := e.targets.map fun x => if x = .waiting then .late else x } := by
  rw [entry_of_cues expireDeadline_cues, entry_modEntry_same (fun _ => by rfl) (deadlineOut_entry he), ← waiting_late hlist he]

theorem expireDeadline_others {d : CueIx} (hd : d ≠ c) : (expireDeadline c s).entry d = s.entry d := by
  rw [entry_of_cues expireDeadline_cues, entry_modEntry_other (fun _ => by rfl) _ hd]
  exact entry_modEntry_other (fun _ => by rfl) s hd

theorem expireDeadline_warn (hlist : CueListOk s) (he : s.entry c = some e) : (expireDeadline c s).faults.cueWarn
    = (s.faults.cueWarn || (s.faults.modes.cue = .warn && e.targets.any (· = .waiting))) := by
  have key := foldl_warn (lateTarget_only c) (lateTarget_warn c) ((deadlineOut c s).targetsOf c) (deadlineOut c s)
  have hany : ((deadlineOut c s).targetsOf c).any waits = e.targets.any (· = .waiting) := by
    rw [Bool.eq_iff_iff, List.any_eq_true, List.any_eq_true]
    constructor
    · rintro ⟨⟨i, st, j, y⟩, hz, hw⟩
      exact ⟨y, List.mem_of_getElem? ((mem_targetsOf (deadlineOut_entry he)).mp hz).2, hw⟩
    · rintro ⟨y, hy, hw⟩
      obtain ⟨i, hi⟩ := List.getElem?_of_mem hy
      obtain ⟨st, j, hR⟩ := record_target hlist (entry_mem he) hi
      rw [entry_cue he] at hR
      exact ⟨(i, st, j, y), (mem_targetsOf (deadlineOut_entry he)).mpr ⟨hR, hi⟩, hw⟩
  rw [hany] at key
  exact key

/-- The reports of the targets that become LATE. -/
def tellLate (c : CueIx) (e : CueEntry) (s u : State) : State :=
  (((s.cueRec c).targets.zip e.targets).filter fun x => x.2 = .waiting).foldl
    (fun u x => reportCue 0xC3 c x.1.1.val x.1.2.val 0 u) u

theorem expireDeadline_out (he : s.entry c = some e) : (expireDeadline c s).out = (tellLate c e s s).out := by
  have key := foldl_voices (lateTarget_voices c) ((deadlineOut c s).targetsOf c) s (deadlineOut c s) ⟨rfl, rfl, rfl⟩
  have hpairs := foldl_pairs (deadlineOut_entry he) (fun u x => reportCue 0xC3 c x.1.1.val x.1.2.val 0 u)
    (fun x => x.2 = .waiting) s
  exact key.out.trans (congrArg State.out hpairs)

theorem tellLate_spoken (s : State) : Spoken s (tellLate c e s s) :=
  Spoken.foldl (fun u x hu => hu.report _ _ _ _ _) _ (.refl s)

end

end Sys2Proof.Machine
end

section
/-! The loss of stations or lamps: targets lost one after another, and their entries judged behind each (R81, R96, R98). -/

namespace Sys2Proof.Machine

/-! One target lost (R96). -/

/-- An entry with a target lost, judged. -/
def CueEntry.struckBy (p : AckPolicy) (e : CueEntry) (x : TargetAt) : CueEntry :=
  { e with targets := e.targets.set x.1 .lost, state := e.state.judged (p.satisfied (e.targets.set x.1 .lost)) }

/-- A target lost and told, before its entry is judged. -/
def lossTold (c : CueIx) (s : State) (x : TargetAt) : State :=
  cueEvent (reportCue 0xC4 c x.2.1.val x.2.2.1.val 0 ((setTarget c x.1 .lost s).modLamps (·.withdraw c x.1)))

theorem loseTarget_eq (c : CueIx) (s : State) (x : TargetAt) : loseTarget c s x = recompute c (lossTold c s x) := rfl

theorem lossTold_only (c : CueIx) (s : State) (x : TargetAt) : CueOnly s (lossTold c s x) :=
  ((setTarget_only c x.1 .lost s).trans (withdrawClaim_only c x.1 _)).trans
    ((reportCue_only _ _ _ _ _ _).trans (cueEvent_only _))

theorem lossTold_cues (c : CueIx) (s : State) (x : TargetAt) : (lossTold c s x).cues = (s.modEntry c fun e =>
    { e with targets := e.targets.set x.1 .lost }).cues := by
  rw [lossTold, cueEvent_cues, reportCue_cues]
  rfl

theorem lossTold_lamps (c : CueIx) (s : State) (x : TargetAt) : (lossTold c s x).lamps = s.lamps.withdraw c x.1 := by
  rw [lossTold, cueEvent_lamps, reportCue_lamps]
  rfl

theorem lossTold_warn (c : CueIx) (s : State) (x : TargetAt) :
    (lossTold c s x).faults.cueWarn = (s.faults.cueWarn || decide (s.faults.modes.cue = .warn)) := by
  rw [lossTold, cueEvent_warn, reportCue_warn, (reportCue_only _ _ _ _ _ _).modes]
  rfl

theorem lossTold_voices (c : CueIx) (u s : State) (x : TargetAt) (h : Voices u s) :
    Voices (reportCue 0xC4 c x.2.1.val x.2.2.1.val 0 u) (lossTold c s x) := by
  have hset : Voices u ((setTarget c x.1 .lost s).modLamps (·.withdraw c x.1)) := h.trans ⟨rfl, rfl, rfl⟩
  exact (hset.report _ _ _ _ _).trans (.of_only (cueEvent_only _) (cueEvent_out _))

section

variable {c : CueIx} {s : State} {e : CueEntry}

/-- What the loss of one target sets. -/
theorem loseTarget_spec (hone : ∀ y ∈ s.cues, y.cue = c → y = e) (he : s.entry c = some e) (x : TargetAt) :
    let p := (s.cueRec c).ackPolicy
    (loseTarget c s x).cues = (s.cues.map fun y => if y.cue = c then y.struckBy p x else y)
      ∧ (loseTarget c s x).lamps = s.lamps.withdraw c x.1
      ∧ (loseTarget c s x).faults.cueWarn = (s.faults.cueWarn || decide (s.faults.modes.cue = .warn))
      ∧ ∀ u, Voices u s → Voices (judgedTold c e.state (p.satisfied (e.targets.set x.1 .lost))
        (reportCue 0xC4 c x.2.1.val x.2.2.1.val 0 u)) (loseTarget c s x) := by
  dsimp only
  rw [loseTarget_eq]
  have honly := lossTold_only c s x
  have hcues := lossTold_cues c s x
  have hlamps := lossTold_lamps c s x
  have hwarn := lossTold_warn c s x
  have hvoices := fun u => lossTold_voices c u s x
  have hentry : (lossTold c s x).entry c = some { e with targets := e.targets.set x.1 .lost } :=
    (entry_of_cues hcues c).trans (entry_modEntry_same (fun _ => by rfl) he)
  generalize lossTold c s x = v at honly hcues hlamps hwarn hvoices hentry
  have hone' : ∀ y ∈ v.cues, y.cue = c → y = { e with targets := e.targets.set x.1 .lost } := fun y hy hc => by
    rw [hcues, State.modEntry_cues] at hy
    obtain ⟨d, hd, rfl⟩ := List.mem_map.mp hy
    by_cases hdc : d.cue = c
    · rw [if_pos hdc, hone d hd hdc]
    · rw [if_neg hdc] at hc
      exact absurd hc hdc
  obtain ⟨kcues, kvoices, klamps, kfaults⟩ := recompute_spec hone' hentry
  rw [honly.cueRec] at kcues kvoices
  refine ⟨?_, klamps.trans hlamps, by rw [kfaults, hwarn], fun u hu => ?_⟩
  · rw [kcues, hcues, State.modEntry_cues]
    exact map_entry_twice s.cues c (f := fun y => { y with targets := y.targets.set x.1 .lost })
      (g := fun y => { y with state := y.state.judged ((s.cueRec c).ackPolicy.satisfied y.targets) }) fun _ => rfl
  · exact ((hvoices u hu).judged c _ _).trans kvoices

end

/-! The targets of one entry lost (R96). -/

theorem tellLosses_cons (c : CueIx) (p : AckPolicy) (x : TargetAt) (l : List TargetAt) (es : EntryState) (ts : List TargetState)
    (u : State) : tellLosses c p (x :: l) es ts u =
      tellLosses c p l (es.judged (p.satisfied (ts.set x.1 .lost))) (ts.set x.1 .lost)
        (judgedTold c es (p.satisfied (ts.set x.1 .lost)) (reportCue 0xC4 c x.2.1.val x.2.2.1.val 0 u)) := by
  obtain ⟨i, st, j, y⟩ := x
  rw [tellLosses]
  unfold EntryState.judged judgedTold
  dsimp only
  by_cases hr : es = .standby ∧ p.satisfied (ts.set i .lost) = true
  · rw [if_pos hr, if_pos hr, if_pos hr]
  · rw [if_neg hr, if_neg hr, if_neg hr]
    split <;> rfl

/-- The claims of targets withdrawn in turn. -/
def claimsLost (c : CueIx) (l : List TargetAt) (M : LampState) : LampState := l.foldl (fun M x => M.withdraw c x.1) M

theorem struckBy_cue (p : AckPolicy) : ∀ (l : List TargetAt) (e : CueEntry), (l.foldl (CueEntry.struckBy p) e).cue = e.cue
  | [], _ => rfl
  | x :: l, e => struckBy_cue p l (e.struckBy p x)

/-- What the loss of an entry's targets in turn sets. -/
theorem loseTargets_entry (c : CueIx) : ∀ (l : List TargetAt) (s : State) (e : CueEntry),
    (∀ y ∈ s.cues, y.cue = c → y = e) → s.entry c = some e →
    let p := (s.cueRec c).ackPolicy
    let t := l.foldl (loseTarget c) s
    t.cues = (s.cues.map fun y => if y.cue = c then l.foldl (CueEntry.struckBy p) y else y)
      ∧ t.lamps = claimsLost c l s.lamps
      ∧ t.faults.cueWarn = (s.faults.cueWarn || (s.faults.modes.cue = .warn && !l.isEmpty))
      ∧ ∀ u, Voices u s → Voices (tellLosses c p l e.state e.targets u) t
  | [], s, e, _, _ => by
    refine ⟨?_, rfl, ?_, fun u hu => hu⟩
    · refine (List.map_id' s.cues).symm.trans (List.map_congr_left fun y _ => ?_)
      split <;> rfl
    · rw [List.isEmpty_nil, Bool.not_true, Bool.and_false, Bool.or_false]
      rfl
  | x :: l, s, e, hone, he => by
    obtain ⟨hcues, hlamps, hwarn, hvoices⟩ := loseTarget_spec hone he x
    have honly := loseTarget_only c s x
    rw [List.foldl_cons]
    generalize loseTarget c s x = v at hcues hlamps hwarn hvoices honly
    have hentry : v.entry c = some (e.struckBy (s.cueRec c).ackPolicy x) :=
      (entry_of_cues (s := s.modEntry c fun y => y.struckBy (s.cueRec c).ackPolicy x) hcues c).trans
        (entry_modEntry_same (fun _ => by rfl) he)
    have hone' : ∀ y ∈ v.cues, y.cue = c → y = e.struckBy (s.cueRec c).ackPolicy x := fun y hy hc => by
      rw [hcues] at hy
      obtain ⟨d, hd, rfl⟩ := List.mem_map.mp hy
      by_cases hdc : d.cue = c
      · rw [if_pos hdc, hone d hd hdc]
      · rw [if_neg hdc] at hc
        exact absurd hc hdc
    obtain ⟨kcues, klamps, kwarn, kvoices⟩ := loseTargets_entry c l v _ hone' hentry
    rw [honly.cueRec] at kcues kvoices
    refine ⟨?_, ?_, ?_, fun u hu => ?_⟩
    · rw [kcues, hcues]
      exact map_entry_twice s.cues c (f := fun y => y.struckBy (s.cueRec c).ackPolicy x)
        (g := fun y => l.foldl (CueEntry.struckBy (s.cueRec c).ackPolicy) y) fun _ => rfl
    · rw [klamps, hlamps]
      rfl
    · rw [kwarn, hwarn, honly.modes]
      cases s.faults.cueWarn <;> cases decide (s.faults.modes.cue = .warn) <;> simp
    · rw [tellLosses_cons]
      exact kvoices _ (hvoices u hu)

/-! The state of an entry whose targets are lost (R81). -/

theorem judged_moving {x : EntryState} (h : x = .standby ∨ x = .ready) (b : Bool) :
    x.judged b = if b then .ready else .standby := by
  rcases h with rfl | rfl <;> cases b <;> rfl

theorem judged_still {x : EntryState} (h : x = .countdown ∨ x = .going) (b : Bool) : x.judged b = x := by
  rcases h with rfl | rfl <;> rfl

theorem entryState_cases (x : EntryState) : (x = .standby ∨ x = .ready) ∨ (x = .countdown ∨ x = .going) := by
  cases x <;> simp

theorem struckBy_still {p : AckPolicy} : ∀ {l : List TargetAt} {e : CueEntry}, e.state = .countdown ∨ e.state = .going →
    l.foldl (CueEntry.struckBy p) e = { e with targets := statesSet .lost l e.targets }
  | [], _, _ => rfl
  | x :: l, e, h => by
    have hstep : e.struckBy p x = { e with targets := e.targets.set x.1 .lost } := by
      rw [CueEntry.struckBy, judged_still h]
    rw [List.foldl_cons, hstep, struckBy_still (e := { e with targets := e.targets.set x.1 .lost }) h]
    rfl

theorem struckBy_moving {p : AckPolicy} : ∀ {l : List TargetAt} {e : CueEntry}, l ≠ [] → e.state = .standby ∨ e.state = .ready →
    l.foldl (CueEntry.struckBy p) e = { e with
      targets := statesSet .lost l e.targets,
      state := if p.satisfied (statesSet .lost l e.targets) then .ready else .standby }
  | [x], e, _, h => by
    rw [List.foldl_cons, List.foldl_nil, CueEntry.struckBy, judged_moving h]
    rfl
  | x :: z :: l, e, _, h => by
    have hstate : (e.struckBy p x).state = .standby ∨ (e.struckBy p x).state = .ready := by
      rw [CueEntry.struckBy, judged_moving h]
      dsimp only
      cases p.satisfied (e.targets.set x.1 .lost)
      · exact .inl rfl
      · exact .inr rfl
    rw [List.foldl_cons, struckBy_moving (List.cons_ne_nil z l) hstate]
    rfl

/-- An entry whose targets are lost in turn: its state is untouched where none is lost or it is past readiness, and what
its policy then says otherwise. -/
theorem struckBy_eq (p : AckPolicy) (l : List TargetAt) (e : CueEntry) : l.foldl (CueEntry.struckBy p) e = { e with
    targets := statesSet .lost l e.targets,
    state := if l = [] ∨ e.state = .countdown ∨ e.state = .going then e.state
      else if p.satisfied (statesSet .lost l e.targets) then .ready else .standby } := by
  by_cases hl : l = []
  · subst hl
    rw [if_pos (.inl rfl)]
    rfl
  · rcases entryState_cases e.state with h | h
    · have hmoving : ¬ (l = [] ∨ e.state = .countdown ∨ e.state = .going) := by
        rcases h with h | h <;> rw [h] <;> simpa using hl
      rw [struckBy_moving hl h, if_neg hmoving]
    · rw [struckBy_still h, if_pos (.inr h)]

end Sys2Proof.Machine
end

section
/-! Every entry's losses, and what becomes of the list and the claims (R96, R98). -/

namespace Sys2Proof.Machine

/-- The targets of an active cue are read from its entry and its record. -/
theorem targetsOf_congr {s t : State} {c : CueIx} (he : t.entry c = s.entry c) (hr : t.cueRec c = s.cueRec c) :
    t.targetsOf c = s.targetsOf c := by
  rw [State.targetsOf, State.targetsOf, he, hr]

section

variable (s : State) (hit : Station → Lamp → Bool)

/-- The targets of an entry that become LOST. -/
def struckTargets (e : CueEntry) : List TargetAt := (s.targetsOf e.cue).filter fun x => hit x.2.1 x.2.2.1 && x.2.2.2 ≠ .lost

/-- An entry once its targets are LOST. -/
def struckEntry (e : CueEntry) : CueEntry := (struckTargets s hit e).foldl (CueEntry.struckBy (s.cueRec e.cue).ackPolicy) e

/-- The reports of an entry's losses. -/
def tellStruck (e : CueEntry) (u : State) : State :=
  tellLosses e.cue (s.cueRec e.cue).ackPolicy (struckTargets s hit e) e.state e.targets u

end

section

variable {s : State} {hit : Station → Lamp → Bool}

theorem loseInEntry_eq (hlist : CueListOk s) {v : State} (hv : CueOnly s v) {e : CueEntry} (he : e ∈ s.cues)
    (hentry : v.entry e.cue = some e) : loseInEntry hit v e.cue = (struckTargets s hit e).foldl (loseTarget e.cue) v := by
  rw [loseInEntry, targetsOf_congr (hentry.trans (entry_of_mem hlist he).symm) (hv.cueRec _)]
  rfl

theorem loseInEntry_step (hlist : CueListOk s) : EntryStep s (loseInEntry hit) (struckEntry s hit)
    (fun e M => claimsLost e.cue (struckTargets s hit e) M) (fun e => !(struckTargets s hit e).isEmpty)
    (tellStruck s hit) where
  cue e := struckBy_cue _ _ _
  only v c := CueOnly.foldl (loseTarget_only c) _ _
  cues v hv e he hentry hone := by
    obtain ⟨hcues, -, -, -⟩ := loseTargets_entry e.cue (struckTargets s hit e) v e hone hentry
    rw [loseInEntry_eq hlist hv he hentry, hcues, hv.cueRec]
    exact map_modEntry hone rfl
  lamps v hv e he hentry hone := by
    obtain ⟨-, hlamps, -, -⟩ := loseTargets_entry e.cue (struckTargets s hit e) v e hone hentry
    rw [loseInEntry_eq hlist hv he hentry, hlamps]
  warn v hv e he hentry hone := by
    obtain ⟨-, -, hwarn, -⟩ := loseTargets_entry e.cue (struckTargets s hit e) v e hone hentry
    rw [loseInEntry_eq hlist hv he hentry, hwarn]
  voices v hv e he hentry hone u hu := by
    obtain ⟨-, -, -, hvoices⟩ := loseTargets_entry e.cue (struckTargets s hit e) v e hone hentry
    rw [hv.cueRec] at hvoices
    rw [loseInEntry_eq hlist hv he hentry]
    exact hvoices u hu

/-! The claims taken away. -/

theorem mem_claimsLost {c : CueIx} {x : Claim} : ∀ {l : List TargetAt} {M : LampState},
    x ∈ (claimsLost c l M).claims ↔ x ∈ M.claims ∧ ¬ (x.cue = c ∧ ∃ z ∈ l, z.1 = x.pos)
  | [], M => by simp [claimsLost]
  | y :: l, M => by
    rw [claimsLost, List.foldl_cons]
    refine mem_claimsLost.trans ?_
    rw [LampState.mem_withdraw, and_assoc]
    refine and_congr_right fun _ => ?_
    simp only [List.mem_cons, exists_eq_or_imp]
    constructor
    · rintro ⟨h, k⟩ ⟨hc, hp | hp⟩
      · exact h ⟨hc, hp.symm⟩
      · exact k ⟨hc, hp⟩
    · intro h
      exact ⟨fun k => h ⟨k.1, .inl k.2.symm⟩, fun k => h ⟨k.1, .inr k.2⟩⟩

theorem mem_claimsLost_all {l : CueEntry → List TargetAt} {x : Claim} : ∀ {es : List CueEntry} {M : LampState},
    x ∈ (es.foldl (fun M e => claimsLost e.cue (l e) M) M).claims ↔
      x ∈ M.claims ∧ ∀ e ∈ es, ¬ (x.cue = e.cue ∧ ∃ z ∈ l e, z.1 = x.pos)
  | [], M => by simp
  | e :: es, M => by
    rw [List.foldl_cons]
    refine mem_claimsLost_all.trans ?_
    rw [mem_claimsLost, and_assoc, List.forall_mem_cons]

/-! The places struck. -/

/-- Whether a place of an entry is struck. -/
def struckAt (s : State) (hit : Station → Lamp → Bool) (e : CueEntry) (i : Nat) : Bool :=
  (s.cueRec e.cue).targets[i]?.any fun y => hit y.1 y.2

theorem struckTargets_place (hlist : CueListOk s) {e : CueEntry} (he : e ∈ s.cues) {i : Nat} :
    (∃ z ∈ struckTargets s hit e, z.1 = i) ↔ struckAt s hit e i = true ∧ ∃ y, e.targets[i]? = some y ∧ y ≠ .lost := by
  rw [struckTargets, picked_places (entry_of_mem hlist he)]
  constructor
  · rintro ⟨st, j, y, hR, hy, hpick⟩
    rw [Bool.and_eq_true, decide_eq_true_eq] at hpick
    refine ⟨?_, y, hy, hpick.2⟩
    rw [struckAt, hR]
    exact hpick.1
  · rintro ⟨hstruck, y, hy, hne⟩
    obtain ⟨st, j, hR⟩ := record_target hlist he hy
    rw [struckAt, hR] at hstruck
    refine ⟨st, j, y, hR, hy, ?_⟩
    rw [Bool.and_eq_true, decide_eq_true_eq]
    exact ⟨hstruck, hne⟩

/-- The states an entry's targets are left in. -/
def leftBy (s : State) (hit : Station → Lamp → Bool) (e : CueEntry) : List TargetState :=
  e.targets.mapIdx fun i x => if struckAt s hit e i then .lost else x

theorem statesSet_struck (hlist : CueListOk s) {e : CueEntry} (he : e ∈ s.cues) :
    statesSet .lost (struckTargets s hit e) e.targets = leftBy s hit e := by
  refine statesSet_eq (fun i x hx hl => ?_) fun i x hx hl => ?_
  · exact if_pos ((struckTargets_place hlist he).mp hl).1
  · by_cases hstruck : struckAt s hit e i = true
    · rw [if_pos hstruck]
      by_contra hne
      exact hl ((struckTargets_place hlist he).mpr ⟨hstruck, x, hx, Ne.symm hne⟩)
    · exact if_neg hstruck

theorem leftBy_same (hlist : CueListOk s) {e : CueEntry} (he : e ∈ s.cues) :
    leftBy s hit e = e.targets ↔ struckTargets s hit e = [] := by
  rw [← statesSet_struck hlist he]
  constructor
  · intro hsame
    refine List.eq_nil_iff_forall_not_mem.mpr fun z hz => ?_
    obtain ⟨-, y, hy, hne⟩ := (struckTargets_place hlist he).mp ⟨z, hz, rfl⟩
    have hset := (statesSet_get .lost z.1 (struckTargets s hit e) e.targets).1 ⟨z, hz, rfl⟩
    rw [hsame, hy] at hset
    exact hne (Option.some.inj hset)
  · intro hnil
    rw [hnil]
    rfl

theorem struckEntry_eq (hlist : CueListOk s) {e : CueEntry} (he : e ∈ s.cues) : struckEntry s hit e = { e with
    targets := leftBy s hit e,
    state := if leftBy s hit e = e.targets ∨ e.state = .countdown ∨ e.state = .going then e.state
      else if (s.cueRec e.cue).ackPolicy.satisfied (leftBy s hit e) then .ready else .standby } := by
  rw [struckEntry, struckBy_eq, statesSet_struck hlist he]
  simp only [leftBy_same hlist he]

theorem tellLosses_spoken (c : CueIx) (p : AckPolicy) {s : State} : ∀ (l : List TargetAt) (es : EntryState)
    (ts : List TargetState) {u : State}, Spoken s u → Spoken s (tellLosses c p l es ts u)
  | [], _, _, _, h => h
  | x :: l, es, ts, u, h => by
    rw [tellLosses_cons]
    refine tellLosses_spoken c p l _ _ ?_
    unfold judgedTold
    split
    · exact (h.report _ _ _ _ _).report _ _ _ _ _
    · split
      · exact (h.report _ _ _ _ _).report _ _ _ _ _
      · exact h.report _ _ _ _ _

/-- What the loss of stations or lamps sets (R96, R98). -/
theorem loseTargets_spec (hlist : CueListOk s) :
    let t := loseTargets hit s
    t.cues = s.cues.map (fun e => { e with
        targets := leftBy s hit e,
        state := if leftBy s hit e = e.targets ∨ e.state = .countdown ∨ e.state = .going then e.state
          else if (s.cueRec e.cue).ackPolicy.satisfied (leftBy s hit e) then .ready else .standby })
      ∧ (∀ x : Claim, x ∈ t.lamps.claims ↔ x ∈ s.lamps.claims
        ∧ ∀ e ∈ s.cues, e.cue = x.cue → struckAt s hit e x.pos = true →
          e.targets[x.pos]? = some .lost ∨ e.targets[x.pos]? = none)
      ∧ t.faults.cueWarn = (s.faults.cueWarn || (s.faults.modes.cue = .warn && s.cues.any fun e => leftBy s hit e ≠ e.targets))
      ∧ (∀ q : Port, s.auth.holder ≠ some q → t.out[q] = s.out[q])
      ∧ t.out = (s.cues.foldl (fun u e => tellStruck s hit e u) s).out
      ∧ CueOnly s t := by
  obtain ⟨honly, hcues, hlamps, hwarn, hout⟩ := (loseInEntry_step (hit := hit) hlist).all hlist
  dsimp only
  rw [loseTargets]
  generalize (s.cues.map (·.cue)).foldl (loseInEntry hit) s = t at honly hcues hlamps hwarn hout
  refine ⟨?_, fun x => ?_, ?_, fun q hq => ?_, hout, honly⟩
  · exact hcues.trans (List.map_congr_left fun e he => struckEntry_eq hlist he)
  · rw [hlamps, mem_claimsLost_all]
    refine and_congr_right fun _ => forall_congr' fun e => forall_congr' fun he => ?_
    rw [struckTargets_place hlist he]
    constructor
    · intro h hc hstruck
      cases hy : e.targets[x.pos]? with
      | none => exact .inr rfl
      | some y =>
        by_cases hl : y = .lost
        · exact .inl (congrArg some hl)
        · exact absurd ⟨hc.symm, hstruck, y, hy, hl⟩ h
    · rintro h ⟨hc, hstruck, y, hy, hl⟩
      rcases h hc.symm hstruck with k | k
      · rw [hy] at k
        exact hl (Option.some.inj k)
      · rw [hy] at k
        cases k
  · have hany : (s.cues.any fun e => !(struckTargets s hit e).isEmpty) = s.cues.any fun e => leftBy s hit e ≠ e.targets := by
      rw [Bool.eq_iff_iff, List.any_eq_true, List.any_eq_true]
      refine exists_congr fun e => and_congr_right fun he => ?_
      rw [Bool.not_eq_true', decide_eq_true_eq, ne_eq, leftBy_same hlist he, ← List.isEmpty_iff, Bool.not_eq_true]
    rw [hwarn, hany]
  · rw [hout]
    exact (Spoken.foldl (fun u e hu => tellLosses_spoken _ _ _ _ _ hu) _ (.refl s)).others q hq

end

end Sys2Proof.Machine
end

section
/-! A station's return: its LOST targets in service wait again, or are late (R97); and the changes of targets as a whole. -/

namespace Sys2Proof.Machine

/-! Claims placed for entry after entry. -/

section

variable {l : CueEntry → List TargetAt} {r : CueEntry → Rank}

/-- The claims of entries' targets placed in turn. -/
def claimsBack (l : CueEntry → List TargetAt) (r : CueEntry → Rank) (es : List CueEntry) (M : LampState) : LampState :=
  es.foldl (fun M e => claimsPlaced e.cue (r e) (l e) M) M

theorem mem_claimsBack_other {x : Claim} : ∀ {es : List CueEntry} {M : LampState},
    (∀ e ∈ es, x.cue = e.cue → ∀ y ∈ l e, y.1 ≠ x.pos) → (x ∈ (claimsBack l r es M).claims ↔ x ∈ M.claims)
  | [], _, _ => Iff.rfl
  | e :: es, M, h => by
    rw [claimsBack, List.foldl_cons]
    exact (mem_claimsBack_other fun d hd => h d (List.mem_cons_of_mem _ hd)).trans
      (mem_claimsPlaced_other (h e List.mem_cons_self))

theorem exists_claimsBack {e : CueEntry} {y : TargetAt} (hy : y ∈ l e) : ∀ {es : List CueEntry} {M : LampState},
    (es.map (·.cue)).Nodup → e ∈ es → ∃ x ∈ (claimsBack l r es M).claims, x.cue = e.cue ∧ x.pos = y.1 ∧ x.rank = r e
  | d :: es, M, hnodup, he => by
    rw [List.map_cons, List.nodup_cons] at hnodup
    obtain ⟨hfresh, hnodup⟩ := hnodup
    rw [claimsBack, List.foldl_cons]
    rcases List.mem_cons.mp he with rfl | he
    · obtain ⟨x, hx, hc, hp, hr⟩ := exists_claimsPlaced (c := e.cue) (r := r e) (L := M) hy
      refine ⟨x, (mem_claimsBack_other fun d hd hd' => ?_).mpr hx, hc, hp, hr⟩
      exact absurd (List.mem_map_of_mem hd) (hd' ▸ hc ▸ hfresh)
    · exact exists_claimsBack hy hnodup he

theorem claimsPlaced_follows_all {R : CueIx → List (Station × Lamp)} {c : CueIx} {k : Rank} {m : List TargetAt} {M : LampState}
    (h : ∀ d, M.Follows d (R d)) (hm : ∀ x ∈ m, (R c)[x.1]? = some (x.2.1, x.2.2.1)) (d : CueIx) :
    (claimsPlaced c k m M).Follows d (R d) := by
  by_cases hd : d = c
  · subst hd
    exact claimsPlaced_follows (h d) hm
  · exact fun x hx hc => h d x ((mem_claimsPlaced_other fun hc' => absurd (hc.symm.trans hc') hd).mp hx) hc

theorem mem_claimsBack {R : CueIx → List (Station × Lamp)} {e : CueEntry} {i : Nat} {st : Station} {j : Lamp} {y : TargetState}
    (hy : (i, st, j, y) ∈ l e) : ∀ {es : List CueEntry} {M : LampState}, (es.map (·.cue)).Nodup → (∀ d, M.Follows d (R d)) →
    (∀ d ∈ es, ∀ x ∈ l d, (R d.cue)[x.1]? = some (x.2.1, x.2.2.1)) → e ∈ es →
    ⟨e.cue, i, st, j, r e⟩ ∈ (claimsBack l r es M).claims
  | d :: es, M, hnodup, hM, hR, he => by
    rw [List.map_cons, List.nodup_cons] at hnodup
    obtain ⟨hfresh, hnodup⟩ := hnodup
    rw [claimsBack, List.foldl_cons]
    rcases List.mem_cons.mp he with rfl | he
    · refine (mem_claimsBack_other fun d hd hd' => ?_).mpr (mem_claimsPlaced (hM e.cue) (hR e List.mem_cons_self) hy)
      have hcue : e.cue = d.cue := hd'
      exact absurd (List.mem_map_of_mem hd) (hcue ▸ hfresh)
    · exact mem_claimsBack hy hnodup (claimsPlaced_follows_all hM (hR d List.mem_cons_self))
        (fun d' hd' => hR d' (List.mem_cons_of_mem _ hd')) he

end

/-! One target restored (R97). -/

/-- The rank of a restored target's claim. -/
def backRank (e : CueEntry) : Rank := if e.state = .going then .go else if e.deadline = .expired then .late else .standby

theorem claimRank_back (e : CueEntry) : claimRank e.state (restoredState e.deadline) = some (backRank e) := by
  unfold restoredState backRank claimRank
  by_cases hd : e.deadline = .expired
  · rw [if_pos hd, if_pos hd]
    dsimp only
    split <;> rfl
  · rw [if_neg hd, if_neg hd]
    dsimp only
    split <;> rfl

section

variable (c : CueIx) (e : CueEntry) (s : State) (x : TargetAt)

/-- A target restored and told. -/
def backTold : State :=
  reportCue 0xC5 c x.2.1.val x.2.2.1.val 0
    (placeClaim c x.1 x.2.1 x.2.2.1 (backRank e) (setTarget c x.1 (restoredState e.deadline) s))

theorem restoreTarget_told : restoreTarget c e s x =
    if restoredState e.deadline = .late then cueEvent (backTold c e s x) else backTold c e s x :=
  restoreTarget_eq (claimRank_back e)

theorem restoreTarget_cues : (restoreTarget c e s x).cues = (setTarget c x.1 (restoredState e.deadline) s).cues := by
  have htold : (backTold c e s x).cues = (setTarget c x.1 (restoredState e.deadline) s).cues := reportCue_cues _ _ _ _ _ _
  rw [restoreTarget_told]
  split
  · rw [cueEvent_cues, htold]
  · exact htold

theorem restoreTarget_lamps : (restoreTarget c e s x).lamps = s.lamps.place c x.1 x.2.1 x.2.2.1 (backRank e) := by
  have htold : (backTold c e s x).lamps = s.lamps.place c x.1 x.2.1 x.2.2.1 (backRank e) := reportCue_lamps _ _ _ _ _ _
  rw [restoreTarget_told]
  split
  · rw [cueEvent_lamps, htold]
  · exact htold

theorem restoreTarget_warn : (restoreTarget c e s x).faults.cueWarn =
    (s.faults.cueWarn || (decide (restoredState e.deadline = .late) && decide (s.faults.modes.cue = .warn))) := by
  have htold : (backTold c e s x).faults.cueWarn = s.faults.cueWarn := reportCue_warn _ _ _ _ _ _
  have hmodes : (backTold c e s x).faults.modes = s.faults.modes := (reportCue_only _ _ _ _ _ _).modes
  rw [restoreTarget_told]
  by_cases h : restoredState e.deadline = .late
  · rw [if_pos h, cueEvent_warn, htold, hmodes, decide_eq_true h, Bool.true_and]
  · rw [if_neg h, htold, decide_eq_false h, Bool.false_and, Bool.or_false]

theorem restoreTarget_voices (u : State) (h : Voices u s) :
    Voices (reportCue 0xC5 c x.2.1.val x.2.2.1.val 0 u) (restoreTarget c e s x) := by
  have hset : Voices u (placeClaim c x.1 x.2.1 x.2.2.1 (backRank e) (setTarget c x.1 (restoredState e.deadline) s)) :=
    h.trans ⟨rfl, rfl, rfl⟩
  have htold : Voices (reportCue 0xC5 c x.2.1.val x.2.2.1.val 0 u) (backTold c e s x) := hset.report _ _ _ _ _
  rw [restoreTarget_told]
  split
  · exact htold.trans (.of_only (cueEvent_only _) (cueEvent_out _))
  · exact htold

end

/-! An entry's targets restored (R97). -/

section

variable (s : State) (st : Station)

/-- The targets of an entry that come back. -/
def backTargets (e : CueEntry) : List TargetAt :=
  (s.targetsOf e.cue).filter fun x => x.2.1 = st && x.2.2.2 = .lost && s.inService x.2.1 x.2.2.1

/-- An entry once its targets are back. -/
def backEntry (e : CueEntry) : CueEntry :=
  { e with targets := statesSet (restoredState e.deadline) (backTargets s st e) e.targets }

/-- The reports of an entry's restored targets. -/
def tellBack (e : CueEntry) (u : State) : State :=
  (backTargets s st e).foldl (fun v x => reportCue 0xC5 e.cue x.2.1.val x.2.2.1.val 0 v) u

end

section

variable {s : State} {st : Station}

theorem restoreInEntry_eq (hlist : CueListOk s) {v : State} (hv : CueOnly s v) {e : CueEntry} (he : e ∈ s.cues)
    (hentry : v.entry e.cue = some e) : restoreInEntry st v e.cue = (backTargets s st e).foldl (restoreTarget e.cue e) v := by
  have hservice : v.inService = s.inService := funext fun u => funext fun j => hv.inService u j
  rw [restoreInEntry, hentry]
  dsimp only
  rw [targetsOf_congr (hentry.trans (entry_of_mem hlist he).symm) (hv.cueRec _), hservice]
  rfl

theorem restoreInEntry_step (hlist : CueListOk s) : EntryStep s (restoreInEntry st) (backEntry s st)
    (fun e M => claimsPlaced e.cue (backRank e) (backTargets s st e) M)
    (fun e => (backTargets s st e).any fun _ => restoredState e.deadline = .late) (tellBack s st) where
  cue _ := rfl
  only v c := by
    unfold restoreInEntry
    split
    · exact CueOnly.foldl (restoreTarget_only c _) _ _
    · exact .refl v
  cues v hv e he hentry hone := by
    have key := foldl_states (c := e.cue) (acts := fun _ => true)
      (fun u x => (restoreTarget_cues e.cue e u x).trans (if_pos rfl).symm) (backTargets s st e) v
    rw [restoreInEntry_eq hlist hv he hentry, key, List.filter_true]
    exact map_modEntry hone rfl
  lamps v hv e he hentry hone := by
    have key := foldl_lamps (c := e.cue) (r := backRank e) (acts := fun _ => true)
      (fun u x => (restoreTarget_lamps e.cue e u x).trans (if_pos rfl).symm) (backTargets s st e) v
    rw [restoreInEntry_eq hlist hv he hentry, key, List.filter_true]
  warn v hv e he hentry hone := by
    rw [restoreInEntry_eq hlist hv he hentry]
    exact foldl_warn (restoreTarget_only e.cue e) (restoreTarget_warn e.cue e) (backTargets s st e) v
  voices v hv e he hentry hone u hu := by
    have key := foldl_voices (f := restoreTarget e.cue e) (g := fun v x => reportCue 0xC5 e.cue x.2.1.val x.2.2.1.val 0 v)
      (tells := fun _ => true) (fun u v x h => restoreTarget_voices e.cue e v x u h) (backTargets s st e) u v hu
    rw [List.filter_true] at key
    rw [restoreInEntry_eq hlist hv he hentry]
    exact key

end

end Sys2Proof.Machine
end

section
/-! A station's return for the whole list (R97), and the deadline, losses and returns of targets together (R83, R96, R98). -/

namespace Sys2Proof.Machine

/-! The places that come back. -/

/-- Whether a place of an entry is on the station that returned, and in service. -/
def backAt (s : State) (st : Station) (e : CueEntry) (i : Nat) : Bool :=
  (s.cueRec e.cue).targets[i]?.any fun y => y.1 = st && s.inService y.1 y.2

/-- The states an entry's targets are left in. -/
def leftBack (s : State) (st : Station) (e : CueEntry) : List TargetState := e.targets.mapIdx fun i x =>
  if x = .lost && backAt s st e i then (if e.deadline = .expired then .late else .waiting) else x

section

variable {s : State} {st : Station} {e : CueEntry}

theorem backAt_target {i : Nat} {u : Station} {j : Lamp} (hR : (s.cueRec e.cue).targets[i]? = some (u, j)) :
    backAt s st e i = true ↔ u = st ∧ s.inService u j = true := by
  rw [backAt, hR, Option.any_some, Bool.and_eq_true, decide_eq_true_eq]

theorem mem_backTargets (hlist : CueListOk s) (he : e ∈ s.cues) {i : Nat} {u : Station} {j : Lamp} {y : TargetState} :
    (i, u, j, y) ∈ backTargets s st e ↔ (s.cueRec e.cue).targets[i]? = some (u, j) ∧ e.targets[i]? = some y
      ∧ y = .lost ∧ backAt s st e i = true := by
  rw [backTargets, List.mem_filter, mem_targetsOf (entry_of_mem hlist he), and_assoc]
  refine and_congr_right fun hR => and_congr_right fun _ => ?_
  rw [backAt_target hR, Bool.and_eq_true, Bool.and_eq_true, decide_eq_true_eq, decide_eq_true_eq]
  constructor
  · rintro ⟨⟨hst, hlost⟩, hservice⟩
    exact ⟨hlost, hst, hservice⟩
  · rintro ⟨hlost, hst, hservice⟩
    exact ⟨⟨hst, hlost⟩, hservice⟩

theorem backTargets_place (hlist : CueListOk s) (he : e ∈ s.cues) {i : Nat} :
    (∃ z ∈ backTargets s st e, z.1 = i) ↔ e.targets[i]? = some .lost ∧ backAt s st e i = true := by
  constructor
  · rintro ⟨⟨k, u, j, y⟩, hz, rfl⟩
    obtain ⟨-, hy, rfl, hback⟩ := (mem_backTargets hlist he).mp hz
    exact ⟨hy, hback⟩
  · rintro ⟨hy, hback⟩
    obtain ⟨u, j, hR⟩ := record_target hlist he hy
    exact ⟨(i, u, j, .lost), (mem_backTargets hlist he).mpr ⟨hR, hy, rfl, hback⟩, rfl⟩

theorem backTargets_follow (hlist : CueListOk s) (he : e ∈ s.cues) :
    ∀ x ∈ backTargets s st e, (s.cueRec e.cue).targets[x.1]? = some (x.2.1, x.2.2.1) :=
  fun x hx => targetsOf_places (entry_of_mem hlist he) x (List.mem_of_mem_filter hx)

theorem backEntry_eq (hlist : CueListOk s) (he : e ∈ s.cues) : backEntry s st e = { e with targets := leftBack s st e } := by
  have hset : statesSet (restoredState e.deadline) (backTargets s st e) e.targets = leftBack s st e := by
    refine statesSet_eq (fun i x hx hl => ?_) fun i x hx hl => ?_
    · obtain ⟨hlost, hback⟩ := (backTargets_place hlist he).mp hl
      rw [hx] at hlost
      exact if_pos (by rw [Option.some.inj hlost, hback]; rfl)
    · refine if_neg fun hyes => hl ((backTargets_place hlist he).mpr ?_)
      rw [Bool.and_eq_true, decide_eq_true_eq] at hyes
      exact ⟨hx.trans (congrArg some hyes.1), hyes.2⟩
  rw [backEntry, hset]

theorem restoredState_late {d : Deadline} : restoredState d = .late ↔ d = .expired := by
  unfold restoredState
  split <;> simp_all

theorem restoredState_back {d : Deadline} : restoredState d ≠ .lost := by
  unfold restoredState
  split <;> decide

theorem leftBack_same (hlist : CueListOk s) (he : e ∈ s.cues) : leftBack s st e = e.targets ↔ backTargets s st e = [] := by
  have hset : statesSet (restoredState e.deadline) (backTargets s st e) e.targets = leftBack s st e :=
    congrArg CueEntry.targets (backEntry_eq hlist he)
  rw [← hset]
  constructor
  · intro hsame
    refine List.eq_nil_iff_forall_not_mem.mpr fun z hz => ?_
    obtain ⟨hlost, -⟩ := (backTargets_place hlist he).mp ⟨z, hz, rfl⟩
    have hnew := (statesSet_get (restoredState e.deadline) z.1 (backTargets s st e) e.targets).1 ⟨z, hz, rfl⟩
    rw [hsame, hlost] at hnew
    exact restoredState_back (Option.some.inj hnew).symm
  · intro hnil
    rw [hnil]
    rfl

theorem backWarn_eq (hlist : CueListOk s) (he : e ∈ s.cues) :
    (backTargets s st e).any (fun _ => restoredState e.deadline = .late)
      = (decide (e.deadline = .expired) && decide (leftBack s st e ≠ e.targets)) := by
  rw [Bool.eq_iff_iff, List.any_eq_true, Bool.and_eq_true, decide_eq_true_eq (p := e.deadline = .expired),
    decide_eq_true_eq (p := leftBack s st e ≠ e.targets), ne_eq, leftBack_same hlist he]
  constructor
  · rintro ⟨z, hz, hlate⟩
    exact ⟨restoredState_late.mp (of_decide_eq_true hlate), List.ne_nil_of_mem hz⟩
  · rintro ⟨hexpired, hsome⟩
    obtain ⟨z, hz⟩ := List.exists_mem_of_ne_nil _ hsome
    exact ⟨z, hz, decide_eq_true (restoredState_late.mpr hexpired)⟩

theorem tellBack_spoken {u : State} (h : Spoken s u) : Spoken s (tellBack s st e u) :=
  Spoken.foldl (fun _ _ hv => hv.report _ _ _ _ _) _ h

end

/-! The whole list. -/

/-- What a station's return sets (R97). -/
theorem cueReturned_spec {s : State} {st : Station} (hlist : CueListOk s) :
    let t := cueReturned st s
    t.cues = s.cues.map (fun e => { e with targets := leftBack s st e })
      ∧ t.lamps = claimsBack (backTargets s st) backRank s.cues s.lamps
      ∧ t.faults.cueWarn = (s.faults.cueWarn
        || (s.faults.modes.cue = .warn && s.cues.any fun e => e.deadline = .expired && leftBack s st e ≠ e.targets))
      ∧ t.out = (s.cues.foldl (fun u e => tellBack s st e u) s).out
      ∧ CueOnly s t := by
  obtain ⟨honly, hcues, hlamps, hwarn, hout⟩ := (restoreInEntry_step (st := st) hlist).all hlist
  dsimp only
  rw [cueReturned]
  generalize (s.cues.map (·.cue)).foldl (restoreInEntry st) s = t at honly hcues hlamps hwarn hout
  refine ⟨hcues.trans (List.map_congr_left fun e he => backEntry_eq hlist he), hlamps, ?_, hout, honly⟩
  rw [hwarn]
  congr 2
  rw [Bool.eq_iff_iff, List.any_eq_true, List.any_eq_true]
  exact exists_congr fun e => and_congr_right fun he => by rw [backWarn_eq hlist he]

theorem cueReturned_spoken {s : State} {st : Station} (hlist : CueListOk s) {q : Port} (hq : s.auth.holder ≠ some q) :
    (cueReturned st s).out[q] = s.out[q] := by
  obtain ⟨-, -, -, hout, -⟩ := cueReturned_spec (st := st) hlist
  rw [hout]
  exact (Spoken.foldl (fun _ _ hu => tellBack_spoken hu) _ (.refl s)).others q hq

section

variable {s : State} {st : Station} (hlist : CueListOk s)

include hlist

/-- Each target that came back has a claim. -/
theorem cueReturned_claimed {e : CueEntry} (he : e ∈ s.cues) {i : Nat} (hlost : e.targets[i]? = some .lost)
    (hback : backAt s st e i = true) :
    ∃ x ∈ (cueReturned st s).lamps.claims, x.cue = e.cue ∧ x.pos = i ∧ x.rank = backRank e := by
  obtain ⟨-, hlamps, -⟩ := cueReturned_spec (st := st) hlist
  obtain ⟨z, hz, rfl⟩ := (backTargets_place hlist he).mpr ⟨hlost, hback⟩
  rw [hlamps]
  exact exists_claimsBack hz hlist.2.1 he

theorem cueReturned_claim (hok : ClaimsOk s) {e : CueEntry} (he : e ∈ s.cues) {i : Nat} (hlost : e.targets[i]? = some .lost)
    (hback : backAt s st e i = true) {j : Lamp} (hR : (s.cueRec e.cue).targets[i]? = some (st, j)) :
    ⟨e.cue, i, st, j, backRank e⟩ ∈ (cueReturned st s).lamps.claims := by
  obtain ⟨-, hlamps, -⟩ := cueReturned_spec (st := st) hlist
  rw [hlamps]
  exact mem_claimsBack (R := fun c => (s.cueRec c).targets) ((mem_backTargets hlist he).mpr ⟨hR, hlost, rfl, hback⟩)
    hlist.2.1 hok.follows (fun d hd => backTargets_follow hlist hd) he

theorem cueReturned_claims_other {x : Claim}
    (h : ∀ e ∈ s.cues, e.cue = x.cue → e.targets[x.pos]? = some .lost → backAt s st e x.pos = false) :
    x ∈ (cueReturned st s).lamps.claims ↔ x ∈ s.lamps.claims := by
  obtain ⟨-, hlamps, -⟩ := cueReturned_spec (st := st) hlist
  rw [hlamps]
  refine mem_claimsBack_other fun e he hc y hy hp => ?_
  obtain ⟨hlost, hback⟩ := (backTargets_place hlist he).mp ⟨y, hy, hp⟩
  rw [h e he hc.symm hlost] at hback
  cases hback

end

/-! The deadline's claims (R83). -/

section

variable {s : State} {c : CueIx} {e : CueEntry}

theorem expireDeadline_claimed (hlist : CueListOk s) (he : s.entry c = some e) {i : Nat} (hw : e.targets[i]? = some .waiting) :
    ∃ x ∈ (expireDeadline c s).lamps.claims, x.cue = c ∧ x.pos = i ∧ x.rank = .late := by
  obtain ⟨z, hz, rfl⟩ := (lateTargets_place hlist he).mpr hw
  rw [expireDeadline_lamps]
  exact exists_claimsPlaced hz

theorem expireDeadline_claim (hok : ClaimsOk s) (he : s.entry c = some e) {i : Nat} {st : Station} {j : Lamp}
    (hw : e.targets[i]? = some .waiting) (hR : (s.cueRec c).targets[i]? = some (st, j)) :
    ⟨c, i, st, j, .late⟩ ∈ (expireDeadline c s).lamps.claims := by
  rw [expireDeadline_lamps]
  refine mem_claimsPlaced (hok.follows c) (fun x hx => ?_) ((mem_lateTargets he).mpr ⟨⟨hR, hw⟩, rfl⟩)
  obtain ⟨i', st', j', y'⟩ := x
  exact ((mem_lateTargets he).mp hx).1.1

theorem expireDeadline_claims_other (hlist : CueListOk s) (he : s.entry c = some e) {x : Claim}
    (h : x.cue ≠ c ∨ e.targets[x.pos]? ≠ some .waiting) : x ∈ (expireDeadline c s).lamps.claims ↔ x ∈ s.lamps.claims := by
  rw [expireDeadline_lamps]
  refine mem_claimsPlaced_other fun hc y hy hp => ?_
  rcases h with hne | hstands
  · exact hne hc
  · exact hstands ((lateTargets_place hlist he).mp ⟨y, hy, hp⟩)

end

/-- Settles O16: each event is a fold over targets, and for losses and returns over the entries of the list; the folds say
place by place what becomes of states, claims and reports. -/
theorem deadlineMakesWaitingTargetsLate : Obligations.DeadlineMakesWaitingTargetsLate := by
  refine ⟨fun s c e hcalm hlist he hd => ?_, fun _ _ => rfl, fun _ _ _ => rfl, fun s hit hlist => ?_, fun s st hlist => ?_⟩
  · refine ⟨expireDeadline c s, exec_event_due (d := .deadline c) rfl hcalm (deadline_isDue he hd), expireDeadline_entry hlist he,
      fun d hne => expireDeadline_others hne, fun i hw => expireDeadline_claimed hlist he hw,
      fun hok i st j hw hR => expireDeadline_claim hok he hw hR, fun x hx => expireDeadline_claims_other hlist he hx,
      expireDeadline_warn hlist he, fun hn => ?_, expireDeadline_out he, expireDeadline_only⟩
    rw [expireDeadline_out he]
    exact (tellLate_spoken s).silent hn
  · exact loseTargets_spec hlist
  · obtain ⟨hcues, -, hwarn, hout, honly⟩ := cueReturned_spec (st := st) hlist
    exact ⟨hcues, fun e he i hlost hback => ⟨cueReturned_claimed hlist he hlost hback,
        fun hok j hR => cueReturned_claim hlist hok he hlost hback hR⟩,
      fun x hx => cueReturned_claims_other hlist hx, hwarn, fun q hq => cueReturned_spoken hlist hq, hout, honly⟩

end Sys2Proof.Machine
end
